-- ==== Sys2Proof/Word.lean ====
section
/-!
DEFINITION. The word types of the DQX-6400 model and the one shape its large memories have.
-/
namespace Sys2Proof

/-- A byte of data space, instruction space or a lane of a vector register. -/
abbrev Byte := BitVec 8

/-- A 64-bit word: a general register, an address, a dictionary value. -/
abbrev Word := BitVec 64

/-- A global core number, 0 to 63 (R4). -/
abbrev CoreId := Fin 64

/-- A general register number, g0 to g31 (R55). -/
abbrev GReg := Fin 32

/-- A capability register number, k0 to k15 (R55). -/
abbrev KReg := Fin 16

/-- A memory stack, S0 to S15 (R3). -/
abbrev StackId := Fin 16

/-- A sparse array: address and content pairs with strictly rising addresses, no content equal to
what an unlisted address reads as. Memories, vector registers, accumulators and tables have this one
shape, so equal contents are equal data. -/
abbrev Sparse (α : Type) := List (Nat × α)

/-- A value stored with its bitwise complement (R362). -/
structure CPair (w : Nat) where
  val : BitVec w
  inv : BitVec w
  deriving DecidableEq, Repr

end Sys2Proof
end

