-- ==== Sys2Proof/Syntax.lean ====
section
/-!
DEFINITION. The commands of the DQX-6400, one constructor per row of the table of operations and
events, with the operands the chapters give each row. An instruction's operands are its encoding
fields; an event's operands are what the outside decides (a received packet, a sensor reading).
-/
namespace Sys2Proof

/-- Fields of a VR instruction that every VR form shares (R122); op and fn select the command. -/
structure VrFields where
  cfg : BitVec 8
  rm : BitVec 3
  grp : BitVec 2
  zm : Bool
  me : Bool
  ms : Fin 8
  sfmt : BitVec 4
  fmt : BitVec 4
  vs3 : Fin 32
  vs2 : Fin 32
  vs1 : Fin 32
  vd : Fin 32
  deriving DecidableEq, Repr

/-- Fields of a VM instruction (R122); the mode is the command. -/
structure VmFields where
  off16 : BitVec 16
  iw : Bool
  nf : BitVec 2
  grp : BitVec 2
  zm : Bool
  me : Bool
  ms : Fin 8
  fmt : BitVec 4
  vi : Fin 32
  gs : GReg
  kb : KReg
  v : Fin 32
  deriving DecidableEq, Repr

/-- Fields of a TD instruction (R211). -/
structure TdFields where
  cfg : BitVec 8
  rm : BitVec 3
  gs : GReg
  gp : GReg
  kd : KReg
  deriving DecidableEq, Repr

/-- The address of `in` and `out`: in a register, or the imm32 of format LI (R71). -/
inductive IoAddr where
  | reg (gs : GReg)
  | imm (imm32 : BitVec 32)
  deriving DecidableEq, Repr

/-- Who makes a dictionary access (R446): a core through kc, an open DAP session of one of the two
paths, or hub firmware. -/
inductive Requester where
  | core (c : CoreId) (kc : KReg)
  | session (vlan : Bool) (slot : Fin 4)
  | hub
  deriving DecidableEq, Repr

/-- The Ethernet and IP facts of a received frame that R320 to R325 judge. -/
structure Frame where
  /-- Arrival sub-port 8p + j. -/
  sub : Fin 64
  len : Nat
  fcsOk : Bool
  stag : Bool
  /-- VID of the C-tag; none for an untagged frame. -/
  vid : Option (BitVec 12)
  srcMac : BitVec 48
  srcIp : BitVec 128
  dstIp : BitVec 128
  /-- The packet is a fragment or carries an extension header. -/
  fragOrExt : Bool
  /-- Congestion experienced. -/
  ce : Bool
  /-- UDP checksum and CRC-32C (or ICRC) are right. -/
  crcOk : Bool
  deriving DecidableEq, Repr

/-- A Poldoal packet: the header of R346 and its payload. -/
structure Packet where
  ver : BitVec 4
  ptype : BitVec 4
  op : BitVec 8
  chan : Fin 4096
  first : Bool
  last : Bool
  ceEcho : Bool
  hasPmap : Bool
  psn : BitVec 32
  epoch : BitVec 32
  src : BitVec 14
  dst : BitVec 14
  ack : BitVec 32
  aux : BitVec 32
  offset : BitVec 48
  fmt : BitVec 8
  /-- Fabric capability, map of later packets held, or an atomic's old value. -/
  token : BitVec 128
  pmap : BitVec 128
  payload : List Byte
  deriving DecidableEq, Repr

/-- The kinds of RoCEv2 request the device names (R354). -/
inductive RoceOp where
  | send
  | write
  | read
  | fetchAdd
  | cmpSwap
  | unsupported
  deriving DecidableEq, Repr

/-- A RoCEv2 request packet (R354, R355); `qp`: this device's queue pair, `va`, `rkey` and `len`: as the message's first
packet gives them. -/
structure RoceReq where
  qp : Fin 1024
  psn : BitVec 24
  op : RoceOp
  va : Word
  rkey : BitVec 32
  len : BitVec 32
  opd1 : Word
  opd2 : Word
  /-- First and last packet of its message: a SEND or WRITE has one packet per path MTU. -/
  first : Bool
  last : Bool
  payload : List Byte
  deriving DecidableEq, Repr

/-- What a RoCEv2 responder answered (R354, R357). -/
inductive RoceAnswer where
  | ack (data : List Byte) (old : Word)
  | nakSequence
  | nakInvalid
  | nakAccess
  | nakOperational
  | rnr
  deriving DecidableEq, Repr

/-- A DAP datagram (R460). -/
structure DapMsg where
  ver : BitVec 4
  typ : BitVec 4
  flags : BitVec 8
  blen : BitVec 16
  session : BitVec 32
  seq : Word
  body : List Byte
  /-- The HMAC tag; none where the datagram carries none. -/
  tag : Option (BitVec 512)
  deriving DecidableEq, Repr

/-- How a DAP datagram came: on the management port, to an address and UDP port of its own, or in a frame of a data sub-port
(R459, R468). `sport`: the host's UDP port. -/
inductive DapFrom where
  | onPort (dst src : BitVec 128) (dport sport : BitVec 16)
  | onVlan (f : Frame) (dport sport : BitVec 16)
  deriving DecidableEq, Repr

/-- One image slot of the boot flash, as a stage reads it (R411). -/
structure FlashImage where
  readOk : Bool
  header : List Byte
  body : List Byte
  deriving DecidableEq, Repr

/-- What asks for a reset from outside, each filtered alike (R403, R475). -/
inductive ResetInput where
  | porN
  | sysN
  | pwrgd (k : Fin 7)
  | monitor
  deriving DecidableEq, Repr

/-- One junction sensor's reading: units 0 to 63 are cores, 64 to 67 die uncores, 68 the hub (R438). -/
structure SensorReading where
  unit : Fin 69
  idx : Fin 8
  /-- Temperature in 0.1 °C. -/
  temp : Int
  deriving DecidableEq, Repr

/-- What a row check found: the lowest stationary row that mismatches and the check kind (R164): 0 product, 1 exponent
residue, 2 alignment residue, 3 column-adder residue, 4 accumulation residue, 5 range bit of an F pair. -/
structure CheckError where
  k : Fin 512
  kind : Fin 6
  deriving DecidableEq, Repr

/-- What went wrong in the array for a row: the product that cell (k, n) formed, as the signed product of significands, or an
adder (0 exponent, 1 alignment, 2 column, 3 accumulation; column n, stationary row k) whose result is off by `delta` (R157,
R158). -/
inductive ArrayFault where
  | product (k n : Fin 512) (p : Int)
  | adder (kind : Fin 4) (k n : Fin 512) (delta : Int)
  deriving DecidableEq, Repr

/-- Which memory of a stack a word lies in, as UE_POISON codes it (R281). -/
inductive StackSpace where
  | dram
  | istore
  | sram
  deriving DecidableEq, Repr

/-- The error a patrol read finds in a word: one its code corrects, one it does not, or poison copies that stand as given
(R259, R260). -/
inductive WordError where
  | correctable
  | uncorrectable
  | poisonCopies (copies : BitVec 3)
  deriving DecidableEq, Repr

/-- The kind of a neighbour or echo request (R320, R459). -/
inductive NeighborKind where
  | arp
  | solicitation
  | echo
  deriving DecidableEq, Repr

/-- Which field of a fabric table entry a write names (R340). -/
inductive FabricField where
  | tokLo
  | tokHi
  | base
  | len
  deriving DecidableEq, Repr

/-- Why a sub-port leaves UP (R351, R359): its link or alignment is lost, uncorrectable codewords were counted in one second,
or its PROBEs stay unanswered. -/
inductive DownReason where
  | link
  | fec (words : BitVec 32)
  | probes
  deriving DecidableEq, Repr

/-- A CRC error of a package link, and whether the packet that failed is a replay (R368). -/
structure CrcError where
  link : Fin 10
  replay : Bool
  deriving DecidableEq, Repr

/-- How a drain of a snapshot buffer fails (R303). -/
inductive DrainFailure where
  | poisoned
  | transport
  deriving DecidableEq, Repr

/-- The commands. -/
inductive Instr where
  -- integer, bit-field and byte instructions (R59 to R63)
  | add (c : CoreId) (rd rs1 rs2 : GReg)
  | sub (c : CoreId) (rd rs1 rs2 : GReg)
  | and (c : CoreId) (rd rs1 rs2 : GReg)
  | or (c : CoreId) (rd rs1 rs2 : GReg)
  | xor (c : CoreId) (rd rs1 rs2 : GReg)
  | andn (c : CoreId) (rd rs1 rs2 : GReg)
  | sll (c : CoreId) (rd rs1 rs2 : GReg)
  | srl (c : CoreId) (rd rs1 rs2 : GReg)
  | sra (c : CoreId) (rd rs1 rs2 : GReg)
  | rol (c : CoreId) (rd rs1 rs2 : GReg)
  | ror (c : CoreId) (rd rs1 rs2 : GReg)
  | slt (c : CoreId) (rd rs1 rs2 : GReg)
  | sltu (c : CoreId) (rd rs1 rs2 : GReg)
  | min (c : CoreId) (rd rs1 rs2 : GReg)
  | max (c : CoreId) (rd rs1 rs2 : GReg)
  | minu (c : CoreId) (rd rs1 rs2 : GReg)
  | maxu (c : CoreId) (rd rs1 rs2 : GReg)
  | mul (c : CoreId) (rd rs1 rs2 : GReg)
  | mulh (c : CoreId) (rd rs1 rs2 : GReg)
  | mulhu (c : CoreId) (rd rs1 rs2 : GReg)
  | mulhsu (c : CoreId) (rd rs1 rs2 : GReg)
  | div (c : CoreId) (rd rs1 rs2 : GReg)
  | divu (c : CoreId) (rd rs1 rs2 : GReg)
  | rem (c : CoreId) (rd rs1 rs2 : GReg)
  | remu (c : CoreId) (rd rs1 rs2 : GReg)
  | sel (c : CoreId) (rd rs1 rs2 rs3 : GReg)
  | addi (c : CoreId) (rd rs1 : GReg) (imm12 : BitVec 12)
  | andi (c : CoreId) (rd rs1 : GReg) (imm12 : BitVec 12)
  | ori (c : CoreId) (rd rs1 : GReg) (imm12 : BitVec 12)
  | xori (c : CoreId) (rd rs1 : GReg) (imm12 : BitVec 12)
  | slli (c : CoreId) (rd rs1 : GReg) (imm12 : BitVec 12)
  | srli (c : CoreId) (rd rs1 : GReg) (imm12 : BitVec 12)
  | srai (c : CoreId) (rd rs1 : GReg) (imm12 : BitVec 12)
  | roli (c : CoreId) (rd rs1 : GReg) (imm12 : BitVec 12)
  | clz (c : CoreId) (rd rs1 : GReg)
  | ctz (c : CoreId) (rd rs1 : GReg)
  | bperm (c : CoreId) (rd rs1 rs2 rs3 : GReg)
  | bfext (c : CoreId) (rd rs1 : GReg) (pos len : BitVec 6)
  | bfexts (c : CoreId) (rd rs1 : GReg) (pos len : BitVec 6)
  | bfins (c : CoreId) (rd rs1 : GReg) (pos len : BitVec 6)
  | bfextr (c : CoreId) (rd rs1 rs2 : GReg)
  | bfextsr (c : CoreId) (rd rs1 rs2 : GReg)
  | bfinsr (c : CoreId) (rd rs1 rs2 : GReg)
  | li (c : CoreId) (rd : GReg) (imm32 : BitVec 32)
  | lih (c : CoreId) (rd : GReg) (imm32 : BitVec 32)
  -- control transfer (R64)
  | beq (c : CoreId) (rs1 rs2 : GReg) (off12 : BitVec 12)
  | bne (c : CoreId) (rs1 rs2 : GReg) (off12 : BitVec 12)
  | blt (c : CoreId) (rs1 rs2 : GReg) (off12 : BitVec 12)
  | bge (c : CoreId) (rs1 rs2 : GReg) (off12 : BitVec 12)
  | bltu (c : CoreId) (rs1 rs2 : GReg) (off12 : BitVec 12)
  | bgeu (c : CoreId) (rs1 rs2 : GReg) (off12 : BitVec 12)
  | jal (c : CoreId) (rd : GReg) (off20 : BitVec 20)
  | jalr (c : CoreId) (rd rs1 : GReg) (imm12 : BitVec 12)
  -- data space (R65 to R68), loops, control registers, dictionary
  | ld (c : CoreId) (fn : BitVec 3) (rd : GReg) (kb : KReg) (off13 : BitVec 13)
  | st (c : CoreId) (fn : BitVec 3) (rs : GReg) (kb : KReg) (off13 : BitVec 13)
  | lc (c : CoreId) (kd kb : KReg) (off13 : BitVec 13)
  | sc (c : CoreId) (ks kb : KReg) (off13 : BitVec 13)
  /-- `im` = true counts from imm10, false from gc (R59). -/
  | loop (c : CoreId) (im : Bool) (gc : GReg) (imm10 : BitVec 10) (eoff : BitVec 9)
  | endloop (c : CoreId)
  | fence (c : CoreId)
  | mfc (c : CoreId) (rd : GReg) (ctl : BitVec 6)
  | mtc (c : CoreId) (ctl : BitVec 6) (rs1 : GReg)
  | ioIn (c : CoreId) (rd : GReg) (kc : KReg) (addr : IoAddr)
  | ioOut (c : CoreId) (kc : KReg) (addr : IoAddr) (gv : GReg)
  /-- `pause` = some n: an asynchronous event is waiting once n units are done (R76). -/
  | rmov (c : CoreId) (size : BitVec 2) (ga gb gc : GReg) (ka kb : KReg) (pause : Option Nat)
  | rfill (c : CoreId) (size : BitVec 2) (ga gb gc : GReg) (ka : KReg) (pause : Option Nat)
  | rcmp (c : CoreId) (size : BitVec 2) (ga gb gc : GReg) (ka kb : KReg) (pause : Option Nat)
  | rscan (c : CoreId) (size : BitVec 2) (ga gb gc : GReg) (ka : KReg) (pause : Option Nat)
  | iload (c : CoreId) (ga gb gc : GReg) (ka kb : KReg) (pause : Option Nat)
  | iflush (c : CoreId) (ga gc : GReg) (ka : KReg) (pause : Option Nat)
  | dcclean (c : CoreId) (ga gc : GReg) (ka : KReg) (pause : Option Nat)
  | dcinval (c : CoreId) (ga gc : GReg) (ka : KReg) (pause : Option Nat)
  | l1MissFill (c : CoreId)
  -- capabilities (R98), shadow bank (R103), exceptions
  | kmov (c : CoreId) (kd ks1 : KReg)
  | kread (c : CoreId) (gd : GReg) (ks1 : KReg) (f : BitVec 5)
  | kstep (c : CoreId) (kd ks1 : KReg) (g : GReg)
  | kpoint (c : CoreId) (kd ks1 : KReg) (g : GReg)
  | knarrow (c : CoreId) (kd ks1 : KReg) (g : GReg)
  | knarrowx (c : CoreId) (kd ks1 : KReg) (g : GReg)
  | kperm (c : CoreId) (kd ks1 : KReg) (g : GReg)
  | klock (c : CoreId) (kd ks1 ks2 : KReg)
  | kunlock (c : CoreId) (kd ks1 ks2 : KReg)
  | kwithin (c : CoreId) (gd : GReg) (ks1 ks2 : KReg)
  | kstrip (c : CoreId) (kd ks1 : KReg)
  | kgo (c : CoreId) (kd ks1 : KReg) (g : GReg)
  | kpc (c : CoreId) (kd : KReg) (g : GReg)
  | kmfc (c : CoreId) (kd : KReg) (cc : BitVec 5)
  | kmtc (c : CoreId) (cc : BitVec 5) (ks1 : KReg)
  | shsave (c : CoreId) (ks1 : KReg)
  | shload (c : CoreId) (ks1 : KReg)
  | mfsg (c : CoreId) (gd : GReg) (n : BitVec 5)
  | mtsg (c : CoreId) (n : BitVec 5) (g : GReg)
  | mfsk (c : CoreId) (kd : KReg) (n : BitVec 5)
  | mtsk (c : CoreId) (n : BitVec 5) (ks1 : KReg)
  | mfss (c : CoreId) (gd : GReg)
  | mtss (c : CoreId) (g : GReg)
  | xadv (c : CoreId) (n : BitVec 5)
  | xret (c : CoreId)
  | ecall (c : CoreId)
  | brk (c : CoreId)
  | exceptionEntry (c : CoreId)
  -- masks, permutations and moves (R121, R132)
  | mand (c : CoreId) (f : VrFields)
  | mor (c : CoreId) (f : VrFields)
  | mxor (c : CoreId) (f : VrFields)
  | mandn (c : CoreId) (f : VrFields)
  | mnot (c : CoreId) (f : VrFields)
  | mset (c : CoreId) (f : VrFields)
  | mpopc (c : CoreId) (f : VrFields)
  | mfirst (c : CoreId) (f : VrFields)
  | mtov (c : CoreId) (f : VrFields)
  | vtom (c : CoreId) (f : VrFields)
  | vsetvl (c : CoreId) (f : VrFields)
  | vmv (c : CoreId) (f : VrFields)
  | vbcast (c : CoreId) (f : VrFields)
  | vperm (c : CoreId) (f : VrFields)
  | vslideup (c : CoreId) (f : VrFields)
  | vslidedown (c : CoreId) (f : VrFields)
  | vcompress (c : CoreId) (f : VrFields)
  | vexpand (c : CoreId) (f : VrFields)
  | vext (c : CoreId) (f : VrFields)
  | vins (c : CoreId) (f : VrFields)
  -- long-vector memory forms (R126); `pause` = some n: an event waits at the nth later beat boundary
  | vld (c : CoreId) (f : VmFields) (pause : Option Nat)
  | vst (c : CoreId) (f : VmFields) (pause : Option Nat)
  | vlds (c : CoreId) (f : VmFields) (pause : Option Nat)
  | vsts (c : CoreId) (f : VmFields) (pause : Option Nat)
  | vldx (c : CoreId) (f : VmFields) (pause : Option Nat)
  | vstx (c : CoreId) (f : VmFields) (pause : Option Nat)
  | vlseg (c : CoreId) (f : VmFields) (pause : Option Nat)
  | vsseg (c : CoreId) (f : VmFields) (pause : Option Nat)
  -- Bramble register forms (R198 to R201)
  | vc (c : CoreId) (op : BitVec 5) (func : BitVec 3) (red : BitVec 2) (f : VrFields)
  | vcCompare (c : CoreId) (cond : BitVec 2) (func : BitVec 3) (red : BitVec 2) (f : VrFields)
  | vcDrop (c : CoreId) (func : BitVec 3) (red : BitVec 2) (f : VrFields)
  | vcRandu (c : CoreId) (func : BitVec 3) (red : BitVec 2) (f : VrFields)
  | vcRandb (c : CoreId) (func : BitVec 3) (red : BitVec 2) (f : VrFields)
  -- tile instructions (R170)
  | qstat (c : CoreId) (gs : GReg) (tsc : Bool) (n k : BitVec 10) (tfmt : BitVec 5)
  | qmma (c : CoreId) (gs : GReg) (tsc ssc neg start : Bool) (tfmt sfmt : BitVec 5)
      (n k : BitVec 10) (m : BitVec 11) (slot : Fin 16)
  | qdrain (c : CoreId) (cfg : BitVec 8) (st : Bool) (gsc gd : GReg) (rm : BitVec 3)
      (fmt : BitVec 4) (n : BitVec 10) (m : BitVec 11) (slot : Fin 16)
  | tld (c : CoreId) (off16 : BitVec 16) (gu gp : GReg) (len : BitVec 12) (m : BitVec 11) (kb : KReg)
  | accpeek (c : CoreId) (gs gd : GReg)
  | accsave (c : CoreId) (kb : KReg) (pause : Option Nat)
  | accrestore (c : CoreId) (kb : KReg) (pause : Option Nat)
  -- tensor-descriptor and fixed forms (R211)
  | tc (c : CoreId) (op : BitVec 5) (func : BitVec 3) (red : BitVec 2) (f : TdFields) (pause : Option Nat)
  | txStats (c : CoreId) (f : TdFields) (pause : Option Nat)
  | txOptim (c : CoreId) (f : TdFields) (pause : Option Nat)
  | txSlice (c : CoreId) (f : TdFields) (pause : Option Nat)
  | txDwround (c : CoreId) (f : TdFields) (pause : Option Nat)
  -- stream instructions (R230)
  | sopen (c : CoreId) (e : BitVec 3) (kd kb : KReg) (g : GReg)
  | scancel (c : CoreId) (mask : BitVec 6)
  | srestart (c : CoreId) (e : BitVec 3) (g : GReg)
  | sfence (c : CoreId) (fm : BitVec 3)
  | sstat (c : CoreId) (g : GReg) (e : BitVec 3) (w : BitVec 2)
  -- events of the array, the drains and the tile path
  | stationaryRowLoad (c : CoreId)
  | quinceRowEnter (c : CoreId)
  | invalidCycle (c : CoreId)
  /-- Row `m` finishes its checks; `err` is what went wrong in the array, if anything. -/
  | quinceRowCheck (c : CoreId) (m : Nat) (err : Option ArrayFault)
  | stationaryReload (c : CoreId)
  | accRowWrite (c : CoreId)
  | arrayHoldEnd (c : CoreId)
  | drainSlotReadStart (c : CoreId) (slot : Fin 16)
  | drainPause (c : CoreId) (slot : Fin 16)
  | drainResume (c : CoreId) (slot : Fin 16)
  | drainSlotReadEnd (c : CoreId) (slot : Fin 16)
  | tokenRaise (c : CoreId)
  | tldRowArrival (c : CoreId)
  -- events of the stream engines
  | streamRequest (c : CoreId) (e : Fin 4)
  | streamDataArrival (c : CoreId) (e : Fin 4)
  | streamUnitRelease (c : CoreId) (e : Fin 4)
  | storeStreamWriteAck (c : CoreId) (e : Fin 2)
  | scancelComplete (c : CoreId) (e : Fin 6)
  | srestartComplete (c : CoreId) (e : Fin 4)
  | sfenceComplete (c : CoreId)
  | depthSample (c : CoreId) (e : Fin 6)
  -- events of the stacks
  /-- `word`: the ECC word's number in its memory of the stack; `err`: the error the word holds. -/
  | patrolScrubRead (st : StackId) (space : StackSpace) (word : Nat) (err : Option WordError)
  | rowSpareDone (st : StackId)
  /-- A bank's refresh; `eye` = some (channel, read?, margin in ps) recentres that interface. -/
  | refresh (st : StackId) (bank : Fin 1024) (eye : Option (Fin 32 × Bool × BitVec 8))
  | targetedRefresh (st : StackId) (bank : Fin 1024) (row : Nat)
  | poisonStormFence (st : StackId)
  | stackTrainingDone (failed : BitVec 16)
  | stackInitDone
  | scatterAddSegment (st : StackId)
  | scatterAddCommand (st : StackId)
  | gatherCommand (st : StackId)
  | engineCommandEnd (st : StackId)
  | stkFenceWrite (r : Requester) (v : Word)
  | stackSlowCheck (st : StackId) (mean others : Nat)
  -- training support
  | stepAdvWrite (r : Requester) (v : Word)
  | stepIncWrite (r : Requester) (v : Word)
  | snapDrain (r : Requester) (v : Word)
  | snapRestore (r : Requester) (v : Word)
  | snapRelease (r : Requester) (v : Word)
  | snapAccept (r : Requester) (v : Word)
  | drainSectionsAcked
  | drainHeaderAcked
  | drainValidAcked
  | drainFail (why : DrainFailure) (sec : BitVec 32)
  /-- The record read by RDMA READ; none where the connection failed. -/
  | restoreReadDone (record : Option (List Byte))
  -- posted operations: the hub accepts the next descriptor of core c's posting queue
  | poldoalWrite (c : CoreId)
  | poldoalRead (c : CoreId)
  | atomicAdd (c : CoreId)
  | atomicMax (c : CoreId)
  | atomicCas (c : CoreId)
  | writeAcc (c : CoreId)
  | poldoalNotify (c : CoreId)
  | poldoalFence (c : CoreId)
  | send (c : CoreId)
  | rdmaWrite (c : CoreId)
  | rdmaRead (c : CoreId)
  | fetchAdd (c : CoreId)
  | cmpSwap (c : CoreId)
  -- Poldoal transport
  /-- `full`: the sub-ports whose transmit queue is full. -/
  | packetSend (ch : Fin 4096) (full : BitVec 64)
  | reqReceive (f : Frame) (p : Packet)
  | ackTimer (ch : Fin 4096)
  | ackReceive (f : Frame) (p : Packet)
  | nackReceive (f : Frame) (p : Packet)
  | respReceive (f : Frame) (p : Packet)
  | retransmitTimeout (ch : Fin 4096) (psn : BitVec 32)
  | helloReceive (f : Frame) (p : Packet)
  | helloTimer (ch : Fin 4096)
  | byeReceive (f : Frame) (p : Packet)
  | peerTimeout (peer : BitVec 14)
  | probeTimer (peer : BitVec 14)
  | probeReceive (f : Frame) (p : Packet)
  | probeReplyReceive (f : Frame) (p : Packet)
  | subportDown (sub : Fin 64) (why : DownReason)
  | portFenceWrite (r : Requester) (p : Fin 8) (v : Word)
  | pfcFrameReceive (f : Frame) (enable : BitVec 8) (times : Vector (BitVec 16) 8)
  | pfcXoffSend (sub : Fin 64) (prio : Fin 8)
  | pfcXonSend (sub : Fin 64) (prio : Fin 8)
  | neighborEchoReceive (f : Frame) (kind : NeighborKind) (target : BitVec 128)
  | chCmdOpen (r : Requester) (c : CoreId)
  | chCmdClose (r : Requester) (c : CoreId)
  | channelDrained (ch : Fin 4096)
  | pqSizeWrite (r : Requester) (c : CoreId) (v : Word)
  | fabricTableWrite (r : Requester) (field : FabricField) (ent : Fin 16384) (v : Word)
  | fabricEnableWrite (r : Requester) (ent : Fin 16384) (v : Word)
  | qpCmdLoad (r : Requester) (v : Word)
  | qpCmdReset (r : Requester) (v : Word)
  | qpCmdWriteback (r : Requester) (v : Word)
  | roceRequestReceive (f : Frame) (q : RoceReq)
  | roceResponseReceive (f : Frame) (qp : Fin 1024) (psn : BitVec 24) (a : RoceAnswer)
  | roceCnpReceive (f : Frame) (qp : Fin 1024)
  | roceRetryTimeout (qp : Fin 1024)
  | portModeWrite (r : Requester) (p : Fin 8) (v : Word)
  -- containment, dispatch, recorder
  | ledgerCheck
  | fenceWriteoff (pool : Nat)
  | coreFenceWrite (r : Requester) (v : Word)
  | watchdogWarn (c : CoreId)
  | watchdogFence (c : CoreId)
  | dqPost (r : Requester) (q : Fin 5) (item : Word)
  | dqClaim (c : CoreId) (rd : GReg) (kc : KReg)
  | dqDone (c : CoreId) (kc : KReg) (gv : GReg)
  | recordAccept
  | recordWrite
  /-- `win` = some c: the window of core c; none: the shared window at 0xA001 (R377). -/
  | recSelWrite (r : Requester) (win : Option CoreId) (v : Word)
  | recSizeWrite (r : Requester) (v : Word)
  | pwrFailAssert
  | bbPageProgrammed
  | bbEraseStart
  | bbEraseDone
  /-- `replay` = true: what fails is the replay of a packet that failed before. -/
  | linkCrcError (e : CrcError)
  -- interrupts and resets
  | doorbellMessage (msg : BitVec 19)
  | intSet (r : Requester) (v : Word)
  | intClr (r : Requester) (v : Word)
  | claim (r : Requester) (rd : GReg)
  | complete (r : Requester) (v : Word)
  /-- `supply` = true: the VAON supply monitor; false: RST_POR_N or a PWRGD input. -/
  | powerOnReset (supply : Bool)
  /-- `sys`: the level RST_SYS_N has at the release; `spareFail`: dies whose spare fails self-test. -/
  | resetRelease (sysLow : Bool) (spareFail : BitVec 4)
  | rstSysNAssert
  | sysRstWrite (r : Requester) (v : Word)
  | systemResetQuiesced
  | resetGlitch (ball : ResetInput) (width : BitVec 32)
  | coreRstWrite (r : Requester) (c : CoreId) (v : Word)
  | coreResetDone (c : CoreId)
  | optionLoadDone
  | optGoWrite (r : Requester) (v : Word)
  -- boot, JTAG, attestation
  | romBoot (a b : FlashImage)
  | stage1Boot (a b : FlashImage)
  | hubFwBoot (a b : FlashImage) (config : BitVec 512)
  | coreRelease
  | recover (img : FlashImage)
  | sysreset
  | keyprog (slot : Fin 4) (hash : BitVec 512)
  | lcadv
  | extest
  | samplePreload (sampled : BitVec 21) (preload : Option (BitVec 21))
  | idcode
  | bypass
  | jtagDebug (opcode : BitVec 8)
  | svnCommit (r : Requester) (v : Word)
  | fuseProgramDone
  | keyRevoke (r : Requester) (v : Word)
  | qCmd (r : Requester) (win : Option CoreId) (v : Word)
  | quoteDone
  | extGo (r : Requester) (win : Option CoreId) (v : Word)
  -- power and thermal
  | pdCmdOn (r : Requester) (d : Fin 96)
  | pdCmdOff (r : Requester) (d : Fin 96)
  | rampSlotGrant (die : Fin 4) (stack : Bool)
  | domainPowerupDone (d : Fin 96)
  | domainShutdownDone (d : Fin 96)
  | sensorSample (readings : List SensorReading)
  | powerMeasure (watts : BitVec 16)
  | pwrCapWrite (r : Requester) (v : Word)
  | marginMonitor (c : CoreId) (slackPs : BitVec 32) (below : Bool)
  | droopDetect (c : CoreId)
  | droopEnd (c : CoreId)
  | fSetWrite (r : Requester) (c : CoreId) (v : Word)
  /-- `mv`: what the read of the rail's voltage returns (R435, R476). -/
  | frequencyChange (c : CoreId) (mv : BitVec 16)
  /-- The voltage write of `target` is not confirmed; `mv`: the value last read (R476). -/
  | vregTimeout (c : CoreId) (target mv : BitVec 16)
  | collMark (r : Requester) (c : CoreId) (v : Word)
  | critWindowEnd
  | refclkLost
  -- management
  | dapHello (at_ : DapFrom) (m : DapMsg)
  | dapConfirm (at_ : DapFrom) (m : DapMsg)
  | dapRead (at_ : DapFrom) (m : DapMsg)
  | dapWrite (at_ : DapFrom) (m : DapMsg)
  | dapBlockRead (at_ : DapFrom) (m : DapMsg)
  | dapClose (at_ : DapFrom) (m : DapMsg)
  | certGet (at_ : DapFrom) (m : DapMsg)
  | dapIdleTimeout (vlan : Bool) (slot : Fin 4)
  | challengeTimeout
  | mgmtIcmpReceive (kind : NeighborKind) (target : BitVec 128)
  | optCommit (r : Requester) (v : Word)
  | optCommitPageDone
  | descSelWrite (r : Requester) (c : CoreId) (v : Word)
  | dictionaryWrite (r : Requester) (index : BitVec 16) (sub : BitVec 8) (off : BitVec 16) (v : Word)
  -- events added at the end of the table
  | pwrFailNRelease
  | refclkGood
  | subportLinkUp (sub : Fin 64)
  | stackTemperatureChange (st : StackId) (temp : Int)
  | pfcPauseTimeEnd (sub : Fin 64) (prio : Fin 8)
  | cnpRateRecovery (qp : Fin 1024)
  | rnrRetryTimer (qp : Fin 1024)
  | pauseFrameReceive (f : Frame)
  | testLogicReset
  | challengeSend
  | acceptSend
  deriving DecidableEq, Repr

end Sys2Proof
end

