-- ==== Sys2Proof/Decode.lean ====
section
/-!
DEFINITION. The encodings of the Lanhibin instructions (R57 to R59, R95, R98, R103, R122, R170, R198, R211, R230): a word is
read as the instruction it spells, or as none where an opcode or a function code is not assigned or a reserved field is not
zero. A field that only some operand values leave reserved is an operand here, and its instruction checks it. No row of the
table of operations gives bits: `decodeTableWord` reads a word as core 0 does.
-/
namespace Sys2Proof

/-! ### Fields -/

/-- n bits of the instruction from bit lo on. -/
abbrev fieldAt (w : BitVec 64) (lo n : Nat) : BitVec n := w.extractLsb' lo n

/-- A 5-bit register field: g0 to g31 (R58). -/
def gAt (w : BitVec 64) (lo : Nat) : GReg := Fin.ofNat 32 (fieldAt w lo 5).toNat

/-- A 4-bit register field: k0 to k15 (R58). -/
def kAt (w : BitVec 64) (lo : Nat) : KReg := Fin.ofNat 16 (fieldAt w lo 4).toNat

/-- A mask register number. -/
def maskAt (w : BitVec 64) (lo : Nat) : Fin 8 := Fin.ofNat 8 (fieldAt w lo 3).toNat

/-- Every one of the reserved fields, given by low bit and width, is zero (R57). -/
def reservedZero (w : BitVec 64) (fs : List (Nat × Nat)) : Bool := fs.all fun f => w.toNat / 2 ^ f.1 % 2 ^ f.2 == 0

/-- The instruction where its reserved fields are zero. -/
def whenZero (w : BitVec 64) (fs : List (Nat × Nat)) (i : Instr) : Option Instr :=
  if reservedZero w fs then some i else none

/-! ### Scalar instructions (R58, R59) -/

/-- Opcode 0x01 by fn, below `sel`. -/
def arithForms : List (CoreId → GReg → GReg → GReg → Instr) :=
  [.add, .sub, .and, .or, .xor, .andn, .sll, .srl, .sra, .rol, .ror, .slt, .sltu, .min, .max, .minu, .maxu,
   .mul, .mulh, .mulhu, .mulhsu, .div, .divu, .rem, .remu]

/-- Opcode 0x11 by fn. -/
def immForms : List (CoreId → GReg → GReg → BitVec 12 → Instr) := [.addi, .andi, .ori, .xori, .slli, .srli, .srai, .roli]

/-- Opcode 0x19 by cond. -/
def branchForms : List (CoreId → GReg → GReg → BitVec 12 → Instr) := [.beq, .bne, .blt, .bge, .bltu, .bgeu]

/-- Format RR: fn [31:27], rs3 [26:22], rs2 [21:17], rs1 [16:12], rd [11:7]. -/
def decodeArith (c : CoreId) (w : BitVec 64) : Option Instr :=
  let fn := (fieldAt w 27 5).toNat
  if fn = 0x19 then some (.sel c (gAt w 7) (gAt w 12) (gAt w 17) (gAt w 22))
  else (arithForms[fn]?).bind fun mk => whenZero w [(22, 5)] (mk c (gAt w 7) (gAt w 12) (gAt w 17))

def decodeBits (c : CoreId) (w : BitVec 64) : Option Instr :=
  match (fieldAt w 27 5).toNat with
  | 0 => whenZero w [(17, 10)] (.clz c (gAt w 7) (gAt w 12))
  | 1 => whenZero w [(17, 10)] (.ctz c (gAt w 7) (gAt w 12))
  | 2 => some (.bperm c (gAt w 7) (gAt w 12) (gAt w 17) (gAt w 22))
  | 3 => whenZero w [(22, 5)] (.bfinsr c (gAt w 7) (gAt w 12) (gAt w 17))
  | 4 => whenZero w [(22, 5)] (.bfextr c (gAt w 7) (gAt w 12) (gAt w 17))
  | 5 => whenZero w [(22, 5)] (.bfextsr c (gAt w 7) (gAt w 12) (gAt w 17))
  | _ => none

/-- Format RI: imm12 [31:20], fn [19:17], rs1 [16:12], rd [11:7]. -/
def decodeImm (c : CoreId) (w : BitVec 64) : Option Instr :=
  (immForms[(fieldAt w 17 3).toNat]?).map fun mk => mk c (gAt w 7) (gAt w 12) (fieldAt w 20 12)

/-- Format BF: fn [31:30], len [29:24], pos [23:18], sx [17], rs1 [16:12], rd [11:7]. -/
def decodeField (c : CoreId) (w : BitVec 64) : Option Instr :=
  match (fieldAt w 30 2).toNat, (fieldAt w 17 1).toNat with
  | 0, 0 => some (.bfext c (gAt w 7) (gAt w 12) (fieldAt w 18 6) (fieldAt w 24 6))
  | 0, _ => some (.bfexts c (gAt w 7) (gAt w 12) (fieldAt w 18 6) (fieldAt w 24 6))
  | 1, 0 => some (.bfins c (gAt w 7) (gAt w 12) (fieldAt w 18 6) (fieldAt w 24 6))
  | _, _ => none

/-- Format B: off12 [31:20], cond [19:17], rs2 [16:12], rs1 [11:7]. -/
def decodeBranch (c : CoreId) (w : BitVec 64) : Option Instr :=
  (branchForms[(fieldAt w 17 3).toNat]?).map fun mk => mk c (gAt w 7) (gAt w 12) (fieldAt w 20 12)

/-- Format C: fn [31:23], ctl [22:17], rs1 [16:12], rd [11:7]. -/
def decodeControl (c : CoreId) (w : BitVec 64) : Option Instr :=
  match (fieldAt w 23 9).toNat with
  | 0 => whenZero w [(12, 5)] (.mfc c (gAt w 7) (fieldAt w 17 6))
  | 1 => whenZero w [(7, 5)] (.mtc c (fieldAt w 17 6) (gAt w 12))
  | 2 => whenZero w [(7, 16)] (.endloop c)
  | 3 => whenZero w [(7, 16)] (.fence c)
  | _ => none

/-- Format IO: fn [31:26], rs2 [25:21], rs1 [20:16], kc [15:12], rd [11:7]. -/
def decodeIo (c : CoreId) (w : BitVec 64) : Option Instr :=
  match (fieldAt w 26 6).toNat with
  | 0 => whenZero w [(21, 5)] (.ioIn c (gAt w 7) (kAt w 12) (.reg (gAt w 16)))
  | 1 => whenZero w [(7, 5)] (.ioOut c (kAt w 12) (.reg (gAt w 16)) (gAt w 21))
  | _ => none

/-- Format LI: imm32 [63:32], fn [31:21], kc [20:17], rs1 [16:12], rd [11:7]. -/
def decodeLong (c : CoreId) (w : BitVec 64) : Option Instr :=
  match (fieldAt w 21 11).toNat with
  | 0 => whenZero w [(12, 9)] (.li c (gAt w 7) (fieldAt w 32 32))
  | 1 => whenZero w [(12, 9)] (.lih c (gAt w 7) (fieldAt w 32 32))
  | 2 => whenZero w [(12, 5)] (.ioIn c (gAt w 7) (kAt w 17) (.imm (fieldAt w 32 32)))
  | 3 => whenZero w [(7, 5)] (.ioOut c (kAt w 17) (.imm (fieldAt w 32 32)) (gAt w 12))
  | _ => none

/-- Format BR: size [31:30], kb [29:26], ka [25:22], gc [21:17], gb [16:12], ga [11:7]; `op` is the opcode. -/
def decodeBlock (c : CoreId) (w : BitVec 64) (op : Nat) : Option Instr :=
  let size := fieldAt w 30 2
  let ga := gAt w 7
  let gb := gAt w 12
  let gc := gAt w 17
  let ka := kAt w 22
  let kb := kAt w 26
  match op with
  | 0x25 => some (.rmov c size ga gb gc ka kb none)
  | 0x29 => whenZero w [(26, 4)] (.rfill c size ga gb gc ka none)
  | 0x2D => some (.rcmp c size ga gb gc ka kb none)
  | 0x31 => whenZero w [(26, 4)] (.rscan c size ga gb gc ka none)
  | 0x35 => whenZero w [(30, 2)] (.iload c ga gb gc ka kb none)
  | 0x37 => whenZero w [(12, 5), (26, 6)] (.iflush c ga gc ka none)
  | 0x39 => whenZero w [(12, 5), (26, 6)] (.dcclean c ga gc ka none)
  | 0x3B => whenZero w [(12, 5), (26, 6)] (.dcinval c ga gc ka none)
  | _ => none

/-! ### Capability and shadow-bank instructions (R98, R103) -/

/-- kd, ks1, g. -/
def capMoveForms : List (CoreId → KReg → KReg → GReg → Instr) := [.kstep, .kpoint, .knarrow, .knarrowx, .kperm]

/-- Format CK: fn [31:25], g [24:20], ks2 [19:16], ks1 [15:12], d [11:7]. -/
def decodeCap (c : CoreId) (w : BitVec 64) : Option Instr :=
  let kd := kAt w 7
  let gd := gAt w 7
  let ks1 := kAt w 12
  let ks2 := kAt w 16
  let g := gAt w 20
  let n := fieldAt w 20 5
  match (fieldAt w 25 7).toNat with
  | 0x00 => whenZero w [(11, 1), (16, 9)] (.kmov c kd ks1)
  | 0x01 => whenZero w [(16, 4)] (.kread c gd ks1 n)
  | 0x07 => whenZero w [(11, 1), (20, 5)] (.klock c kd ks1 ks2)
  | 0x08 => whenZero w [(11, 1), (20, 5)] (.kunlock c kd ks1 ks2)
  | 0x09 => whenZero w [(20, 5)] (.kwithin c gd ks1 ks2)
  | 0x0A => whenZero w [(11, 1), (16, 9)] (.kstrip c kd ks1)
  | 0x0B => whenZero w [(11, 1), (16, 4)] (.kgo c kd ks1 g)
  | 0x0C => whenZero w [(11, 9)] (.kpc c kd g)
  | 0x0D => whenZero w [(11, 9)] (.kmfc c kd n)
  | 0x0E => whenZero w [(7, 5), (16, 4)] (.kmtc c n ks1)
  | 0x10 => whenZero w [(7, 5), (16, 9)] (.shsave c ks1)
  | 0x11 => whenZero w [(7, 5), (16, 9)] (.shload c ks1)
  | 0x12 => whenZero w [(12, 8)] (.mfsg c gd n)
  | 0x13 => whenZero w [(7, 5), (17, 3)] (.mtsg c (fieldAt w 12 5) g)
  | 0x14 => whenZero w [(11, 9)] (.mfsk c kd n)
  | 0x15 => whenZero w [(7, 5), (16, 4)] (.mtsk c n ks1)
  | 0x16 => whenZero w [(12, 13)] (.mfss c gd)
  | 0x17 => whenZero w [(7, 13)] (.mtss c g)
  | 0x18 => whenZero w [(7, 13)] (.xadv c n)
  | 0x1C => whenZero w [(7, 18)] (.xret c)
  | 0x1D => whenZero w [(7, 18)] (.ecall c)
  | 0x1E => whenZero w [(7, 18)] (.brk c)
  | fn => if 2 ≤ fn then (capMoveForms[fn - 2]?).bind fun mk => whenZero w [(11, 1), (16, 4)] (mk c kd ks1 g) else none

/-! ### Long-vector and Bramble instructions (R121, R122, R132, R198, R199, R211) -/

def vrFields (w : BitVec 64) : VrFields :=
  { cfg := fieldAt w 56 8, rm := fieldAt w 42 3, grp := fieldAt w 40 2, zm := w.getLsbD 39, me := w.getLsbD 38,
    ms := maskAt w 35, sfmt := fieldAt w 31 4, fmt := fieldAt w 27 4, vs3 := gAt w 22, vs2 := gAt w 17, vs1 := gAt w 12,
    vd := gAt w 7 }

def vmFields (w : BitVec 64) : VmFields :=
  { off16 := fieldAt w 48 16, iw := w.getLsbD 41, nf := fieldAt w 39 2, grp := fieldAt w 35 2, zm := w.getLsbD 34,
    me := w.getLsbD 33, ms := maskAt w 30, fmt := fieldAt w 26 4, vi := gAt w 21, gs := gAt w 16, kb := kAt w 12, v := gAt w 7 }

/-- Mask operations and permutations by fn. -/
def vrForms : List (Nat × (CoreId → VrFields → Instr)) :=
  [(0x400, .vmv), (0x401, .vbcast), (0x402, .vperm), (0x403, .vslideup), (0x404, .vslidedown), (0x405, .vcompress),
   (0x406, .vexpand), (0x408, .vext), (0x409, .vins),
   (0x500, .mand), (0x501, .mor), (0x502, .mxor), (0x503, .mandn), (0x504, .mnot), (0x505, .mset),
   (0x508, .mpopc), (0x509, .mfirst), (0x50C, .mtov), (0x50D, .vtom), (0x5F0, .vsetvl)]

/-- Opcode 0x50. fn below 0x400 is a chain configuration: op [54:50], func [49:47], red [46:45]. -/
def decodeVr (c : CoreId) (w : BitVec 64) : Option Instr :=
  let f := vrFields w
  let fn := (fieldAt w 45 11).toNat
  if 0x400 ≤ fn then (vrForms.find? fun e => e.1 == fn).map fun e => e.2 c f
  else
    let func := fieldAt w 47 3
    let red := fieldAt w 45 2
    let op := (fieldAt w 50 5).toNat
    if op ≤ 0x15 then some (.vc c (fieldAt w 50 5) func red f)
    else if 0x18 ≤ op ∧ op ≤ 0x1B then some (.vcCompare c (fieldAt w 50 2) func red f)
    else if op = 0x1C then some (.vcDrop c func red f)
    else if op = 0x1D then some (.vcRandu c func red f)
    else if op = 0x1E then some (.vcRandb c func red f)
    else none

/-- Opcodes 0x51 (loads) and 0x52 (stores) by mode. -/
def decodeVm (c : CoreId) (w : BitVec 64) (store : Bool) : Option Instr :=
  let f := vmFields w
  whenZero w [(42, 6)] <|
    match store, (fieldAt w 37 2).toNat with
    | false, 0 => .vld c f none
    | false, 1 => .vlds c f none
    | false, 2 => .vldx c f none
    | false, _ => .vlseg c f none
    | true, 0 => .vst c f none
    | true, 1 => .vsts c f none
    | true, 2 => .vstx c f none
    | true, _ => .vsseg c f none

def tdFields (w : BitVec 64) : TdFields :=
  { cfg := fieldAt w 56 8, rm := fieldAt w 42 3, gs := gAt w 21, gp := gAt w 16, kd := kAt w 12 }

/-- Opcodes 0x58 and 0x59. -/
def decodeTd (c : CoreId) (w : BitVec 64) (fixed : Bool) : Option Instr :=
  let f := tdFields w
  let fn := (fieldAt w 45 11).toNat
  if !reservedZero w [(7, 5), (26, 16)] then none
  else if fixed then
    match fn with
    | 0 => some (.txStats c f none)
    | 1 => some (.txOptim c f none)
    | 2 => some (.txSlice c f none)
    | 3 => some (.txDwround c f none)
    | _ => none
  else if fn < 0x400 then some (.tc c (fieldAt w 50 5) (fieldAt w 47 3) (fieldAt w 45 2) f none)
  else none

/-! ### Tile and stream instructions (R170, R230) -/

def slotAt (w : BitVec 64) : Fin 16 := Fin.ofNat 16 (fieldAt w 7 4).toNat

/-- Opcodes 0x60 to 0x66. -/
def decodeTile (c : CoreId) (w : BitVec 64) (op : Nat) : Option Instr :=
  match op with
  | 0x60 => whenZero w [(38, 26)]
      (.qstat c (gAt w 33) (w.getLsbD 32) (fieldAt w 22 10) (fieldAt w 12 10) (fieldAt w 7 5))
  | 0x61 => whenZero w [(61, 3)]
      (.qmma c (gAt w 55) (w.getLsbD 60) (w.getLsbD 54) (w.getLsbD 53) (w.getLsbD 52) (fieldAt w 47 5)
        (fieldAt w 42 5) (fieldAt w 32 10) (fieldAt w 22 10) (fieldAt w 11 11) (slotAt w))
  | 0x62 => whenZero w [(58, 6)]
      (.qdrain c (fieldAt w 50 8) (w.getLsbD 49) (gAt w 44) (gAt w 39) (fieldAt w 36 3) (fieldAt w 32 4)
        (fieldAt w 22 10) (fieldAt w 11 11) (slotAt w))
  | 0x63 => whenZero w [(60, 4)]
      (.tld c (fieldAt w 44 16) (gAt w 39) (gAt w 34) (fieldAt w 22 12) (fieldAt w 11 11) (kAt w 7))
  | 0x64 => whenZero w [(17, 47)] (.accpeek c (gAt w 12) (gAt w 7))
  | 0x65 => whenZero w [(11, 53)] (.accsave c (kAt w 7) none)
  | 0x66 => whenZero w [(11, 53)] (.accrestore c (kAt w 7) none)
  | _ => none

/-- Format SD: fn [63:61], w [36:35], fm [34:32], mask [31:26], g [25:21], kb [20:17], kd [16:13], e [12:10]. -/
def decodeStream (c : CoreId) (w : BitVec 64) : Option Instr :=
  match (fieldAt w 61 3).toNat with
  | 0 => whenZero w [(7, 3), (26, 35)] (.sopen c (fieldAt w 10 3) (kAt w 13) (kAt w 17) (gAt w 21))
  | 1 => whenZero w [(7, 19), (32, 29)] (.scancel c (fieldAt w 26 6))
  | 2 => whenZero w [(7, 3), (13, 8), (26, 35)] (.srestart c (fieldAt w 10 3) (gAt w 21))
  | 3 => whenZero w [(7, 25), (35, 26)] (.sfence c (fieldAt w 32 3))
  | 4 => whenZero w [(7, 3), (13, 8), (26, 9), (37, 24)] (.sstat c (gAt w 21) (fieldAt w 10 3) (fieldAt w 35 2))
  | _ => none

/-! ### Instructions -/

/-- The instruction that core c reads from w, its first word lowest; a 32-bit instruction is bits 31 to 0 (R57, R59). Memory and
long forms have no event waiting. -/
def decodeLanhibin (c : CoreId) (w : BitVec 64) : Option Instr :=
  let op := (fieldAt w 0 7).toNat
  match op with
  | 0x01 => decodeArith c w
  | 0x03 => some (.ld c (fieldAt w 16 3) (gAt w 7) (kAt w 12) (fieldAt w 19 13))
  | 0x07 => whenZero w [(11, 1), (16, 3)] (.lc c (kAt w 7) (kAt w 12) (fieldAt w 19 13))
  | 0x09 => decodeBits c w
  | 0x11 => decodeImm c w
  | 0x13 => whenZero w [(17, 3)] (.jalr c (gAt w 7) (gAt w 12) (fieldAt w 20 12))
  | 0x15 => decodeField c w
  | 0x19 => decodeBranch c w
  | 0x1B => some (.jal c (gAt w 7) (fieldAt w 12 20))
  | 0x1D => some (.loop c (w.getLsbD 12) (gAt w 7) (fieldAt w 13 10) (fieldAt w 23 9))
  | 0x1F => decodeControl c w
  | 0x21 => decodeIo c w
  | 0x23 => some (.st c (fieldAt w 16 3) (gAt w 7) (kAt w 12) (fieldAt w 19 13))
  | 0x27 => whenZero w [(11, 1), (16, 3)] (.sc c (kAt w 7) (kAt w 12) (fieldAt w 19 13))
  | 0x2B => decodeCap c w
  | 0x40 => decodeLong c w
  | 0x50 => decodeVr c w
  | 0x51 => decodeVm c w false
  | 0x52 => decodeVm c w true
  | 0x58 => decodeTd c w false
  | 0x59 => decodeTd c w true
  | 0x68 => decodeStream c w
  | op => if op < 0x40 then decodeBlock c w op else decodeTile c w op

/-- The command that a word of 32 or 64 bits spells, sent to core 0 (log entry 21). -/
def decodeTableWord (nbits w : Nat) : Option Instr :=
  let len := if (fieldAt (BitVec.ofNat 64 w) 0 7).toNat < 0x40 then 32 else 64
  if nbits = len then decodeLanhibin 0 (BitVec.ofNat 64 w) else none

end Sys2Proof
end

