-- ==== Sys2Proof/Config.lean ====
section
/-!
DEFINITION. What one device fixes and what the spec leaves open: each is a constant without a body, so
no proof can see its value and a claim holds whatever it is. The log entries say which is which.
-/
namespace Sys2Proof.Config

/-- The free values: value n of the sequence that the State's free counter walks (log entry 5). -/
opaque freeValue : Nat → BitVec 64

/-- The grade's nominal arithmetic clock in units of 25 MHz: R1 sells 1.6 GHz and 1.8 GHz parts. -/
opaque isGrade18 : Bool

/-- The fused value of option words 0 to 127, whose layout R409 does not give, and of the MAC words. -/
opaque fusedWord : Nat → BitVec 32

/-- The fuse-only option word that holds the fused maximum of the physical core (die × 17 + local index), and the one that
holds the ordering code (R409, R436): which ones is open (log entry 11). -/
opaque fuseWordOf : Nat → Fin 127
opaque gradeWord : Fin 127

/-- How many steps of 25 MHz below 2.0 GHz the fused maximum of a physical core lies, by the word that holds it (R1, R436). -/
opaque fuseBelow : Nat → BitVec 32 → Fin 17

/-- Fused maximum frequency in MHz of a physical core: at most 2.0 GHz, in steps of 25 MHz (R1), and not below the grade's
nominal clock (R436). -/
def fuseMax (core : Nat) (word : BitVec 32) : BitVec 16 :=
  BitVec.ofNat 16 (2000 - 25 * min (fuseBelow core word).val (if isGrade18 then 8 else 16))

/-- Rowan's ROM values of the fuse-only words 0 to 126, whose bits R493 does not give (log entry 11). -/
opaque romFuseOnly : Nat → BitVec 32

/-- Steps of 1 mV above 0.55 V that the fused table of a die's fastest core asks of its VCORE rail at a frequency (R435, R475). -/
opaque railStep : Nat → Nat → Fin 301

/-- The voltage in mV that die d's rail needs at f MHz: VCORE lies from 0.55 V to 0.85 V (R475). -/
def railMv (d f : Nat) : Nat := 550 + (railStep d f).val

/-- Silicon stepping, 0x0 for A0 (R486). -/
opaque stepping : BitVec 4

/-- The four forms a shift register of one polynomial has: the new bit formed from the taps or the taps changed by the bit
that leaves, shifting right or left. -/
inductive LfsrForm where
  | fibonacciRight
  | fibonacciLeft
  | galoisRight
  | galoisLeft
  deriving DecidableEq, Repr, Inhabited

/-- The form of the replacement generator: R85 names its polynomial and not its form (log entry 19). -/
opaque rplForm : LfsrForm

/-- The set of an L2 slice that a line falls in: R252 gives the ways and the size of a slice and not this function. -/
opaque l2Set : Nat → Fin 1024

/-- Check bits of an ECC word over its data and tags (R259): a SECDED code whose matrix the rule does not give. -/
opaque eccCheck : BitVec 258 → BitVec 10

/-- The DSCP that matches a PCP (R346): which one does is open (log entry 120). -/
opaque dscpOf : BitVec 3 → BitVec 6

/-- ICRC of a RoCEv2 packet, which the InfiniBand specification defines over its fields (given as numbers) and payload (R354). -/
opaque icrc : List Nat → List Byte → BitVec 32

/-- Priority of the device's ARP and ICMP answers (R320): which one they have is open (log entry 120). -/
opaque answerPrio : BitVec 3

/-- The training limit of an eye margin in ps, below which MARGIN_LOW is written (R270). -/
opaque eyeLimit : Nat

/-- Function stage (R204): which number beside the nearest one the table and polynomial give, 2 for the nearest itself; wide, function
code, input bits. It counts only where the stated error allows it (log entry 10). -/
opaque fnStep : Bool → BitVec 3 → BitVec 64 → Fin 5

/-- SHA-512 (FIPS 180-4), which the spec names and does not define. -/
opaque sha512 : List Byte → BitVec 512

/-- ECDSA verification on P-521 of a digest: public key, digest, r, s (R412, R461). -/
opaque ecdsaVerify : List Byte → BitVec 512 → BitVec 528 → BitVec 528 → Bool

/-- ECDSA signature by a private key of a digest, with the free value that seeds its nonce (R425). -/
opaque ecdsaSign : BitVec 528 → BitVec 512 → BitVec 64 → BitVec 528 × BitVec 528

/-- HMAC-SHA-512 of a message under a 64-byte key (R463). -/
opaque hmac512 : BitVec 512 → List Byte → BitVec 512

/-- HKDF-SHA-512: salt, input keying material, info "d2c" (true) or "c2d" (false) (R461). -/
opaque hkdf512 : BitVec 512 → BitVec 528 → Bool → BitVec 512

/-- The device's ephemeral public point of a handshake, from a free value (R461). -/
opaque ephemeralPoint : BitVec 64 → List Byte

/-- x-coordinate of the ECDH product: the device's ephemeral secret (by its free value) and the host's point. -/
opaque ecdhX : BitVec 64 → List Byte → BitVec 528

/-- The identity seed as it was fused (R407). -/
opaque fusedSeed : BitVec 256

/-- The P-521 private key that HMAC-DRBG with SHA-512 derives from a seed (FIPS 186-5; R422). -/
opaque deriveKey : BitVec 256 → BitVec 528

/-- The public point of a private key. -/
opaque publicPoint : BitVec 528 → List Byte

/-- The identity certificate written at manufacture, and the subject public key it carries (R423). -/
opaque identityCert : List Byte

/-- What the ROM hashes into M1 beside the digest of option words 0 to 127: R421 names lifecycle, rollback counter,
key state, slot used and debug-lock word and not their layout. -/
opaque bootFacts : BitVec 2 → Nat → BitVec 8 → Nat → BitVec 32 → BitVec 512 → List Byte

/-- The bytes by which option words are hashed, a layout R421 does not give. -/
opaque optionBytes : List (BitVec 32) → List Byte

/-- Subject public key of the identity certificate (R423). -/
opaque certPub : List Byte


end Sys2Proof.Config
end

