-- ==== Sys2Proof/Machine/State.lean ====
section
/-!
DEFINITION. The state of the DQX-6400 as plain data: every register, buffer, queue, counter, mode and
ball the spec gives the device, and the queue of commands that wait; the reset value of each; the
reasons a step can stop.
-/
namespace Sys2Proof.Machine

/-- Why a step stops with a fault. No command of this model stops with a fault: every event the spec
names is a next state. The one constructor is kept for a run outside the device's address space that
no command can reach; nobody raises it (safe). -/
inductive Fault where
  /-- Raised by nobody: every access the spec forbids has a cause, a status or a record of its own. Safe. -/
  | noSuchState
  deriving DecidableEq, Repr

/-- Why a step is refused. -/
inductive Refusal where
  /-- The command has no meaning in this model yet; raised only by an arm of exec (safe). -/
  | notModelled (mnemonic : String)
  deriving DecidableEq, Repr

/-! ### Capabilities, status, exceptions -/

/-- A capability register: 128 bits and the tag (R87). -/
structure Cap where
  bits : BitVec 128
  tag : Bool
  deriving DecidableEq, Repr

/-- The status register's four fields (R107). -/
structure Status where
  ie : Bool
  lm : Bool
  sb : Bool
  ss : Bool
  deriving DecidableEq, Repr

/-- The shadow bank (R101, R103); entry 0 of g stands for g0 and is never read. -/
structure Shadow where
  g : Vector Word 32
  k : Vector Cap 16
  pcc : Cap
  status : Status
  deriving DecidableEq, Repr

/-- Control registers of one core (R56, R51, R78, R119). -/
structure Control where
  status : Status
  xcause : BitVec 16
  xaddr : Word
  vresume : BitVec 15
  trestart : BitVec 11
  fmtSat : Bool
  fmtDnan : Bool
  rm : BitVec 3
  tid : BitVec 32
  fflags : BitVec 6
  rngctr : Word
  vl : BitVec 15
  oor : Bool
  lc0 : Word
  ls0 : Word
  le0 : Word
  lc1 : Word
  ls1 : Word
  le1 : Word
  iostat : BitVec 4
  rplfsr : BitVec 16
  cycle : Word
  /-- Quarters of a cycle not yet counted: f_now is a multiple of 25 MHz, a tick is 10 ns. -/
  cycleFrac : BitVec 2
  instret : Word
  deriving DecidableEq, Repr

/-! ### Caches -/

/-- A 128-byte line: its bytes, the tags of its eight granules, the poison marks of its four ECC
words, which bytes stores have written since the line was filled (R93, R262), and which bytes a write
that does not see the caches has reached at the home since (R254, R272). -/
structure Line where
  bytes : Vector Byte 128
  tags : Vector Bool 8
  poison : Vector Bool 4
  written : Vector Bool 128
  clobbered : Vector Bool 128
  deriving DecidableEq, Repr

/-- A line held in the L1 data cache (with its way) or the victim cache. -/
structure CacheLine where
  /-- Line number: the address divided by 128. -/
  addr : Nat
  way : Fin 4
  dirty : Bool
  line : Line
  deriving DecidableEq, Repr

/-- A line of instruction space as the L1 instruction cache holds it: its number and its bytes (R70, R86). -/
structure InstLine where
  addr : Nat
  bytes : Vector Byte 128
  deriving DecidableEq, Repr

/-- The scalar caches of one core (R85, R86). -/
structure Caches where
  l1 : List CacheLine
  /-- Oldest first, at most 16. -/
  victim : List CacheLine
  /-- The one outstanding miss, with its line as it was fetched and stored into since. -/
  miss : Option CacheLine
  /-- Lines of instruction space the L1 instruction cache holds, as they were fetched. -/
  icache : List InstLine
  deriving DecidableEq, Repr

/-! ### Tiles and Quince -/

/-- Mode of an accumulator slot (R166). -/
inductive SlotMode where
  | none
  | float
  | integer
  deriving DecidableEq, Repr

/-- A tile operand word, decoded (R172). -/
structure Operand where
  tileArea : Bool
  engine : Fin 4
  unit : Nat
  sunit : Nat
  deriving DecidableEq, Repr

/-- The stationary operand in the cells (R135, R139, R146, R156). -/
structure Stationary where
  usable : Bool
  fmt : BitVec 5
  tsc : Bool
  k : Nat
  n : Nat
  src : Operand
  /-- Order number of the qstat that loaded it, whether a qmma has used it, and whether its rows are
  still held in the stream buffer (R145, R185). -/
  seq : Nat
  used : Bool
  held : Bool
  /-- Raw element of cell (k, n) at 512 k + n. -/
  cells : Sparse (BitVec 32)
  /-- E8M0 scale of block j, column n at 512 j + n. -/
  scales : Sparse Byte
  /-- Check row S_k. -/
  check : Sparse (BitVec 16)
  deriving DecidableEq, Repr

/-- The fields of a qstat that its rows carry. -/
structure Qstat where
  seq : Nat
  tsc : Bool
  tfmt : BitVec 5
  n : Nat
  k : Nat
  src : Operand
  deriving DecidableEq, Repr

/-- The fields of a qmma that its rows carry. -/
structure Qmma where
  seq : Nat
  tsc : Bool
  ssc : Bool
  neg : Bool
  start : Bool
  tfmt : BitVec 5
  sfmt : BitVec 5
  n : Nat
  k : Nat
  m : Nat
  slot : Nat
  src : Operand
  /-- Address of the instruction, for the records of R164. -/
  pc : Word
  deriving DecidableEq, Repr

/-- A tld in progress (R182). -/
structure TldJob where
  base : Word
  pitch : Word
  unit : Nat
  len : Nat
  m : Nat
  kb : KReg
  cap : Cap
  deriving DecidableEq, Repr

/-- The tile instruction that has issued and not reached its boundary (R175, R176, R184). -/
inductive TileOp where
  | qstat (q : Qstat)
  | qmma (q : Qmma)
  | tld (j : TldJob)
  deriving DecidableEq, Repr

/-- A streaming row in the array (R138, R159). -/
structure ArrayRow where
  m : Nat
  op : Qmma
  /-- Record of the engine that carried the row, where one did. -/
  record : Option Nat
  bytes : List Byte
  /-- Column sums 0 to N − 1: accumulator words in float mode, exact 48-bit sums in integer mode. -/
  sums : List (BitVec 48)
  pass : Nat
  checked : Bool
  /-- What the first pass failed with. -/
  first : Option CheckError
  /-- The armed injection flipped a product of this row, at stationary row and column; again on the
  second pass where `again`. -/
  flip : Option (BitVec 9 × BitVec 9)
  again : Bool
  deriving DecidableEq, Repr

/-- Retry under R159: the rows that must stream again, the failing one first. -/
structure Retry where
  rows : List ArrayRow
  reloaded : Bool
  deriving DecidableEq, Repr

/-- Where a drain delivers (R187). -/
inductive DrainDest where
  | vector (v : Nat)
  | tileBuffer (byte : Nat)
  | store (engine : Fin 2)
  /-- The store stream was cancelled: what still comes is discarded (R241). -/
  | dropped (engine : Fin 2)
  | recombine (wexp : BitVec 16) (init : Bool) (tileArea : Bool) (unit : Nat)
  deriving DecidableEq, Repr

/-- A drain in progress (R186, R221): what it took at issue, and how many slots it has read. -/
structure Drain where
  seq : Nat
  cfg : BitVec 8
  st : Bool
  rm : BitVec 3
  fmt : BitVec 4
  n : Nat
  m : Nat
  slot : Nat
  done : Nat
  started : Bool
  paused : Bool
  /-- Rows of the slot in hand that its destination has taken. -/
  row : Nat
  /-- The drain operand word (R222). -/
  operand : Word
  dest : DrainDest
  mode : SlotMode
  fmtSat : Bool
  fmtDnan : Bool
  key : BitVec 128
  step : BitVec 32
  tid : BitVec 32
  rngctr : Word
  deriving DecidableEq, Repr

/-- The Quince counters of one core (R162). -/
structure QCounters where
  rows : Word
  first : BitVec 32
  residue : BitVec 32
  retried : BitVec 32
  valid : Word
  invalid : Word
  stall : Word
  hold : Word
  deriving DecidableEq, Repr

/-- Tile, Quince, accumulator and tile-buffer state of one core. -/
structure Tiles where
  op : Option TileOp
  /-- Order number of the next qstat, qmma or qdrain. -/
  seq : Nat
  stat : Stationary
  /-- The operand before the qstat in progress, for a retry (R160). -/
  prev : Option Stationary
  /-- Address of an accsave or accrestore that waits for tags (R247). -/
  waitsAt : Option Word
  /-- An accrestore has completed since a qstat last issued at row 0 (R146, R179). -/
  restored : Bool
  /-- Rows in the array, oldest first. -/
  rows : List ArrayRow
  retry : Option Retry
  /-- The array holds (R148). -/
  hold : Bool
  /-- Drains in issue order. -/
  drains : List Drain
  modes : Vector SlotMode 16
  /-- Accumulator word of entry e, column n at 512 e + n. -/
  acc : Sparse (BitVec 48)
  /-- The 4 MiB stream buffer, by byte. -/
  buf : Sparse Byte
  tblocks : BitVec 9
  /-- The 1 MiB tile-buffer space, by byte. -/
  tb : Sparse Byte
  qc : QCounters
  deriving DecidableEq, Repr

/-! ### Streams -/

/-- A stream descriptor (R231). -/
structure StreamDesc where
  rlen : Nat
  e1 : Nat
  e2 : Nat
  e3 : Nat
  e4 : Nat
  s1 : Word
  s2 : Word
  s3 : Word
  s4 : Word
  base : Word
  slen : Nat
  sp : Nat
  pk : Bool
  cls : Bool
  wbase : Nat
  wsize : Nat
  dlim : Nat
  sbase : Word
  ss1 : Word
  ss2 : Word
  ss3 : Word
  ss4 : Word
  deriving DecidableEq, Repr

/-- A deferred-fault token (R237). -/
structure Token where
  code : BitVec 6
  addr : Word
  creg : BitVec 4
  raised : Bool
  deriving DecidableEq, Repr

/-- A record in its window: bytes requested and not arrived, its consumer's order number, released. -/
structure StreamRec where
  idx : Nat
  data : List Byte
  scale : List Byte
  /-- Bytes of data and scale still to be requested, and requested and still to arrive. -/
  toAsk : Nat
  toCome : Nat
  token : Option Token
  taken : Option Nat
  released : Bool
  /-- Bytes of data before the stream's starting position, which are not moved, and bytes up to which a consumer has released
  them. -/
  skip : Nat
  rel : Nat
  deriving DecidableEq, Repr

/-- Part of a record that one request covers. -/
structure ReqPiece where
  idx : Nat
  isScale : Bool
  off : Nat
  addr : Nat
  len : Nat
  deriving DecidableEq, Repr

/-- A request in flight: one tag, one block, one bank group (R236, R247, R248). -/
structure StreamReq where
  pieces : List ReqPiece
  bank : Option Nat
  /-- Stack whose request queue it enters; none for hub buffers (R364). -/
  stk : Option StackId
  /-- Its data is discarded when it arrives (R240, R241). -/
  dead : Bool
  deriving DecidableEq, Repr

/-- State of a stream engine (R250). -/
inductive EngineState where
  | idle
  | active
  | cancelling
  | restarting
  deriving DecidableEq, Repr

/-- The eight stream counters of R251. -/
structure StreamCounters where
  consumed : Word
  discarded : Word
  late : Word
  unissued : Word
  windowFull : Word
  limited : Word
  tokRaised : BitVec 32
  tokDiscarded : BitVec 32
  depth : Vector (BitVec 32) 8
  deriving DecidableEq, Repr

/-- One stream engine (R228 to R250). -/
structure Engine where
  st : EngineState
  desc : StreamDesc
  kb : Cap
  kbNum : BitVec 4
  /-- kb.cursor at sopen, from which the records are placed (R232). -/
  origin : Word
  /-- Address of the descriptor, kd.cursor at sopen (R233, R240). -/
  descAt : Word
  /-- Next record to request (load) or to cut (store). -/
  next : Nat
  /-- Position of the next byte to be delivered to, or accepted from, the other side. -/
  pos : Nat
  recs : List StreamRec
  reqs : List StreamReq
  /-- Store streams: bytes accepted and not yet cut into a record, and scale bytes likewise. -/
  partData : List Byte
  partScale : List Byte
  /-- Store streams: bytes a producer holds while the window is full; it stalls until they are accepted (R244). -/
  queue : List Byte
  /-- Packed streams: the position whose byte lies at the start of a unit, from which units are counted (R234). -/
  ringAt : Nat
  /-- Position at which a restart resumes. -/
  resume : Nat
  /-- Store streams: a write was discarded by a fenced stack, and so are the records after it (R278). -/
  lost : Bool
  cnt : StreamCounters
  deriving DecidableEq, Repr

/-- What a core's stream side waits for. -/
inductive StreamWait where
  | none
  | cancel
  | restart (e : Fin 4)
  deriving DecidableEq, Repr

/-- A stream fence that has issued and not completed: the data position and the scale bytes each named store engine must
reach. -/
structure StreamFence where
  pos4 : Nat
  scale4 : Nat
  pos5 : Nat
  scale5 : Nat
  deriving DecidableEq, Repr

/-- Stream engines and fences of one core. -/
structure Streams where
  eng : Vector Engine 6
  wait : StreamWait
  /-- Oldest first. -/
  fence : List StreamFence
  deriving DecidableEq, Repr

/-! ### One core -/

/-- Vector registers by byte (2,048 r + lane) and masks by bit (16,384 n + lane) (R112). -/
structure Vectors where
  v : Sparse Byte
  m : Sparse Bool
  deriving DecidableEq, Repr

/-- Condition of a core: core_state and the holds behind its value 1 (R397, R416, R431). -/
inductive CoreCond where
  | held
  | running
  | resetting
  | fenced
  | absent
  deriving DecidableEq, Repr

/-- Pending notices of one core (R107, R371, R370, R443). -/
structure Notices where
  error : Bool
  watchdog : Bool
  power : Bool
  deriving DecidableEq, Repr

/-- The attestation window of a requester (R424). -/
structure AttWindow where
  extData : BitVec 512
  nonce : BitVec 512
  qState : BitVec 2
  qOut : List Byte
  deriving DecidableEq, Repr

/-- The per-core dictionary windows (R327, R343, R377, R424, R447, R398). -/
structure Windows where
  pqTail : BitVec 16
  pqSize : BitVec 16
  cqTail : BitVec 16
  cqHead : BitVec 16
  cqIrq : BitVec 16
  ltBase : Word
  ltCount : BitVec 16
  /-- Descriptors the hub has accepted since the queue was sized, and completions written (full counts). -/
  accepted : Nat
  completed : Nat
  chSel : BitVec 12
  recSel : BitVec 32
  recSnap : Vector (BitVec 32) 8
  bootAddr : Word
  att : AttWindow
  descSel : BitVec 32
  deriving DecidableEq, Repr

/-- Frequency, thermal and criticality state of one core (R434 to R442). -/
structure CorePower where
  fSet : BitVec 16
  fNow : BitVec 16
  derate : BitVec 8
  fTherm : BitVec 16
  /-- Samples below t_throttle − 3 °C since the last rise of the ceiling. -/
  coolSamples : Nat
  temp : Int
  droopCnt : BitVec 32
  droop : Bool
  mark : Bool
  /-- Frequency of the rise abandoned last; 0: none (R476). -/
  noRise : BitVec 16
  deriving DecidableEq, Repr

/-- What a long-vector memory, tensor or fixed form took when it issued, kept until it completes, re-execution after an exception
included (R49, R83, R119, R212; log entry 129). -/
structure FormLatch where
  /-- Address of the instruction. -/
  pc : Word
  /-- An exception has been taken since; `xret` to the instruction wakes it. -/
  asleep : Bool
  /-- `xret` has returned to the instruction, which issues anew: it checks again what can have changed meanwhile (R215). -/
  again : Bool
  /-- Load engine whose data a tensor form waits for. -/
  waits : Option (Fin 4)
  fmtSat : Bool
  fmtDnan : Bool
  rm : BitVec 3
  tid : BitVec 32
  rngctr : Word
  vl : BitVec 15
  key : BitVec 128
  step : BitVec 32
  /-- The descriptor's bytes, of a tensor or fixed form. -/
  desc : List Byte
  deriving DecidableEq, Repr

/-- One core, by global number. -/
structure CoreState where
  g : Vector Word 32
  k : Vector Cap 16
  pcc : Cap
  xvcc : Cap
  xdcc : Cap
  ctl : Control
  shadow : Shadow
  cache : Caches
  vec : Vectors
  tile : Tiles
  str : Streams
  cond : CoreCond
  /-- Fenced for a fault of its own, so that the spare replaces it (R10). -/
  ownFault : Bool
  /-- Physical local index that holds the global number (R56). -/
  phys : BitVec 5
  notice : Notices
  /-- Ticks without progress, and whether WATCHDOG_WARN was raised since (R370). -/
  wdTicks : Nat
  wdWarned : Bool
  /-- Forms that have issued and not completed, with what they took at issue. -/
  forms : List FormLatch
  /-- Items held, in the order of the claims, with their queue (R372). -/
  items : List (Fin 5 × Word)
  win : Windows
  pow : CorePower
  deriving DecidableEq, Repr

/-! ### Memory and stacks -/

/-- An error of a stored word that no read has reached (R260); `lost`: a fenced stack discarded a write to it; `marked`: the
stack's word was marked poisoned, and recorded, while an L2 slice holds the line, so that the mark does not show yet (R254). -/
inductive Latent where
  | none
  | correctable
  | uncorrectable
  | lost
  | marked
  deriving DecidableEq, Repr

/-- A line that an L2 slice holds (R252, R253): a line of data space or of instruction space, and whether the stack's copy
is older (never for an instruction line). Its bytes, tags and marks are those of the home below; its directory entry is
read off the L1 caches (`State.presence`, `State.dirtyOwner`). -/
structure L2Line where
  inst : Bool
  addr : Nat
  dirty : Bool
  deriving DecidableEq, Repr

/-- Data space and instruction space as the homes hold them. -/
structure Mem where
  /-- Data-space bytes by address: stack DRAM, staging SRAM, hub buffers. -/
  data : List Host.Cell
  /-- Tag of the granule at 16 n. -/
  tags : Sparse Bool
  /-- The three poison copies of the ECC word at 32 n (R259). -/
  poison : Sparse (BitVec 3)
  latent : Sparse Latent
  /-- Instruction store by instruction-space address. -/
  istore : List Host.Cell
  ipoison : Sparse (BitVec 3)
  ilatent : Sparse Latent
  /-- Lines the L2 slices of the four dies hold, in the order in which they entered. -/
  l2 : List L2Line
  deriving DecidableEq, Repr

/-- Scatter-add source formats (R271). -/
inductive SaFmt where
  | fp32
  | fp16
  | bf16
  | g16
  deriving DecidableEq, Repr

/-- Elements of a WRITE_ACC packet on their way to a scatter-add engine (R273): elements lo to lo + cnt − 1
of the payload, added from target upward. -/
structure SaJob where
  target : Nat
  fmt : SaFmt
  bytes : List Byte
  pmap : BitVec 128
  lo : Nat
  cnt : Nat
  /-- Channel and sequence number of the packet. -/
  chan : Nat
  psn : BitVec 32
  deriving DecidableEq, Repr

/-- Engine ring command that has run and not ended: its status and irq flag (R277). -/
structure EngineEnd where
  status : Byte
  irq : Bool
  deriving DecidableEq, Repr

/-- A row copy of R265 in progress. -/
structure RowCopy where
  bank : Fin 1024
  row : Nat
  spare : Nat
  deriving DecidableEq, Repr

/-- Activation counters of one bank: row and count pairs, at most 256, and the spillover (R267). -/
structure ActTrack where
  rows : List (Nat × Nat)
  spill : Nat
  deriving DecidableEq, Repr

/-- Values of stk_state (R280). -/
inductive StkState where
  | training
  | trained
  | failed
  | ready
  | fenced
  | excluded
  deriving DecidableEq, Repr

/-- One memory stack. -/
structure Stack where
  st : StkState
  ce : Word
  ue : BitVec 32
  spared : BitVec 16
  trr : Word
  scrubPass : BitVec 32
  temp : Int
  saFlags : BitVec 6
  saElems : Word
  saPoison : BitVec 32
  fencedWr : Word
  margin : BitVec 32
  ringBase : BitVec 32
  ringSize : BitVec 16
  ringTail : BitVec 16
  ringHead : BitVec 16
  ringIrq : BitVec 16
  engEnd : Option EngineEnd
  saQueue : List SaJob
  /-- Local times at which words were poisoned in the last second, newest first (R278). -/
  poisonTimes : List Nat
  /-- Words of the patrol period already read: how many, and which (key: data rows, instruction rows, staging SRAM in turn);
  and words corrected per row (key 32,768 bank + row). -/
  scrubWords : Nat
  scrubSeen : Sparse Bool
  rowErrors : Sparse Nat
  /-- Spare map: key 32,768 bank + row to spare row; spares used per bank; banks reported out. -/
  spareMap : Sparse Nat
  spareUsed : Sparse Nat
  sparesOut : List Nat
  /-- Row copies of R265 that run or wait, oldest first. -/
  copies : List RowCopy
  act : Sparse ActTrack
  hot : Bool
  halved : Bool
  deriving DecidableEq, Repr

/-- Stack configuration of the device (R280). -/
structure StackCfg where
  ilvNext : BitVec 8
  scrubHours : BitVec 8
  actThr : BitVec 16
  ceThr : BitVec 8
  ilvActive : BitVec 8
  deriving DecidableEq, Repr

/-! ### Training support -/

/-- States of a snapshot buffer (R315). -/
inductive SnapState where
  | free
  | draining
  | failed
  | restoring
  | awaiting
  | restoreFailed
  deriving DecidableEq, Repr

/-- An entry of an extent table (R304). -/
structure Extent where
  src : Nat
  len : Nat
  typ : Byte
  etype : Byte
  ev : Bool
  deriving DecidableEq, Repr

/-- What a drain or restore has been told and sampled (R299, R301). -/
structure DrainJob where
  restore : Bool
  buf : Fin 2
  ship : Bool
  emode : Bool
  /-- The evaluation record is being sent (R303). -/
  evalPhase : Bool
  /-- 0: sections, 1: header posted, 2: valid word posted. -/
  phase : Fin 3
  extents : List Extent
  key : BitVec 128
  step : BitVec 32
  dataPos : Word
  sps : BitVec 32
  stepBase : BitVec 32
  tag : Word
  time : Nat
  /-- The record being sent, as read. -/
  record : List Byte
  deriving DecidableEq, Repr

/-- A checkpoint or evaluation target (R315). -/
structure SnapTarget where
  qp : BitVec 32
  va : Word
  rkey : BitVec 32
  deriving DecidableEq, Repr

/-- Random generator, data position, snapshot control (R50, R296, R315). -/
structure Training where
  keyLo : CPair 64
  keyHi : CPair 64
  step : CPair 32
  dataPos : CPair 64
  sps : CPair 32
  stepBase : CPair 32
  drainRate : BitVec 16
  snapIrq : BitVec 16
  evalHold : Vector Bool 2
  snapTag : Word
  extTable : Vector Word 2
  extCount : Vector (BitVec 16) 2
  ckpt : SnapTarget
  eval : SnapTarget
  shardIdx : CPair 32
  nShards : CPair 32
  snap : Vector SnapState 2
  done : Vector Bool 2
  restoreStatus : BitVec 8
  restoreSkew : BitVec 32
  snapBytes : Word
  job : Option DrainJob
  /-- Header step and key, and skew, of a restore into each buffer that awaits acceptance (R310). -/
  await : Vector (Option (BitVec 32 × BitVec 128 × BitVec 32)) 2
  deriving DecidableEq, Repr

/-! ### Fabric -/

/-- Sub-port states (R351). -/
inductive SubState where
  | absent
  | down
  | up
  | fenced
  deriving DecidableEq, Repr

/-- One sub-port (R318 to R321, R351). -/
structure SubPort where
  st : SubState
  link : Bool
  probesOk : Nat
  /-- A PROBE on it is not answered yet. -/
  probeOut : Bool
  mac : BitVec 48
  vid : BitVec 16
  pfcEn : BitVec 8
  ip4 : BitVec 32
  nhMac : BitVec 48
  /-- Priorities paused by a received PFC frame, and priorities for which XOFF stands. -/
  paused : BitVec 8
  xoff : BitVec 8
  txBytes : Word
  rxBytes : Word
  fcsErr : Word
  fecUncorr : Word
  pfcRx : Word
  pfcTx : Word
  ceRx : Word
  rxDrop : Word
  deriving DecidableEq, Repr

/-- One Ethernet port (R318). -/
structure Port where
  mode : BitVec 8
  pmd : BitVec 8
  fecThr : BitVec 32
  deriving DecidableEq, Repr

/-- Channel states (R343). -/
inductive ChanState where
  | closed
  | opening
  | opened
  | draining
  | gone
  deriving DecidableEq, Repr

/-- A posting descriptor (R331). -/
structure PostDesc where
  op : Byte
  irq : Bool
  chan : BitVec 16
  len : Nat
  raddr : Word
  laddr : Word
  lidx : Byte
  fmt : Byte
  wrid : BitVec 32
  token : BitVec 128
  opd1 : Word
  opd2 : Word
  /-- No reserved field holds a one. -/
  wellFormed : Bool
  deriving DecidableEq, Repr

/-- A posted operation that is outstanding on a channel or queue pair. -/
structure PostOp where
  /-- The core that posted it; none: the drain engine (R357). -/
  owner : Option CoreId
  desc : PostDesc
  /-- Packets (RoCEv2: the request) sent, and the sequence number of the first. -/
  sent : Nat
  base : BitVec 32
  /-- First packet that failed, with its status. -/
  fail : Option (Nat × Byte)
  poisoned : Bool
  /-- Old value of an atomic. -/
  result : Word
  /-- Status and result, once the operation has ended and waits for its turn. -/
  ended : Option (Byte × Word)
  /-- RoCEv2: the source bytes, kept until they are acknowledged (R333). -/
  kept : List Byte
  /-- READ: what has arrived, with its place and poison map; it is undefined at laddr until the completion (R333). -/
  got : List (Nat × List Byte × BitVec 128)
  deriving DecidableEq, Repr

/-- A unit of the shared pool: the port it is charged to, and whether it is of that port's reserve. -/
abbrev PoolUnit := Fin 8 × Bool

/-- A REQ sent and not yet released (R348, R349). -/
structure SentReq where
  psn : BitVec 32
  pkt : Packet
  /-- Sub-port of its last sending. -/
  sub : Fin 64
  unit : Option PoolUnit
  retries : Nat
  sentAt : Nat
  /-- A READ or atomic that is acknowledged and whose RESP is to come. -/
  acked : Bool
  /-- The receiver's map shows it held. -/
  sacked : Bool
  deriving DecidableEq, Repr

/-- A received REQ that is held: what its checks gave, and its unit (R347, R349). -/
structure HeldReq where
  pkt : Packet
  sub : Fin 64
  status : Byte
  unit : PoolUnit
  deriving DecidableEq, Repr

/-- One end of a channel (R343 to R350). -/
structure Channel where
  peer : BitVec 14
  credit : BitVec 10
  st : ChanState
  epoch : BitVec 32
  ownHalf : BitVec 16
  peerHalf : Option (BitVec 16)
  nextPsn : BitVec 32
  creditLimit : BitVec 32
  ops : List PostOp
  sent : List SentReq
  /-- Receiving side: E, packets held, the last atomic results, owed ACK state. -/
  expect : BitVec 32
  held : List HeldReq
  /-- Number, old value and status of the last 16 atomics; number and status of the packets not applied (R338, R341). -/
  atomics : List (BitVec 32 × Word × Byte)
  refused : List (BitVec 32 × Byte)
  sinceAck : Nat
  ceSeen : Bool
  /-- Status of an arriving operation that failed; its later packets are not applied (R338). -/
  failed : Option Byte
  deriving DecidableEq, Repr

/-- What the sender keeps per peer (R349, R350, R352). -/
structure Peer where
  window : Nat
  halvedAt : Option Nat
  ackCount : Nat
  healthy : BitVec 64
  /-- Local times from which its silence counts and of the last PROBE to it (R352). -/
  heard : Nat
  probedAt : Option Nat
  deriving DecidableEq, Repr

/-- A fabric table entry, every field with its complement (R340). -/
structure FabricEntry where
  tokLo : CPair 64
  tokHi : CPair 64
  base : CPair 64
  len : CPair 64
  ctl : CPair 2
  /-- Its damage has been recorded. -/
  noted : Bool
  deriving DecidableEq, Repr

/-- Queue pair states (R356). -/
inductive QpState where
  | reset
  | rts
  | error
  deriving DecidableEq, Repr

/-- A SEND or WRITE that a queue pair is receiving: where its next byte goes, and how many may still come (R354). -/
structure RoceRx where
  op : RoceOp
  next : Nat
  left : Nat
  deriving DecidableEq, Repr

/-- A queue pair (R354 to R357). -/
structure QueuePair where
  st : QpState
  rqpn : BitVec 24
  spsn : BitVec 24
  rpsn : BitVec 24
  cfg : BitVec 32
  rip : BitVec 128
  rmac : BitVec 48
  port : BitVec 8
  rqBase : Word
  rqSize : BitVec 16
  rqIrq : BitVec 16
  rqTail : BitVec 16
  rqHead : BitVec 16
  /-- Send rate in parts of 800 of the port rate's thousandth: 1,000 is the full rate (R354). -/
  rate : Nat
  retriesLeft : Nat
  rnrLeft : Nat
  rnrWait : Bool
  /-- Local time of the last CNP sent, and of the last one received or recovery from it (R354). -/
  cnpAt : Option Nat
  rateAt : Option Nat
  /-- Results of the last atomics served, for repeated requests. -/
  atomics : List (BitVec 24 × Word)
  ops : List PostOp
  /-- First number not acknowledged, and local time of the last sending or acknowledgement (R354). -/
  una : BitVec 24
  sentAt : Nat
  /-- The message whose packets are arriving. -/
  rx : Option RoceRx
  deriving DecidableEq, Repr

/-- The IP header of a packet the device sends (R322, R323, R346). -/
structure IpHead where
  v6 : Bool
  src : BitVec 128
  dst : BitVec 128
  dscp : BitVec 6
  /-- 2: ECT(0); 0: Not-ECT. -/
  ecn : BitVec 2
  hopLimit : BitVec 8
  /-- Don't Fragment of an IPv4 packet. -/
  df : Bool
  deriving DecidableEq, Repr

/-- The headers of a frame the device sends (R320, R346). -/
structure TxHead where
  /-- VID of its C-tag; none: untagged. -/
  vid : Option (BitVec 12)
  pcp : BitVec 3
  srcMac : BitVec 48
  dstMac : BitVec 48
  ip : Option IpHead
  deriving DecidableEq, Repr

/-- UDP ports and checksum, and the CRC-32C over Poldoal header and payload (R346). -/
structure UdpHead where
  srcPort : BitVec 16
  dstPort : BitVec 16
  checksum : BitVec 16
  crc : BitVec 32
  deriving DecidableEq, Repr

/-- The other end of a DAP exchange: the data sub-port its frames come on (none: the management port), the device's and the
host's address, the host's UDP port (R459, R468). -/
structure DapPeer where
  sub : Option (Fin 64)
  own : BitVec 128
  host : BitVec 128
  port : BitVec 16
  deriving DecidableEq, Repr

/-- What the device sends, for the model's outbox (log entry 6). -/
inductive TxItem where
  | poldoal (sub peerSub : Fin 64) (h : TxHead) (u : UdpHead) (p : Packet)
  | pfc (sub : Fin 64) (prio : Fin 8) (xoff : Bool)
  | neighbor (sub : Fin 64) (h : TxHead) (kind : NeighborKind) (target : BitVec 128)
  | roceRequest (sub : Fin 64) (h : TxHead) (rqpn : BitVec 24) (q : RoceReq) (icrc : BitVec 32)
  | roceAnswer (sub : Fin 64) (h : TxHead) (rqpn : BitVec 24) (psn : BitVec 24) (a : RoceAnswer) (icrc : BitVec 32)
  | cnp (sub : Fin 64) (h : TxHead) (rqpn : BitVec 24) (icrc : BitVec 32)
  | dap (p : DapPeer) (link : Option TxHead) (ip : IpHead) (srcPort : BitVec 16) (m : DapMsg)
  | mgmtIcmp (kind : NeighborKind) (target : BitVec 128)
  deriving DecidableEq, Repr

/-- A frame that may wait for its priority on its sub-port (R321); len: its bytes, none where they are open (log entry 31). -/
structure OutFrame where
  sub : Fin 64
  prio : BitVec 3
  len : Option Nat
  item : TxItem
  deriving DecidableEq, Repr

/-- Ethernet ports, Poldoal and RoCEv2 (chapter 12). -/
structure Fabric where
  ports : Vector Port 8
  subs : Vector SubPort 64
  devId : CPair 14
  pfx : CPair 64
  udpPort : BitVec 16
  prio : BitVec 3
  payload : BitVec 16
  rtoUs : BitVec 16
  peerTimeout : BitVec 16
  qpTab : Word
  retx : Word
  dup : Word
  denied : Word
  staleEpoch : Word
  chans : Sparse Channel
  halfCounter : BitVec 16
  peers : Sparse Peer
  table : Sparse FabricEntry
  qps : Sparse QueuePair
  /-- Sub-port the round robin of R350 continues after. -/
  rr : Fin 64
  /-- Sub-ports whose transmit queue was full when it was last told (R350). -/
  full : BitVec 64
  /-- Local time since which no sub-port is UP; none: one is (R352). -/
  noUpSince : Option Nat
  tx : List TxItem
  /-- Frames of a paused priority, oldest first (R321). -/
  waiting : List OutFrame
  /-- Packets of a channel to this device itself, on their way inside the package (R25). -/
  loop : List Packet
  deriving DecidableEq, Repr

/-! ### Containment, dispatch, recorder -/

/-- pstate of a ledger (R364). -/
inductive PoolState where
  | opened
  | afterFence
  | afterFault
  deriving DecidableEq, Repr

/-- A conservation ledger and its allocator's free count (R364). -/
structure Ledger where
  issued : CPair 64
  returned : CPair 64
  outstanding : CPair 64
  writtenOff : CPair 64
  late : CPair 64
  st : PoolState
  free : Word
  /-- Local time of the fence whose write-off is still to come (R361). -/
  fencedAt : Option Nat
  /-- What was outstanding has been written off. -/
  wroteOff : Bool
  deriving DecidableEq, Repr

/-- A dispatch queue (R372). -/
structure DispatchQueue where
  items : List Word
  pendingCount : BitVec 32
  irq : BitVec 16
  requeued : BitVec 32
  fenced : Bool
  deriving DecidableEq, Repr

/-- A record before it has a time (R374). -/
structure Rec where
  sev : BitVec 3
  code : BitVec 16
  source : BitVec 32
  p0 : BitVec 32
  p1 : BitVec 32
  p2 : BitVec 32
  deriving DecidableEq, Repr

/-- The Medlar recorder (R374 to R379). -/
structure Recorder where
  /-- Ring slots: eight words each; an unlisted slot is all zeros, so absent. -/
  ring : Sparse (Vector (BitVec 32) 8)
  size : BitVec 8
  next : Nat
  newest : BitVec 32
  drop : BitVec 32
  written : BitVec 32
  noticeSev : BitVec 3
  noticeMask : Word
  /-- Records on their way in class 0, and the acceptance queue with acceptance times. -/
  inFlight : List Rec
  queue : List (Rec × Nat)
  lastAccept : Option Nat
  sel : BitVec 32
  snap : Vector (BitVec 32) 8
  deriving DecidableEq, Repr

/-- One 32 KiB half of a black-box region (R381): the pages programmed. -/
structure BoxHalf where
  /-- Header page; empty while it is erased. -/
  header : List Byte
  records : List (Vector (BitVec 32) 8)
  deriving DecidableEq, Repr

/-- The black box (R380 to R382). -/
structure BlackBox where
  addr : BitVec 32
  armed : Bool
  /-- The recorder has made a half ready since the last reset (R380). -/
  readied : Bool
  erasing : Bool
  present : Bool
  incomplete : Bool
  /-- The halves of each 64 KiB region of the flash that held a box (R380). -/
  regions : Sparse (Vector BoxHalf 2)
  /-- The half that holds the saved box. -/
  saved : Fin 2
  /-- Snapshot being programmed, newest first; pages left to program. -/
  snapshot : List (Vector (BitVec 32) 8)
  snapTime : Nat
  pagesLeft : Nat
  programming : Bool
  sel : BitVec 16
  snap : Vector (BitVec 32) 8
  deriving DecidableEq, Repr

/-- Ledgers, watchdog settings, dispatch, critical marks (chapter 13). -/
structure Containment where
  ledgers : Sparse Ledger
  queues : Vector DispatchQueue 5
  crit : Vector Bool 20
  wdWarn : BitVec 32
  wdFence : BitVec 32
  /-- The device has stopped under R369. -/
  stopped : Bool
  /-- Failed replays in a row of each package link (R368). -/
  linkReplays : Vector Nat 10
  deriving DecidableEq, Repr

/-! ### Interrupts and resets -/

/-- A target block (R385). -/
structure Target where
  pending : Sparse Bool
  inService : Sparse Bool
  thresh : BitVec 4
  deriving DecidableEq, Repr

/-- A doorbell message of a unit (0: the hub; 1 + st: stack st; 17 + q: the dispatcher of queue q):
target × 4,096 + source. -/
structure DoorMsg where
  unit : Nat
  msg : BitVec 19
  deriving DecidableEq, Repr

/-- The interrupt controller (R384 to R393). -/
structure Interrupts where
  prio : Sparse (BitVec 4)
  target : Sparse (BitVec 7)
  blocks : Vector Target 65
  drop : BitVec 32
  /-- Doorbell messages on their way, in the order in which they were sent (R19). -/
  inFlight : List DoorMsg
  deriving DecidableEq, Repr

/-- Phases of the device between a reset and running (R394 to R401, R269). -/
inductive Phase where
  | porHeld
  | sysHeld
  | quiescing
  | loading
  | optHold
  | training
  | initialising
  | ready
  | noLeave
  deriving DecidableEq, Repr

/-- A write staged during the option-loading phase (R401): bb_addr is the one RW-at-reset entry. -/
abbrev Staged := Option (BitVec 32)

/-- A request of opt_commit or the hub's own (R456). -/
structure Commit where
  /-- none: the sector erase runs; some n: n pages are programmed. -/
  pages : Option Nat
  /-- Waiting for a black-box erase to end. -/
  waiting : Bool
  words : List (BitVec 32)
  deriving DecidableEq, Repr

/-- Resets and option words (R394 to R403, R454 to R456). -/
structure Resets where
  phase : Phase
  last : BitVec 4
  sysCount : BitVec 8
  optRestarts : BitVec 8
  glitches : BitVec 8
  optHold : Bool
  staged : Staged
  /-- RST_SYS_N is accepted low. -/
  rstSysLow : Bool
  /-- A power-on reset has not loaded ilv_next yet (R454). -/
  ilvOwed : Bool
  /-- The value of ilv_next that chooses the map: as the reset was accepted with, or as loaded (R258). -/
  ilvTaken : BitVec 8
  /-- REFCLK is present and in range. -/
  refclk : Bool
  spareFail : BitVec 4
  /-- Option word pairs in force, in the fuses and in the flash option block. -/
  words : Sparse (CPair 32)
  /-- Words in force whose complement half has bits wrong, and which; where the value of a word in force came from: 0 fuse or
  ROM, 1 flash, 2 a write (R362, R383). -/
  wordErr : Sparse (BitVec 32)
  wordFrom : Sparse (BitVec 2)
  fuses : Sparse (CPair 32)
  flash : Sparse (CPair 32)
  /-- Option words in force that were taken from the flash, and those written since. -/
  commit : Option Commit
  /-- A further commit the hub owes after the one in progress (R456). -/
  commitAgain : Bool
  deriving DecidableEq, Repr

/-- The balls whose state the spec gives (R404, R405). -/
structure Balls where
  /-- Asserted means driven low. -/
  alert : Bool
  thermtrip : Bool
  bootCsHigh : Bool
  bootSck : Bool
  bootIoDriven : Bool
  txIdle : Bool
  mgmtTx : Bool
  /-- PWR_FAIL_N is accepted low; it has gone high again. -/
  pwrFail : Bool
  deriving DecidableEq, Repr

/-! ### Rowan -/

/-- The lifecycle (R407). -/
inductive Lifecycle where
  | blank
  | secured
  | decommissioned
  deriving DecidableEq, Repr

/-- A fuse program in progress: bits still to blow (R419). -/
structure FuseProgram where
  old : Nat
  goal : Nat
  deriving DecidableEq, Repr

/-- Who asked for a quote or an extension: a core's window or the management window (R424). -/
abbrev WinId := Option CoreId

/-- Rowan (chapter 15). -/
structure Rowan where
  keys : Vector (BitVec 512) 4
  revoked : BitVec 4
  /-- Revoke bits the boot in progress goes by (R420). -/
  revokedBoot : BitVec 4
  svn : Nat
  lcBits : BitVec 2
  fuse : Option FuseProgram
  meas : Vector (BitVec 512) 8
  lock : BitVec 8
  stage : BitVec 3
  slotB : BitVec 3
  lastReason : BitVec 4
  lastReject : BitVec 4
  /-- svn of the running stage 1, hub firmware, core firmware; the slot that verified stage 1. -/
  runSvn : Vector Nat 3
  bootKey : Option (Fin 4)
  coreEntry : Word
  /-- Hub firmware has verified core firmware and not released the cores yet. -/
  coreReady : Bool
  /-- Quotes that wait: window, register mask, nonce (R424). -/
  quotes : List (WinId × BitVec 8 × BitVec 512)
  /-- The quote being signed: its window and the copied bytes. -/
  signing : Option (WinId × List Byte)
  mgmtWin : AttWindow
  /-- The identity seed fuses, and the private key derived from them at power-on; none: not derived (R407, R408, R422). -/
  seed : BitVec 256
  idKey : Option (BitVec 528)
  idCert : List Byte
  deriving DecidableEq, Repr

/-! ### Power -/

/-- What a domain is doing (R428). -/
inductive PdPhase where
  | off
  | waiting
  | ramping
  | on
  | shutting
  deriving DecidableEq, Repr

/-- One power domain: phase, target, lock (R427, R428). -/
structure Domain where
  phase : PdPhase
  want : Bool
  locked : Bool
  /-- Local time at which the wait for the ramp slot began; once granted, the µs it lasted (R444). -/
  wait : Nat
  /-- Local time at which the ramp slot was granted (R432). -/
  ramp : Nat
  deriving DecidableEq, Repr

/-- A VCORE rail as the AVSBus shows it (R476): the target written last, the last value read, in mV, and the local time of
the write. -/
structure Rail where
  target : Nat
  read : Nat
  written : Nat
  deriving DecidableEq, Repr

/-- Power manager and thermal control (chapter 16). -/
structure Power where
  domains : Vector Domain 96
  cap : CPair 16
  tThrottle : BitVec 8
  noticeMask : Word
  critWindow : BitVec 16
  now : BitVec 16
  capApplied : BitVec 16
  fCap : BitVec 16
  criticality : BitVec 16
  tHot : Int
  /-- The last ten 100 µs samples, newest first. -/
  samples : List (BitVec 16)
  /-- 100 µs intervals in which the mean stayed below pwr_cap − 3 %, and at or below pwr_cap. -/
  lowFor : Nat
  metFor : Nat
  dieCeil : Vector (BitVec 16) 4
  dieCool : Vector Nat 4
  hubHot : Bool
  throttled : Bool
  /-- f_cap is held at 400 MHz after PWR_FAIL_N (R481). -/
  failHold : Bool
  marked : Nat
  counted : Nat
  unmet : Bool
  rails : Vector Rail 4
  deriving DecidableEq, Repr

/-! ### Management -/

/-- A trust entry (R462). -/
structure Trust where
  key : BitVec 512
  perms : CPair 16
  enable : Bool
  deriving DecidableEq, Repr

/-- An open DAP session (R461, R463). -/
structure Session where
  id : BitVec 32
  /-- Where its NOTIFY messages go: where its last accepted message came from. -/
  peer : DapPeer
  /-- Trust entry; none in BLANK without entries. -/
  trust : Option (Fin 8)
  lastSeq : Word
  devSeq : Word
  notify : Bool
  keyIn : BitVec 512
  keyOut : BitVec 512
  stored : Option DapMsg
  /-- NOTIFY messages sent in the current second. -/
  notified : Nat
  /-- Local time of the last accepted message, and of the start of the NOTIFY second. -/
  lastAt : Nat
  secondAt : Nat
  deriving DecidableEq, Repr

/-- Stages of a handshake (R461). -/
inductive HsStage where
  | signing
  /-- CHALLENGE was sent, at this local time. -/
  | challenged (at_ : Nat)
  | checking (sigC : List Byte)
  deriving DecidableEq, Repr

/-- The handshake in progress. -/
structure Handshake where
  peer : DapPeer
  stage : HsStage
  /-- Quotes that reached Rowan's engine before this step of the handshake (R465). -/
  ahead : Nat
  trust : Option (Fin 8)
  notify : Bool
  hello : List Byte
  challenge : List Byte
  id : BitVec 32
  secret : BitVec 64
  deriving DecidableEq, Repr

/-- Management port and DAP (chapter 17). -/
structure Mgmt where
  plcaId : BitVec 8
  plcaCount : BitVec 8
  mac : BitVec 48
  ip6 : BitVec 128
  dapPort : BitVec 16
  vid : CPair 16
  dapIdle : BitVec 16
  notifySev : BitVec 3
  trust : Vector Trust 8
  port : Vector (Option Session) 4
  vlan : Vector (Option Session) 4
  hs : Option Handshake
  /-- HELLOs that wait for the handshake in progress, with their path. -/
  hsWait : List (DapPeer × DapMsg)
  badmac : BitVec 32
  replay : BitVec 32
  hsFail : BitVec 32
  notifyDrop : BitVec 32
  discarded : Nat
  deriving DecidableEq, Repr

/-- The TAP (R485, R486). -/
structure Jtag where
  ir : BitVec 8
  testLogicReset : Bool
  boundary : BitVec 21
  sampled : BitVec 21
  extest : Bool
  deriving DecidableEq, Repr

/-- qc_inject (R163). -/
structure QcInject where
  core : BitVec 6
  armed : Bool
  twice : Bool
  k : BitVec 9
  n : BitVec 9
  deriving DecidableEq, Repr

/-- The whole device. -/
structure State where
  cores : Vector CoreState 64
  mem : Mem
  stks : Vector Stack 16
  scfg : StackCfg
  train : Training
  fab : Fabric
  cont : Containment
  recd : Recorder
  box : BlackBox
  int : Interrupts
  rst : Resets
  balls : Balls
  rowan : Rowan
  pow : Power
  mgmt : Mgmt
  jtag : Jtag
  inject : QcInject
  /-- Spare of each die mapped in place of a global number (R10). -/
  spares : Vector (Option CoreId) 4
  /-- Local time, 10 ns ticks since power-on (R378). -/
  time : Nat
  /-- The model's own: how many free values have been taken (log entry 5). -/
  free : Nat
  /-- The model's own: the commands that wait, first in, first out. -/
  pending : List Instr
  deriving DecidableEq, Repr

/-! ### Reset values -/

/-- Value and complement of a pair formed by a write (R362). -/
def pairOf {w : Nat} (v : BitVec w) : CPair w := ⟨v, ~~~v⟩

/-- A capability whose tag is clear and whose bits are 0. -/
def capNull : Cap := ⟨0, false⟩

/-- Whole-space bounds: e = 63, bm and lm 0 (R90); all permissions (R96); unsealed. -/
def capRoot (cursor : Word) : Cap :=
  ⟨(0#1 ++ 0#7 ++ 0xFFFF#16 ++ 63#6 ++ 0#17 ++ 0#17 ++ cursor : BitVec 128), true⟩

/-- k1 after reset: base 0, top 0x80, SEAL and UNSEAL, cursor 0 (R96). -/
def capSealer : Cap :=
  ⟨(0#1 ++ 0#7 ++ 0x00C0#16 ++ 0#6 ++ 0#17 ++ 0x80#17 ++ 0#64 : BitVec 128), true⟩

def Status.reset : Status := ⟨false, false, false, false⟩

def Control.reset : Control :=
  { status := Status.reset, xcause := 0, xaddr := 0, vresume := 0, trestart := 0, fmtSat := true,
    fmtDnan := true, rm := 0, tid := 0, fflags := 0, rngctr := 0, vl := 0, oor := false, lc0 := 0,
    ls0 := 0, le0 := 0, lc1 := 0, ls1 := 0, le1 := 0, iostat := 0, rplfsr := 0xACE1, cycle := 0,
    cycleFrac := 0, instret := 0 }

def Shadow.reset : Shadow :=
  { g := Vector.replicate 32 0, k := Vector.replicate 16 capNull, pcc := capNull,
    status := Status.reset }

def Caches.reset : Caches := ⟨[], [], none, []⟩

def Vectors.reset : Vectors := ⟨[], []⟩

def Operand.zero : Operand := ⟨false, 0, 0, 0⟩

def Stationary.reset : Stationary :=
  ⟨false, 0, false, 0, 0, Operand.zero, 0, false, false, [], [], []⟩

def QCounters.reset : QCounters := ⟨0, 0, 0, 0, 0, 0, 0, 0⟩

def Tiles.reset : Tiles :=
  { op := none, seq := 0, stat := Stationary.reset, prev := none, waitsAt := none, restored := false, rows := [], retry := none,
    hold := false, drains := [], modes := Vector.replicate 16 .none, acc := [], buf := [],
    tblocks := 0x080, tb := [], qc := QCounters.reset }

def StreamDesc.zero : StreamDesc :=
  ⟨0, 0, 0, 0, 0, 0, 0, 0, 0, 0, 0, 0, false, false, 0, 0, 0, 0, 0, 0, 0, 0⟩

def StreamCounters.reset : StreamCounters := ⟨0, 0, 0, 0, 0, 0, 0, 0, Vector.replicate 8 0⟩

def Engine.idle : Engine :=
  { st := .idle, desc := StreamDesc.zero, kb := capNull, kbNum := 0, origin := 0, descAt := 0, next := 0,
    pos := 0, recs := [], reqs := [], partData := [], partScale := [], queue := [], ringAt := 0, resume := 0,
    lost := false, cnt := StreamCounters.reset }

def Streams.reset : Streams := ⟨Vector.replicate 6 Engine.idle, .none, []⟩

def AttWindow.reset : AttWindow := ⟨0, 0, 0, []⟩

def Windows.reset : Windows :=
  { pqTail := 0, pqSize := 0, cqTail := 0, cqHead := 0, cqIrq := 0xFFF, ltBase := 0, ltCount := 0,
    accepted := 0, completed := 0, chSel := 0, recSel := 0, recSnap := Vector.replicate 8 0,
    bootAddr := 0, att := AttWindow.reset, descSel := 0 }

/-- The grade's nominal clock in MHz (R1). -/
def nominalMHz : BitVec 16 := if Config.isGrade18 then 1800 else 1600

def CorePower.reset : CorePower :=
  { fSet := nominalMHz, fNow := nominalMHz, derate := 0, fTherm := 2000, coolSamples := 0, temp := 0,
    droopCnt := 0, droop := false, mark := false, noRise := 0 }

/-- A core after a power-on reset: held (R416), registers at their reset values. -/
def CoreState.reset (phys : BitVec 5) : CoreState :=
  { g := Vector.replicate 32 0
    k := ((Vector.replicate 16 capNull).set 0 (capRoot 0)).set 1 capSealer
    pcc := capRoot 0, xvcc := capNull, xdcc := capNull, ctl := Control.reset
    shadow := Shadow.reset, cache := Caches.reset, vec := Vectors.reset, tile := Tiles.reset
    str := Streams.reset, cond := .held, ownFault := false, phys := phys
    notice := ⟨false, false, false⟩, wdTicks := 0, wdWarned := false, forms := [], items := []
    win := Windows.reset, pow := CorePower.reset }

def Mem.reset : Mem := ⟨[], [], [], [], [], [], [], []⟩

def Stack.reset : Stack :=
  { st := .training, ce := 0, ue := 0, spared := 0, trr := 0, scrubPass := 0, temp := 0, saFlags := 0,
    saElems := 0, saPoison := 0, fencedWr := 0, margin := 0, ringBase := 0, ringSize := 0,
    ringTail := 0, ringHead := 0, ringIrq := 0xFFF, engEnd := none, saQueue := [],
    poisonTimes := [], scrubWords := 0, scrubSeen := [], rowErrors := [], spareMap := [],
    spareUsed := [], sparesOut := [], copies := [], act := [], hot := false, halved := false }

def StackCfg.reset : StackCfg := ⟨0xFF, 24, 4096, 4, 0xFF⟩

def SnapTarget.reset : SnapTarget := ⟨0, 0, 0⟩

def Training.reset : Training :=
  { keyLo := pairOf 0, keyHi := pairOf 0, step := pairOf 0, dataPos := pairOf 0, sps := pairOf 1,
    stepBase := pairOf 0, drainRate := 0, snapIrq := 0xFFF, evalHold := Vector.replicate 2 false,
    snapTag := 0, extTable := Vector.replicate 2 0, extCount := Vector.replicate 2 0,
    ckpt := SnapTarget.reset, eval := SnapTarget.reset, shardIdx := pairOf 0, nShards := pairOf 1,
    snap := Vector.replicate 2 .free, done := Vector.replicate 2 false, restoreStatus := 0,
    restoreSkew := 0, snapBytes := 0, job := none, await := Vector.replicate 2 none }

def SubPort.reset (mac : BitVec 48) : SubPort :=
  { st := .absent, link := false, probesOk := 0, probeOut := false, mac := mac, vid := 0xFFFF, pfcEn := 0, ip4 := 0,
    nhMac := 0, paused := 0, xoff := 0, txBytes := 0, rxBytes := 0, fcsErr := 0, fecUncorr := 0,
    pfcRx := 0, pfcTx := 0, ceRx := 0, rxDrop := 0 }

/-- MAC of sub-port k from its two option words (R455). -/
def macOfWords (lo hi : BitVec 32) : BitVec 48 := (hi.extractLsb' 0 16 ++ lo : BitVec 48)

/-- The mac entries as the fuses hold them (R493). -/
def fusedMac (k : Nat) : BitVec 48 :=
  macOfWords (Config.fusedWord (268 + 2 * k)) (Config.fusedWord (269 + 2 * k))

def Fabric.reset : Fabric :=
  { ports := Vector.replicate 8 ⟨0xFF, 0, 0x100⟩
    subs := Vector.ofFn fun k : Fin 64 => SubPort.reset (fusedMac k.val)
    devId := pairOf 0, pfx := pairOf 0, udpPort := 0xBEE6, prio := 3, payload := 0x1000
    rtoUs := 0x14, peerTimeout := 0x14, qpTab := 0, retx := 0, dup := 0, denied := 0
    staleEpoch := 0, chans := [], halfCounter := 0, peers := [], table := [], qps := []
    rr := 0, full := 0, noUpSince := some 0, tx := [], waiting := [], loop := [] }

def Containment.reset : Containment :=
  { ledgers := [], queues := Vector.replicate 5 ⟨[], 0, 0xFFF, 0, false⟩
    crit := Vector.replicate 20 false, wdWarn := 0x3E8, wdFence := 0x2710, stopped := false
    linkReplays := Vector.replicate 10 0 }

/-- RESET_POR is on its way: the first record of the cleared ring (R406). -/
def Recorder.reset : Recorder :=
  { ring := [], size := 0x10, next := 0, newest := 0xFFFFFFFF, drop := 0, written := 0,
    noticeSev := 4, noticeMask := BitVec.allOnes 64, inFlight := [⟨1, 0x0801, 0, 1, 0, 0⟩], queue := [], lastAccept := none,
    sel := 0, snap := Vector.replicate 8 0 }

def BlackBox.reset : BlackBox :=
  { addr := 0xFFFFFFFF, armed := false, readied := false, erasing := false, present := false, incomplete := false,
    regions := [], saved := 0, snapshot := [], snapTime := 0,
    pagesLeft := 0, programming := false, sel := 0, snap := Vector.replicate 8 0 }

def Target.reset : Target := ⟨[], [], 0⟩

def Interrupts.reset : Interrupts := ⟨[], [], Vector.replicate 65 Target.reset, 0, []⟩

def Resets.reset : Resets :=
  { phase := .porHeld, last := 0x1, sysCount := 0, optRestarts := 0, glitches := 0, optHold := false,
    staged := none, rstSysLow := false, ilvOwed := true, ilvTaken := 0xFF, refclk := true, spareFail := 0, words := [], wordErr := [],
    wordFrom := [], fuses := [],
    flash := [], commit := none, commitAgain := false }

def Balls.reset : Balls :=
  { alert := false, thermtrip := false, bootCsHigh := true, bootSck := false, bootIoDriven := false,
    txIdle := true, mgmtTx := false, pwrFail := false }

def Rowan.reset : Rowan :=
  { keys := Vector.replicate 4 0, revoked := 0, revokedBoot := 0, svn := 0, lcBits := 0, fuse := none,
    meas := Vector.replicate 8 0, lock := 0, stage := 0, slotB := 0, lastReason := 0, lastReject := 0,
    runSvn := Vector.replicate 3 0, bootKey := none, coreEntry := 0, coreReady := false, quotes := [], signing := none,
    mgmtWin := AttWindow.reset, seed := Config.fusedSeed, idKey := some (Config.deriveKey Config.fusedSeed), idCert := [] }

/-- Domain targets at a power-on reset (R433): cores off, stacks on, ports by mode (off), others on. -/
def Domain.reset (d : Fin 96) : Domain :=
  if d.val < 64 then ⟨.off, false, false, 0, 0⟩
  else if 84 ≤ d.val ∧ d.val < 92 then ⟨.off, false, false, 0, 0⟩
  else ⟨.on, true, false, 0, 0⟩

def Power.reset : Power :=
  { domains := Vector.ofFn Domain.reset, cap := pairOf 2600, tThrottle := 100
    noticeMask := BitVec.allOnes 64, critWindow := 0x64, now := 0, capApplied := 2600, fCap := 0x7D0
    criticality := 0, tHot := 0, samples := [], lowFor := 0, metFor := 0
    dieCeil := Vector.replicate 4 2000, dieCool := Vector.replicate 4 0, hubHot := false
    throttled := false, failHold := false, marked := 0, counted := 0, unmet := false
    rails := Vector.replicate 4 ⟨750, 750, 0⟩ }

def Mgmt.reset : Mgmt :=
  { plcaId := 255, plcaCount := 8
    mac := macOfWords (Config.fusedWord 397) (Config.fusedWord 398), ip6 := 0
    dapPort := 0xDAC0, vid := pairOf 0xFFFF, dapIdle := 0x3C, notifySev := 4
    trust := Vector.replicate 8 ⟨0, pairOf 0, false⟩, port := Vector.replicate 4 none
    vlan := Vector.replicate 4 none, hs := none, hsWait := [], badmac := 0, replay := 0, hsFail := 0
    notifyDrop := 0, discarded := 0 }

def Jtag.reset : Jtag := ⟨0x02, true, 0, 0, false⟩

/-- The device while a power-on reset is held: every field at its reset value. -/
def State.reset : State :=
  { cores := Vector.ofFn fun c : Fin 64 => CoreState.reset (BitVec.ofNat 5 (c.val % 16))
    mem := Mem.reset, stks := Vector.replicate 16 Stack.reset, scfg := StackCfg.reset
    train := Training.reset, fab := Fabric.reset, cont := Containment.reset
    recd := Recorder.reset, box := BlackBox.reset, int := Interrupts.reset, rst := Resets.reset
    balls := Balls.reset, rowan := Rowan.reset, pow := Power.reset, mgmt := Mgmt.reset
    jtag := Jtag.reset, inject := ⟨0, false, false, 0, 0⟩, spares := Vector.replicate 4 none
    time := 0, free := 0, pending := [] }

end Sys2Proof.Machine
end

