-- ==== Sys2Proof/Machine/Sparse.lean ====
section
/-!
DEFINITION. Reading and writing the sparse arrays of the state, and the canonical form they keep.
-/
namespace Sys2Proof.Machine

/-- Content of address a; an unlisted address reads as `d a`. -/
def sparseGet {α : Type} (d : Nat → α) : Sparse α → Nat → α
  | [], a => d a
  | (k, v) :: m, a => if a = k then v else sparseGet d m a

/-- The array without a listed content for a. -/
def sparseErase {α : Type} : Sparse α → Nat → Sparse α
  | [], _ => []
  | (k, v) :: m, a => if a = k then sparseErase m a else (k, v) :: sparseErase m a

/-- The array with the pair put in front of the first higher address. -/
def sparseInsert {α : Type} : Sparse α → Nat → α → Sparse α
  | [], a, v => [(a, v)]
  | (k, w) :: m, a, v => if a < k then (a, v) :: (k, w) :: m else (k, w) :: sparseInsert m a v

/-- The array after v is written at a: a content equal to the default is not listed. -/
def sparseSet {α : Type} [DecidableEq α] (d : Nat → α) (m : Sparse α) (a : Nat) (v : α) : Sparse α :=
  if v = d a then sparseErase m a else sparseInsert (sparseErase m a) a v

/-- Addresses of the listed contents strictly rise above a bound. -/
def sparseRising {α : Type} : Option Nat → Sparse α → Bool
  | _, [] => true
  | b, (k, _) :: m => (match b with | none => true | some l => decide (l < k)) && sparseRising (some k) m

/-- No listed content equals the default. -/
def sparseNoDefault {α : Type} [DecidableEq α] (d : Nat → α) (m : Sparse α) : Bool :=
  m.all fun e => decide (e.2 ≠ d e.1)

/-- The canonical form of a sparse array. -/
def sparseWf {α : Type} [DecidableEq α] (d : Nat → α) (m : Sparse α) : Bool :=
  sparseRising none m && sparseNoDefault d m

/-- What an unlisted byte reads as (R269, R396; log entry 3). -/
def byteDefault (_ : Nat) : Byte := 0

/-- One byte of a memory. -/
def cellGet (m : List Host.Cell) (a : Nat) : Byte := sparseGet byteDefault m a

/-- The memory after one byte is written. -/
def cellSet (m : List Host.Cell) (a : Nat) (b : Byte) : List Host.Cell := sparseSet byteDefault m a b

/-- The memory after bytes are written from a upward. -/
def cellsSet : List Host.Cell → Nat → List Byte → List Host.Cell
  | m, _, [] => m
  | m, a, b :: bs => cellsSet (cellSet m a b) (a + 1) bs

/-- The n bytes from a upward. -/
def cellsGet (m : List Host.Cell) (a : Nat) : Nat → List Byte
  | 0 => []
  | n + 1 => cellGet m a :: cellsGet m (a + 1) n

/-- The canonical form of a memory. -/
def Memory.wf (m : List Host.Cell) : Bool := sparseWf byteDefault m

/-- A flag array: an unlisted address reads false. -/
def flagGet (m : Sparse Bool) (a : Nat) : Bool := sparseGet (fun _ => false) m a

def flagSet (m : Sparse Bool) (a : Nat) (b : Bool) : Sparse Bool := sparseSet (fun _ => false) m a b

/-- A count array: an unlisted address reads 0. -/
def countGet (m : Sparse Nat) (a : Nat) : Nat := sparseGet (fun _ => 0) m a

def countSet (m : Sparse Nat) (a n : Nat) : Sparse Nat := sparseSet (fun _ => 0) m a n

/-! ### Vectors, lists and bytes -/

/-- Element i of a vector, or d past its end. -/
def vget {α : Type} {n : Nat} (v : Vector α n) (i : Nat) (d : α) : α := (v[i]?).getD d

/-- Element i replaced; past the end nothing changes. -/
def vset {α : Type} {n : Nat} (v : Vector α n) (i : Nat) (x : α) : Vector α n := v.setIfInBounds i x

/-- Every element through f (a form that Lean's kernel evaluates). -/
def vmap {α β : Type} {n : Nat} (v : Vector α n) (f : α → β) : Vector β n := Vector.ofFn fun i => f v[i]

/-- Little-endian value of a byte list. -/
def leNat : List Byte → Nat
  | [] => 0
  | b :: bs => b.toNat + 256 * leNat bs

/-- The n low bytes of a value, lowest first. -/
def leBytes : Nat → Nat → List Byte
  | 0, _ => []
  | n + 1, v => BitVec.ofNat 8 v :: leBytes n (v / 256)

/-- n bytes of a list from offset o, zero past its end. -/
def sliceBytes (bs : List Byte) (o n : Nat) : List Byte :=
  let x := (bs.drop o).take n
  x ++ List.replicate (n - x.length) 0

/-- Little-endian value of n bytes at offset o. -/
def fieldNat (bs : List Byte) (o n : Nat) : Nat := leNat (sliceBytes bs o n)

/-- Two's-complement value of n bytes at offset o. -/
def fieldInt (bs : List Byte) (o n : Nat) : Int :=
  (BitVec.ofNat (8 * n) (fieldNat bs o n)).toInt

/-- Bits [hi:lo] of a natural number. -/
def natBits (v hi lo : Nat) : Nat := v / 2 ^ lo % 2 ^ (hi + 1 - lo)

/-- A Boolean as 0 or 1. -/
def bit (b : Bool) : Nat := if b then 1 else 0

def bitWord (b : Bool) : Word := if b then 1 else 0

/-- Saturating step of a counter that stops at its largest value. -/
def stopAtMax {w : Nat} (v : BitVec w) : BitVec w := if v = BitVec.allOnes w then v else v + 1

/-- A 32-bit word from a natural number. -/
def w32 (n : Nat) : BitVec 32 := BitVec.ofNat 32 n

/-- A 64-bit word from a natural number. -/
def w64 (n : Nat) : Word := BitVec.ofNat 64 n

/-- A 64-bit word from an integer, two's complement. -/
def i64 (n : Int) : Word := BitVec.ofInt 64 n

end Sys2Proof.Machine
end

