-- ==== Sys2Proof/Machine/CapOps.lean ====
section
/-!
DEFINITION. Capabilities (chapter 4): fields, bounds, representable cursors, narrowing, sealing, and
the causes a failed check gives.
-/
namespace Sys2Proof.Machine

/-! ### Fields (R87) and permissions (R88) -/

def Cap.cursor (k : Cap) : Word := k.bits.extractLsb' 0 64
def Cap.lm (k : Cap) : BitVec 17 := k.bits.extractLsb' 64 17
def Cap.bm (k : Cap) : BitVec 17 := k.bits.extractLsb' 81 17
def Cap.exp (k : Cap) : BitVec 6 := k.bits.extractLsb' 98 6
def Cap.perms (k : Cap) : BitVec 16 := k.bits.extractLsb' 104 16
def Cap.otype (k : Cap) : BitVec 7 := k.bits.extractLsb' 120 7
def Cap.isSealed (k : Cap) : Bool := k.bits.getLsbD 127

/-- A capability from its fields. -/
def capOf (isSealed : Bool) (otype : BitVec 7) (perms : BitVec 16) (e : BitVec 6) (bm lm : BitVec 17)
    (cursor : Word) (tag : Bool) : Cap :=
  ⟨(BitVec.ofBool isSealed ++ otype ++ perms ++ e ++ bm ++ lm ++ cursor : BitVec 128), tag⟩

def permLoad : Nat := 0
def permStore : Nat := 1
def permExec : Nat := 2
def permLoadCap : Nat := 3
def permStoreCap : Nat := 4
def permIo : Nat := 5
def permSeal : Nat := 6
def permUnseal : Nat := 7
def permMask : Nat := 8
def permPower : Nat := 9
def permDebug : Nat := 10
def permAccsave : Nat := 11
def permSyscfg : Nat := 12
def permDict : Nat := 13
def permFabric : Nat := 14
def permGlobal : Nat := 15

/-- The capability holds permission bit p. -/
def Cap.has (k : Cap) (p : Nat) : Bool := k.perms.getLsbD p

/-! ### Bounds (R90, R91) -/

/-- Base of the bounds (R90). -/
def Cap.base (k : Cap) : Nat :=
  if k.exp = 63 then 0
  else
    let e := k.exp.toNat
    let up := k.cursor.toNat + 2 ^ (e + 13) + 2 ^ 64
    let back := (up + 2 ^ (e + 17) * 2 ^ 64 - k.bm.toNat * 2 ^ e) % 2 ^ (e + 17)
    (up - back) % 2 ^ 64

/-- Top of the bounds, exclusive, exact (R90). -/
def Cap.top (k : Cap) : Nat :=
  if k.exp = 63 then 2 ^ 64 else k.base + k.lm.toNat * 2 ^ k.exp.toNat

/-- Some instruction produces these bounds with a tag (R90). -/
def Cap.boundsGiven (k : Cap) : Bool := k.exp.toNat ≤ 47 ∨ k.exp = 63

/-- Cursor v keeps the bounds of k (R91); the window is taken modulo 2^64 as the base is (log entry 8). -/
def Cap.representable (k : Cap) (v : Word) : Bool :=
  if k.exp = 63 then true
  else
    let e := k.exp.toNat
    decide ((v.toNat + 2 ^ 64 + 2 ^ (e + 13) - k.base) % 2 ^ 64 < 2 ^ (e + 17))

/-- The capability with another cursor; the tag goes where the cursor is not representable (R91). -/
def Cap.setCursor (k : Cap) (v : Word) : Cap :=
  ⟨k.bits.extractLsb' 64 64 ++ v, k.tag && k.representable v⟩

/-- First byte of the len bytes at a (taken modulo 2^64) outside the bounds (R90). -/
def Cap.firstOutside (k : Cap) (a len : Nat) : Option Nat :=
  let b := k.base
  let t := k.top
  if len = 0 then none
  else if ¬(b ≤ a ∧ a < t) then some a
  else if a + len ≤ t ∧ a + len ≤ 2 ^ 64 then none
  else if t < 2 ^ 64 then some t
  else if b = 0 then none
  else some 0

/-- The cursor's own byte lies within bounds. -/
def Cap.cursorInside (k : Cap) : Bool := (k.firstOutside k.cursor.toNat 1).isNone

/-- Bounds and permissions of k lie within those of j. -/
def Cap.within (k j : Cap) : Bool :=
  decide (j.base ≤ k.base ∧ k.top ≤ j.top) && (k.perms &&& ~~~j.perms == 0)

/-- Smallest exponent from e up to 47 that R92 allows for [a, a + n). -/
def narrowExp (a n : Nat) : Nat → Nat → Option Nat
  | 0, _ => none
  | fuel + 1, e =>
    if (a + n + 2 ^ e - 1) / 2 ^ e - a / 2 ^ e ≤ 0x1E000 then some e else narrowExp a n fuel (e + 1)

/-- R92: the narrowed capability; none is CAP_MONO. -/
def Cap.narrow (k : Cap) (n : Nat) (exact : Bool) : Option Cap :=
  let a := k.cursor.toNat
  match narrowExp a n 48 0 with
  | none => none
  | some e =>
    let lo := a / 2 ^ e
    let hi := (a + n + 2 ^ e - 1) / 2 ^ e
    if lo * 2 ^ e < k.base ∨ k.top < hi * 2 ^ e then none
    else if exact ∧ (lo * 2 ^ e ≠ a ∨ hi * 2 ^ e ≠ a + n) then none
    else some (capOf k.isSealed k.otype k.perms (BitVec.ofNat 6 e) (BitVec.ofNat 17 lo)
      (BitVec.ofNat 17 (hi - lo)) k.cursor k.tag)

/-! ### Permissions and seals -/

def Cap.setPerms (k : Cap) (p : BitVec 16) : Cap :=
  capOf k.isSealed k.otype p k.exp k.bm k.lm k.cursor k.tag

/-- Sealed with an object type (klock, kgo's return gate, exception entry). -/
def Cap.sealAs (k : Cap) (t : BitVec 7) : Cap := capOf true t k.perms k.exp k.bm k.lm k.cursor k.tag

def Cap.unseal (k : Cap) : Cap := capOf false 0 k.perms k.exp k.bm k.lm k.cursor k.tag

def Cap.strip (k : Cap) : Cap := ⟨k.bits, false⟩

def otypeGate : BitVec 7 := 0x7E
def otypeReturn : BitVec 7 := 0x7F

/-! ### Causes (R108, R109) -/

/-- A synchronous cause with what xcause and xaddr take. creg names the operand's capability in every cause of an access through
it, and cpcc stands in every cause of a fetch but FETCH_POISON and of a target checked against pcc: also where what failed is no
capability check, of which R109 does not say what these fields hold (DESIGN CHOICE, log entry 117). -/
structure Cause where
  code : BitVec 6
  prio : Nat
  addr : Word
  creg : BitVec 4 := 0
  cpcc : Bool := false
  deferred : Bool := false
  engine : BitVec 3 := 0
  deriving DecidableEq, Repr

def cILLEGAL (pc : Word) : Cause := { code := 0, prio := 2, addr := pc }
def cLOOPNEST (pc : Word) : Cause := { code := 1, prio := 3, addr := pc }
def cFETCHBOUNDS (t : Word) : Cause := { code := 2, prio := 1, addr := t, cpcc := true }
def cTARGETBOUNDS (t : Word) : Cause := { code := 2, prio := 6, addr := t, cpcc := true }
def cTARGETALIGN (t : Word) : Cause := { code := 3, prio := 7, addr := t, cpcc := true }
def cCAPTAG (a : Word) (r : BitVec 4) : Cause := { code := 4, prio := 6, addr := a, creg := r }
def cCAPSEALED (a : Word) (r : BitVec 4) : Cause := { code := 5, prio := 6, addr := a, creg := r }
def cCAPPERM (a : Word) (r : BitVec 4) : Cause := { code := 6, prio := 6, addr := a, creg := r }
/-- A permission of pcc is missing (R491). -/
def cPCCPERM : Cause := { code := 6, prio := 6, addr := 0, cpcc := true }
def cCAPBOUNDS (a : Word) (r : BitVec 4) : Cause := { code := 7, prio := 6, addr := a, creg := r }
def cCAPTYPE (r : BitVec 4) : Cause := { code := 8, prio := 6, addr := 0, creg := r }
def cCAPMONO (a : Word) (r : BitVec 4) : Cause := { code := 9, prio := 6, addr := a, creg := r }
def cSTORETAG (a : Word) (r : BitVec 4) : Cause := { code := 10, prio := 6, addr := a, creg := r }
def cBRK (pc : Word) : Cause := { code := 12, prio := 4, addr := pc }
def cECALL (pc : Word) : Cause := { code := 13, prio := 4, addr := pc }
def cSTEP (next : Word) : Cause := { code := 14, prio := 12, addr := next }
def cUNMAPPED (a : Word) (r : BitVec 4) : Cause := { code := 16, prio := 8, addr := a, creg := r }
def cMISALIGNED (a : Word) (r : BitVec 4) : Cause := { code := 17, prio := 7, addr := a, creg := r }
def cPOISON (a : Word) (r : BitVec 4) : Cause := { code := 18, prio := 10, addr := a, creg := r }
def cTAGUNSUPPORTED (a : Word) (r : BitVec 4) : Cause := { code := 19, prio := 9, addr := a, creg := r }
def cFETCHPOISON (pc : Word) : Cause := { code := 20, prio := 1, addr := pc }
def cVGROUP (pc : Word) : Cause := { code := 32, prio := 3, addr := pc }
def cVLEN (pc : Word) : Cause := { code := 33, prio := 3, addr := pc }
def cVFORMAT (pc : Word) : Cause := { code := 34, prio := 3, addr := pc }
def cSHAPE (pc : Word) : Cause := { code := 40, prio := 3, addr := pc }
def cNOSTAT (pc : Word) : Cause := { code := 41, prio := 3, addr := pc }
def cDESCRIPTOR (a : Word) : Cause := { code := 48, prio := 3, addr := a }
def cSTREAM (pc : Word) : Cause := { code := 49, prio := 5, addr := pc }
def cFABRICQUEUE (a : Word) (r : BitVec 4) : Cause := { code := 50, prio := 11, addr := a, creg := r }

/-- The cause taken among several: the lowest priority number, the earliest of equals (R108). -/
def firstCause : List Cause → Option Cause
  | [] => none
  | k :: ks =>
    match firstCause ks with
    | none => some k
    | some j => if j.prio < k.prio then some j else some k

/-- The cause of a failed check, or none. -/
def failIf (b : Bool) (k : Cause) : List Cause := if b then [k] else []

/-- R65 steps 1 to 3 for an operand capability that needs every permission of the list. -/
def capUseCauses (k : Cap) (r : BitVec 4) (needs : List Nat) (a : Word) : List Cause :=
  failIf (!k.tag) (cCAPTAG a r) ++ failIf k.isSealed (cCAPSEALED a r) ++
  failIf (needs.any fun p => !k.has p) (cCAPPERM a r)

/-- R65 step 4 over len bytes at a. -/
def capBoundsCauses (k : Cap) (r : BitVec 4) (a : Word) (len : Nat) : List Cause :=
  match k.firstOutside a.toNat len with
  | none => []
  | some x => [cCAPBOUNDS (w64 x) r]

/-- R65 step 5. -/
def alignCauses (r : BitVec 4) (a : Word) (n : Nat) : List Cause :=
  failIf (a.toNat % n != 0) (cMISALIGNED a r)

end Sys2Proof.Machine
end

