-- ==== Sys2Proof/Machine/Memory.lean ====
section
/-!
DEFINITION. Data space and instruction space: where an address lies (R21, R22, R256, R257), the homes
with their tags, poison marks and latent errors (R93, R259 to R262, R278), and the scalar caches that
stand in front of them (R66, R67, R85, R86).
-/
namespace Sys2Proof.Machine

/-! ### Records and small pieces of state every unit uses -/

/-- A unit sends a record toward the recorder (R375). -/
def State.log (s : State) (sev : BitVec 3) (code : BitVec 16) (src p0 p1 p2 : BitVec 32) : State :=
  { s with recd := { s.recd with inFlight := s.recd.inFlight ++ [⟨sev, code, src, p0, p1, p2⟩] } }

/-- Core c. -/
def State.core (s : State) (c : CoreId) : CoreState := s.cores[c]

/-- Core c replaced. -/
def State.setCore (s : State) (c : CoreId) (x : CoreState) : State :=
  { s with cores := s.cores.set c.val x c.isLt }

/-- Core c changed by f. -/
def State.mapCore (s : State) (c : CoreId) (f : CoreState → CoreState) : State := s.setCore c (f (s.core c))

def State.setMem (s : State) (m : Mem) : State := { s with mem := m }

def State.stack (s : State) (st : StackId) : Stack := s.stks[st]

def State.setStack (s : State) (st : StackId) (x : Stack) : State :=
  { s with stks := s.stks.set st.val x st.isLt }

/-- The next free value and the state with the sequence advanced (log entry 5). -/
def State.takeFree (s : State) : Word × State := (Config.freeValue s.free, { s with free := s.free + 1 })

/-- Two free values, one bit for each byte of a line. -/
def State.takeFree2 (s : State) : BitVec 128 × State :=
  (Config.freeValue s.free ++ Config.freeValue (s.free + 1), { s with free := s.free + 2 })

/-- n free bytes. -/
def State.freeBytes (s : State) (n : Nat) : List Byte × State :=
  ((List.range n).map fun i => (Config.freeValue (s.free + i)).setWidth 8, { s with free := s.free + n })

/-! ### Complement-stored pairs (R362) and ledgers (R364 to R366) -/

/-- A pair whose halves are complements (R362). -/
def intact {w : Nat} (p : CPair w) : Bool := p.inv == ~~~p.val

/-- A pair updated from its own value; a damaged one is never re-formed from one of its halves (R362; log entry 156). -/
def pairMap {w : Nat} (p : CPair w) (f : BitVec w → BitVec w) : CPair w := if intact p then pairOf (f p.val) else p

/-- Size of a pool (R364); none for a number that is no pool. -/
def poolSize (id : Nat) : Option Nat :=
  if id < 0x40 then some 192
  else if id = 0x40 then some 4096
  else if id = 0x41 then some 16384
  else if 0x48 ≤ id ∧ id < 0x50 then some 256
  else if 0x50 ≤ id ∧ id < 0x54 then some 1024
  else if 0x60 ≤ id ∧ id < 0x70 then some 256
  else if id = 0x70 then some 64
  else if 0x78 ≤ id ∧ id < 0x7D then some 1024
  else none

/-- A ledger after a power-on or system reset: zero, open, every unit free. -/
def ledgerReset (id : Nat) : Ledger :=
  { issued := pairOf 0, returned := pairOf 0, outstanding := pairOf 0, writtenOff := pairOf 0,
    late := pairOf 0, st := .opened, free := w64 ((poolSize id).getD 0), fencedAt := none,
    wroteOff := false }

def State.ledger (s : State) (id : Nat) : Ledger := sparseGet ledgerReset s.cont.ledgers id

def State.setLedger (s : State) (id : Nat) (l : Ledger) : State :=
  { s with cont := { s.cont with ledgers := sparseSet ledgerReset s.cont.ledgers id l } }

/-- One unit leaves its pool: counters and FREE move together (R364). -/
def Ledger.take (l : Ledger) (n : Nat) : Ledger :=
  { l with issued := pairMap l.issued (· + w64 n), outstanding := pairMap l.outstanding (· + w64 n), free := l.free - w64 n }

/-- Units come back (R364). -/
def Ledger.give (l : Ledger) (n : Nat) : Ledger :=
  { l with returned := pairMap l.returned (· + w64 n), outstanding := pairMap l.outstanding (· - w64 n), free := l.free + w64 n }

/-- Every counter agrees with its complement (R362). -/
def Ledger.whole (l : Ledger) : Bool :=
  intact l.issued && intact l.returned && intact l.outstanding && intact l.writtenOff && intact l.late

/-- The pool can issue n units; none from counters that are damaged. -/
def Ledger.canTake (l : Ledger) (n : Nat) : Bool := decide (l.st = .opened ∧ n ≤ l.free.toNat) && l.whole

/-- The pool was written off after a fence: what comes back now is late (R361). -/
def Ledger.writtenOffNow (l : Ledger) : Bool := l.wroteOff

def State.poolTake (s : State) (id n : Nat) : State := s.setLedger id ((s.ledger id).take n)

/-- Units return to a pool that was written off: discarded and counted in LATE (R361). -/
def State.lateReturn (s : State) (id n : Nat) : State :=
  let l := s.ledger id
  (s.setLedger id { l with late := pairMap l.late (· + w64 n) }).log 3 0x0203 (0x00050000 + w32 id)
    (w32 id) (w32 n) 0

/-- n units come back to a pool: counted late after a write-off; otherwise given back. Some check of R365 or R366 that the
return finds failed: 1 damaged counters, 5 fewer units outstanding than come back. -/
def State.poolReturn (s : State) (id n : Nat) : State × Option Nat :=
  let l := s.ledger id
  if !l.whole then (s, if l.st = .afterFault then none else some 1)
  else if l.writtenOffNow then (s.lateReturn id n, none)
  else if l.outstanding.val.toNat < n then (s, if l.st = .opened then some 5 else none)
  else (s.setLedger id (l.give n), none)

/-- n requests take a buffer credit of a die's network, or an entry of a stack's request queue, and give it back as they pass
(R16, R364; log entry 56). -/
def State.passPool (s : State) (id n : Nat) : State :=
  if (s.ledger id).canTake n then s.setLedger id (((s.ledger id).take n).give n) else s

/-- n requests of core c, to a stack or to none. -/
def State.passCredits (s : State) (c : CoreId) (st : Option StackId) (n : Nat) : State :=
  let s1 := s.passPool (0x50 + c.val / 16) n
  match st with
  | none => s1
  | some k => s1.passPool (0x60 + k.val) n

/-! ### Where an address lies -/

/-- What lies at a data-space address (R21, R22). -/
inductive Region where
  | dram (st : StackId) (c : Nat)
  | sram (st : StackId) (off : Nat)
  | window
  | hub
  | global
  | reserved
  deriving DecidableEq, Repr

/-- The sixteen-way map (R256). -/
def map16 (a : Nat) : StackId × Nat :=
  let b := a / 4096
  let n := (BitVec.ofNat 4 b) ^^^ (BitVec.ofNat 4 (b / 16)) ^^^ (BitVec.ofNat 4 (b / 256)) ^^^
    (BitVec.ofNat 4 (b / 4096))
  (n.toFin, b / 16 * 4096 + a % 4096)

/-- The fifteen-way map that leaves out stack x (R256). -/
def map15 (x a : Nat) : StackId × Nat :=
  let b := a / 4096
  let q := b / 15
  let p := (b % 15 + q) % 15
  (Fin.ofNat 16 (if p < x then p else p + 1), q * 4096 + a % 4096)

/-- The excluded stack of the map in force (R280 ilv_active). -/
def excludedBy (ilv : BitVec 8) : Option Nat := if ilv = 0xFF then none else some ilv.toNat

/-- One past the last DRAM address of data space. -/
def dramEnd (ilv : BitVec 8) : Nat := if ilv = 0xFF then 0x00C000000000 else 0x00B400000000

/-- Stack and stack-local address of a DRAM address of data or instruction space. -/
def dramPlace (ilv : BitVec 8) (a : Nat) : StackId × Nat :=
  match excludedBy ilv with
  | none => map16 a
  | some x => map15 x a

/-- The data space map (R21, R22, R327: 0x0180_040A_0000 to 0x0180_040F_FFFF of the hub buffers are reserved). -/
def regionOf (ilv : BitVec 8) (a : Nat) : Region :=
  if a < dramEnd ilv then
    if dramEnd ilv - 0x4000000 ≤ a then .window
    else .dram (dramPlace ilv a).1 (dramPlace ilv a).2
  else if 0x010000000000 ≤ a ∧ a < 0x010100000000 then
    let st := (a - 0x010000000000) / 0x10000000
    if excludedBy ilv = some st then .reserved
    else .sram (Fin.ofNat 16 st) ((a - 0x010000000000) % 0x10000000)
  else if 0x018000000000 ≤ a ∧ a < 0x0180040A0000 then .hub
  else if 0x8000000000000000 ≤ a ∧ a < 0xC000000000000000 then .global
  else .reserved

def State.region (s : State) (a : Nat) : Region := regionOf s.scfg.ilvActive a

/-- Stack that holds an address reached by a core, or none (hub buffers). -/
def Region.stack? : Region → Option StackId
  | .dram st _ => some st
  | .sram st _ => some st
  | _ => none

/-- A core, stream or engine may reach the region (R22 to R24). -/
def Region.mapped : Region → Bool
  | .dram _ _ => true
  | .sram _ _ => true
  | .hub => true
  | _ => false

/-- Bank and row of stack-local address c (R257). -/
def bankRow (c : Nat) : Nat × Nat :=
  let u := c / 2048
  (Nat.xor (Nat.xor (u % 1024) (u / 1024 % 1024)) (u / 1048576 % 1024), u / 1024)

/-- Bank group of stack-local address c (R257). -/
def bankGroup (c : Nat) : Nat := (bankRow c).1 % 64

/-- One past the last address of instruction store (R69). -/
def istoreEnd (ilv : BitVec 8) : Nat := if ilv = 0xFF then 0x40000000 else 0x3C000000

/-- First address of the len bytes at a (modulo 2^64) that a core cannot reach, looking at each 4 KiB
block once; a region never changes inside a block. -/
def State.firstUnmappedFrom (s : State) : Nat → Nat → Nat → Option Nat
  | 0, _, _ => none
  | fuel + 1, a, stop =>
    if stop ≤ a then none
    else if (s.region (a % 2 ^ 64)).mapped then s.firstUnmappedFrom fuel (a / 4096 * 4096 + 4096) stop
    else some (a % 2 ^ 64)

def State.firstUnmapped (s : State) (a len : Nat) : Option Nat :=
  s.firstUnmappedFrom (len / 4096 + 2) a (a + len)

/-- First byte of the range that lies in hub buffers. -/
def State.firstHubFrom (s : State) : Nat → Nat → Nat → Option Nat
  | 0, _, _ => none
  | fuel + 1, a, stop =>
    if stop ≤ a then none
    else if s.region (a % 2 ^ 64) = .hub then some (a % 2 ^ 64)
    else s.firstHubFrom fuel (a / 4096 * 4096 + 4096) stop

def State.firstHub (s : State) (a len : Nat) : Option Nat :=
  s.firstHubFrom (len / 4096 + 2) a (a + len)

/-! ### Stacks: corrected and uncorrectable words -/

/-- Key of a row in the sparse tables of a stack. -/
def rowKey (bank row : Nat) : Nat := 32768 * bank + row

/-- R265: a corrected word of a row; a row whose count has reached ce_thr is copied to a spare, or SPARES_OUT is written. A
row whose copy runs is not copied again. -/
def State.countCorrected (s : State) (st : StackId) (row : Option (Nat × Nat)) : State :=
  let k := s.stack st
  let k1 := { k with ce := k.ce + 1 }
  match row with
  | none => s.setStack st k1
  | some (b, r) =>
    let n := countGet k1.rowErrors (rowKey b r) + 1
    let k2 := { k1 with rowErrors := countSet k1.rowErrors (rowKey b r) n }
    if n < s.scfg.ceThr.toNat ∨ k2.copies.any (fun j => j.bank.val == b && j.row == r) then s.setStack st k2
    else
      let used := countGet k2.spareUsed b
      if used < 64 then
        s.setStack st { k2 with spareUsed := countSet k2.spareUsed b (used + 1),
                                copies := k2.copies ++ [⟨Fin.ofNat 1024 b, r, used⟩] }
      else if k2.sparesOut.contains b then s.setStack st k2
      else
        (s.setStack st { k2 with sparesOut := k2.sparesOut ++ [b] }).log 4 0x0504 (w32 st.val) (w32 b) 0 0

/-- A word of a stack as its records name it: stack, location and memory code (R281). -/
structure WordPlace where
  st : StackId
  loc : Nat
  memory : Nat
  deriving DecidableEq, Repr

/-- Bank and row of a DRAM word; staging SRAM has no row sparing (R268). -/
def WordPlace.row (p : WordPlace) : Option (Nat × Nat) :=
  if p.memory = 0 then some (bankRow p.loc)
  else if p.memory = 1 then some ((bankRow p.loc).1, (bankRow p.loc).2 + 24576)
  else none

/-- Data-space word at byte address a. -/
def State.placeOf (s : State) (a : Nat) : Option WordPlace :=
  match s.region a with
  | .dram st c => some ⟨st, c, 0⟩
  | .sram st o => some ⟨st, o, 2⟩
  | .window => some ⟨(dramPlace s.scfg.ilvActive a).1, (dramPlace s.scfg.ilvActive a).2, 0⟩
  | _ => none

/-- Instruction-space word at byte address a (R257). -/
def State.placeOfInst (s : State) (a : Nat) : WordPlace :=
  ⟨(dramPlace s.scfg.ilvActive a).1, (dramPlace s.scfg.ilvActive a).2, 1⟩

/-- Poisoned words of the last second, the new one included (R278). -/
def pushPoisonTime (now : Nat) (ts : List Nat) : List Nat :=
  now :: ts.filter fun t => decide (now < t + 100000000)

/-- R260: UE_POISON and ue for a word marked poisoned; src 0 read, 1 scrub, 2 scatter-add. -/
def State.notePoison (s : State) (p : WordPlace) (src : Nat) : State :=
  let k := s.stack p.st
  (s.setStack p.st { k with ue := k.ue + 1, poisonTimes := pushPoisonTime s.time k.poisonTimes }).log
    3 0x0502 (w32 p.st.val) (w32 p.loc) (w32 (p.loc / 2 ^ 32 % 256 + p.memory * 2 ^ 30)) (w32 src)

/-- Two or more of the three poison copies are 1 (R259). -/
def poisonMajority (p : BitVec 3) : Bool :=
  (p.getLsbD 0 && p.getLsbD 1) || (p.getLsbD 0 && p.getLsbD 2) || (p.getLsbD 1 && p.getLsbD 2)

/-- The poison mark of word n (R259). -/
def poisonGet (m : Sparse (BitVec 3)) (n : Nat) : Bool := poisonMajority (sparseGet (fun _ => 0) m n)

/-- All three copies of word n written. -/
def poisonSet (m : Sparse (BitVec 3)) (n : Nat) (b : Bool) : Sparse (BitVec 3) :=
  sparseSet (fun _ => 0) m n (if b then 7 else 0)

/-- The 272 bits of data word n as R259 stores them. -/
def Mem.eccWord (m : Mem) (n : Nat) : BitVec 272 :=
  let data := BitVec.ofNat 256 (leNat (cellsGet m.data (32 * n) 32))
  let tag0 := BitVec.ofBool (flagGet m.tags (2 * n))
  let tag1 := BitVec.ofBool (flagGet m.tags (2 * n + 1))
  0#1 ++ sparseGet (fun _ => (0 : BitVec 3)) m.poison n ++ tag1 ++ tag0 ++ Config.eccCheck (tag1 ++ tag0 ++ data) ++ data

/-- Data word n (byte address 32 n) takes its poison mark; its data bits stay and its tags go. -/
def Mem.markPoison (m : Mem) (n : Nat) : Mem :=
  { m with poison := poisonSet m.poison n true,
           tags := flagSet (flagSet m.tags (2 * n) false) (2 * n + 1) false }

/-- The stack is fenced: it serves nothing (R278). -/
def State.stackFenced (s : State) (st : StackId) : Bool := decide ((s.stack st).st = .fenced)

/-- Stack whose DRAM or staging SRAM holds data-space address a, the hub firmware window included. -/
def State.homeStack (s : State) (a : Nat) : Option StackId := (s.placeOf a).map WordPlace.st

/-! ### L2 slices (R252, R253) -/

/-- Line n of data space (or of instruction space) is held in its home L2 slice. -/
def State.l2Has (s : State) (inst : Bool) (n : Nat) : Bool := s.mem.l2.any fun l => l.inst == inst && l.addr == n

/-- Die and slice of the home of a line: by its stack and line address bits [8:7] and [13:12] (R252). -/
def l2Slice (st : StackId) (n : Nat) : Nat × Nat :=
  (st.val / 4, 4 * (st.val % 4) + Nat.xor (n % 4) (n / 32 % 4))

/-- Slice and set of a line. -/
def State.l2Place (s : State) (inst : Bool) (n : Nat) : Option (Nat × Nat) × Fin 1024 :=
  ((if inst then some (s.placeOfInst (128 * n)).st else s.homeStack (128 * n)).map fun st => l2Slice st n, Config.l2Set n)

/-- The presence vector of line n: bit c set where core c holds a copy (R253). -/
def State.presence (s : State) (n : Nat) : BitVec 64 :=
  (List.finRange 64).foldl (fun v c =>
    let k := (s.core c).cache
    if (k.l1 ++ k.victim ++ k.miss.toList).any (fun l => l.addr == n) then v ||| (1 <<< c.val) else v) 0

/-- The core that holds line n dirty, if one does (R253). -/
def State.dirtyOwner (s : State) (n : Nat) : Option CoreId :=
  (List.finRange 64).find? fun c =>
    let k := (s.core c).cache
    (k.l1 ++ k.victim ++ k.miss.toList).any fun l => l.addr == n && l.dirty

/-- Line n of data space differs from its stack's copy: the L2 slice holds what was written. -/
def Mem.l2Dirty (m : Mem) (n : Nat) : Mem :=
  { m with l2 := m.l2.map fun l => if l.inst = false ∧ l.addr = n then { l with dirty := true } else l }

/-- A line is dropped from its L2 slice. -/
def Mem.l2Drop (m : Mem) (inst : Bool) (n : Nat) : Mem :=
  { m with l2 := m.l2.filter fun l => !(l.inst == inst && l.addr == n) }

/-! ### Row activations (R267) -/

/-- Activations counted for a row: its counter, or the spillover counter. -/
def ActTrack.count (t : ActTrack) (row : Nat) : Nat :=
  match t.rows.find? fun e => e.1 == row with
  | some e => e.2
  | none => t.spill

/-- One activation: a row with a counter, a free counter, a counter no higher than the spillover count, or that count. -/
def ActTrack.bump (t : ActTrack) (row : Nat) : ActTrack :=
  if t.rows.any fun e => e.1 == row then
    { t with rows := t.rows.map fun e => if e.1 == row then (row, e.2 + 1) else e }
  else if t.rows.length < 256 then { t with rows := t.rows ++ [(row, t.spill + 1)] }
  else
    match t.rows.find? fun e => decide (e.2 ≤ t.spill) with
    | some o => { t with rows := t.rows.map fun e => if e.1 == o.1 then (row, t.spill + 1) else e }
    | none => { t with spill := t.spill + 1 }

/-- The rows within two of a row are refreshed, and its count starts again. -/
def ActTrack.refreshed (t : ActTrack) (row : Nat) : ActTrack := { t with rows := t.rows.filter fun e => e.1 != row }

def Stack.track (k : Stack) (bank : Nat) : ActTrack := sparseGet (fun _ => ⟨[], 0⟩) k.act bank

def Stack.setTrack (k : Stack) (bank : Nat) (t : ActTrack) : Stack :=
  { k with act := sparseSet (fun _ => ⟨[], 0⟩) k.act bank t }

/-- A targeted refresh of the neighbours of a row (R267). -/
def Stack.targetedRefresh (k : Stack) (bank row : Nat) : Stack :=
  { k.setTrack bank ((k.track bank).refreshed row) with trr := k.trr + 1 }

/-- A row of a bank is activated; a row that stands at act_thr has its neighbours refreshed first (R267). -/
def Stack.activate (k : Stack) (thr bank row : Nat) : Stack :=
  let k1 := if thr ≤ (k.track bank).count row then k.targetedRefresh bank row else k
  k1.setTrack bank ((k1.track bank).bump row)

/-- The row of a word is activated; staging SRAM has no activation tracking, and a fenced stack serves nothing (R268, R278). -/
def State.activateAt (s : State) (p : WordPlace) : State :=
  match p.row with
  | none => s
  | some (b, r) =>
    if s.stackFenced p.st then s else s.setStack p.st ((s.stack p.st).activate s.scfg.actThr.toNat b r)

/-- A line of [a, stop) is not held in L2, so the access goes to the stack. -/
def State.l2MissFrom (s : State) : Nat → Nat → Nat → Bool
  | 0, _, _ => false
  | fuel + 1, n, stop => decide (128 * n < stop) && (!s.l2Has false n || s.l2MissFrom fuel (n + 1) stop)

/-- The rows that an access to the len bytes at a activates: one for each 2 KiB block that L2 does not serve (R255). -/
def State.activateFrom (s : State) : Nat → Nat → Nat → State
  | 0, _, _ => s
  | fuel + 1, a, stop =>
    if stop ≤ a then s
    else
      let next := a / 2048 * 2048 + 2048
      let s1 :=
        if s.l2MissFrom 17 (a / 128) (min next stop) then
          match s.placeOf a with
          | none => s
          | some p => s.activateAt p
        else s
      s1.activateFrom fuel next stop

def State.activate (s : State) (a len : Nat) : State := s.activateFrom (len / 2048 + 2) a (a + len)

/-! ### Errors that reads find (R260) -/

/-- R259, R260: the poison copies of data word n disagree: the majority stands, and a corrected word is counted. -/
def State.settlePoison (s : State) (n : Nat) : State :=
  let p := sparseGet (fun _ => 0) s.mem.poison n
  match s.placeOf (32 * n) with
  | none => s
  | some w =>
    if p = 0 ∨ p = 7 ∨ s.stackFenced w.st then s
    else (s.setMem { s.mem with poison := poisonSet s.mem.poison n (poisonMajority p) }).countCorrected w.st w.row

/-- The stack's copy of data word n is marked poisoned. While its L2 slice holds the line, the copy there stands in front of
the stack's and keeps its data, tags and mark (R254, R260; log entry 155). -/
def State.markWord (s : State) (n : Nat) : State :=
  if s.l2Has false (n / 4) then s.setMem { s.mem with latent := sparseSet (fun _ => Latent.none) s.mem.latent n .marked }
  else s.setMem ({ s.mem with latent := sparseErase s.mem.latent n }.markPoison n)

/-- The same for a word of instruction store. -/
def State.markInst (s : State) (n : Nat) : State :=
  if s.l2Has true (n / 4) then s.setMem { s.mem with ilatent := sparseSet (fun _ => Latent.none) s.mem.ilatent n .marked }
  else s.setMem { s.mem with ilatent := sparseErase s.mem.ilatent n, ipoison := poisonSet s.mem.ipoison n true }

/-- R260: a read by `src` reaches data word n and finds a latent error. A word of a fenced stack shows no error but the loss
of a write. -/
def State.findError (s0 : State) (n src : Nat) : State :=
  let s := s0.settlePoison n
  match sparseGet (fun _ => Latent.none) s.mem.latent n, s.placeOf (32 * n) with
  | .none, _ => s
  | _, none => s
  | .correctable, some p =>
    if s.stackFenced p.st then s
    else (s.setMem { s.mem with latent := sparseErase s.mem.latent n }).countCorrected p.st p.row
  | .uncorrectable, some p => if s.stackFenced p.st then s else (s.markWord n).notePoison p src
  | .lost, some p => (s.markWord n).notePoison p src
  | .marked, some p => if s.stackFenced p.st then s else s.markWord n

/-- Words of [a, a + len) that hold an error, in address order. -/
def errorsIn (latent : Sparse Latent) (poison : Sparse (BitVec 3)) (a len : Nat) : List Nat :=
  let here := fun n : Nat => decide (0 < len ∧ a < 32 * n + 32 ∧ 32 * n < a + len)
  ((latent.filter fun e => decide (e.2 ≠ Latent.none) && here e.1).map fun e => e.1) ++
  ((poison.filter fun e => decide (e.2 ≠ 0 ∧ e.2 ≠ 7) && here e.1).map fun e => e.1)

/-- A read by `src` of [a, a + len) that goes to the stacks: rows are activated, and every error it reaches is found. A line
held in L2 is served from there (R254). -/
def State.settle (s : State) (a len src : Nat) : State :=
  ((errorsIn s.mem.latent s.mem.poison a len).filter fun n => !s.l2Has false (n / 4)).foldl (fun t n => t.findError n src)
    (s.activate a len)

/-- The same for a word of instruction store. -/
def State.findErrorInst (s0 : State) (n src : Nat) : State :=
  let p := s0.placeOfInst (32 * n)
  let q := sparseGet (fun _ => 0) s0.mem.ipoison n
  let s :=
    if q = 0 ∨ q = 7 ∨ s0.stackFenced p.st then s0
    else (s0.setMem { s0.mem with ipoison := poisonSet s0.mem.ipoison n (poisonMajority q) }).countCorrected p.st p.row
  match sparseGet (fun _ => Latent.none) s.mem.ilatent n with
  | .none => s
  | .correctable =>
    if s.stackFenced p.st then s
    else (s.setMem { s.mem with ilatent := sparseErase s.mem.ilatent n }).countCorrected p.st p.row
  | .uncorrectable => if s.stackFenced p.st then s else (s.markInst n).notePoison p src
  | .lost => (s.markInst n).notePoison p src
  | .marked => if s.stackFenced p.st then s else s.markInst n

/-- A read of instruction store that goes to the stacks. -/
def State.settleInst (s : State) (a len : Nat) : State :=
  (errorsIn s.mem.ilatent s.mem.ipoison a len).foldl (fun t n => t.findErrorInst n 0) (s.activateAt (s.placeOfInst a))

/-- The home word that holds byte a reads poisoned: its mark, or a fenced stack where no L2 slice serves it (R254, R259,
R278). -/
def State.wordPoisoned (s : State) (a : Nat) : Bool :=
  match s.homeStack a with
  | none => false
  | some st => (s.stackFenced st && !s.l2Has false (a / 128)) || poisonGet s.mem.poison (a / 32)

/-- First address of a poisoned word that [a, a + len) touches. -/
def State.firstPoisonFrom (s : State) : Nat → Nat → Nat → Option Nat
  | 0, _, _ => none
  | fuel + 1, w, stop =>
    if stop ≤ 32 * w then none
    else if s.wordPoisoned (32 * w) then some (32 * w) else s.firstPoisonFrom fuel (w + 1) stop

def State.firstPoison (s : State) (a len : Nat) : Option Nat :=
  if len = 0 then none else s.firstPoisonFrom (len / 32 + 2) (a / 32) (a + len)

/-- Bytes of the homes. -/
def State.homeBytes (s : State) (a len : Nat) : List Byte := cellsGet s.mem.data a len

/-- Tag of the granule that holds byte a; hub buffers hold none. -/
def State.homeTag (s : State) (a : Nat) : Bool :=
  match s.homeStack a with
  | none => false
  | some _ => flagGet s.mem.tags (a / 16)

/-! ### Writes that do not see the caches (R67, R254) -/

/-- Byte i of a cached line is marked as reached by such a write. -/
def clobberLine (i : Nat) (l : CacheLine) : CacheLine :=
  { l with line := { l.line with clobbered := vset l.line.clobbered i true } }

/-- Lines of one list that hold line n, changed by f. -/
def mapLine (n : Nat) (f : CacheLine → CacheLine) (ls : List CacheLine) : List CacheLine :=
  ls.map fun l => if l.addr = n then f l else l

/-- Every copy of line n in one core's caches, changed by f. -/
def Caches.mapCopies (k : Caches) (n : Nat) (f : CacheLine → CacheLine) : Caches :=
  { k with l1 := mapLine n f k.l1, victim := mapLine n f k.victim,
           miss := k.miss.map fun l => if l.addr = n then f l else l }

/-- The core holds a copy of line n. -/
def Caches.holds (k : Caches) (n : Nat) : Bool :=
  k.l1.any (fun l => l.addr == n) || k.victim.any (fun l => l.addr == n) ||
    (match k.miss with | none => false | some l => l.addr == n)

/-- Every core's copies of line n, changed by f. -/
def State.mapCopies (s : State) (n : Nat) (f : CacheLine → CacheLine) : State :=
  { s with cores := vmap s.cores fun x =>
      if x.cache.holds n then { x with cache := x.cache.mapCopies n f } else x }

/-- Home tags of the granules that hold bytes of [a, a + len) go (R93). -/
def clearTags (t : Sparse Bool) : Nat → Nat → Sparse Bool
  | _, 0 => t
  | g, n + 1 => clearTags (flagSet t g false) (g + 1) n

/-- A write of bytes bs at a, all inside one ECC word, to a stack: tags go, and a write of the whole word clears its mark and
any error it holds (R93, R262). -/
def Mem.putWord (m : Mem) (a : Nat) (bs : List Byte) : Mem :=
  let full := decide (bs.length = 32)
  { m with
    data := cellsSet m.data a bs,
    tags := clearTags m.tags (a / 16) ((a + bs.length - 1) / 16 + 1 - a / 16),
    poison := if full then poisonSet m.poison (a / 32) false else m.poison,
    latent := if full then sparseErase m.latent (a / 32) else m.latent }

/-- The words of the len bytes at a lose a write (R260): a read that reaches them finds it. -/
def Mem.lose (m : Mem) (a len : Nat) : Mem :=
  let words := List.range ((a + len + 31) / 32 - a / 32)
  { m with latent := words.foldl (fun l i => sparseSet (fun _ => Latent.none) l (a / 32 + i) .lost) m.latent }

/-- A write to one ECC word by a unit that does not see the L1 caches: a line held in L2 is updated there, else the stack is
written (R254). A fenced stack discards it, which a later read finds (R260, R278). -/
def State.writeWord (s : State) (a : Nat) (bs : List Byte) : State :=
  match s.region a with
  | .hub => s.setMem { s.mem with data := cellsSet s.mem.data a bs }
  | _ =>
    match s.homeStack a with
    | none => s
    | some st =>
      let held := s.l2Has false (a / 128)
      if s.stackFenced st && !held then
        s.setMem (s.mem.lose a bs.length)
      else
        let m := s.mem.putWord a bs
        let s1 := s.setMem (if held then { m.l2Dirty (a / 128) with latent := s.mem.latent } else m)
        if s.cores.toList.any (fun x => x.cache.holds (a / 128)) then
          s1.mapCopies (a / 128) fun l =>
            (List.range bs.length).foldl (fun l' i => clobberLine (a % 128 + i) l') l
        else s1

/-- A discarded write to a fenced stack is counted once per 2 KiB block (log entry 12). -/
def State.countFencedWrite (s : State) (a : Nat) : State :=
  match s.homeStack a with
  | none => s
  | some st =>
    if s.stackFenced st && !s.l2Has false (a / 128) then
      let k := s.stack st
      s.setStack st { k with fencedWr := k.fencedWr + 1 }
    else s

/-- A write of len bytes at a that a fenced stack discards: counted in each 2 KiB block (R278; log entry 12). -/
def State.discardWrite (s : State) (a len : Nat) : State :=
  (List.range ((a + len + 2047) / 2048 - a / 2048)).foldl (fun t i => t.countFencedWrite (max a (2048 * (a / 2048 + i))))
    (s.setMem (s.mem.lose a len))

/-- Bytes bs written at a by one access of a stream, drain, engine or the hub. -/
def State.writeHomeFrom (s : State) : Nat → Bool → Nat → List Byte → State
  | 0, _, _, _ => s
  | fuel + 1, first, a, bs =>
    match bs with
    | [] => s
    | _ =>
      let n := 32 - a % 32
      let s1 := if first ∨ a % 2048 = 0 then s.countFencedWrite a else s
      (s1.writeWord a (bs.take n)).writeHomeFrom fuel false (a + n) (bs.drop n)

def State.writeHome (s : State) (a : Nat) (bs : List Byte) : State :=
  (s.activate a bs.length).writeHomeFrom (bs.length / 32 + 2) true a bs

/-- Whole words of line n of instruction store are written, from its first on; their marks and errors go (R68, R262). A copy in
L2 is never dirty (R252): the write reaches the stack too, and a fenced stack discards it. -/
def State.writeInstLine (s : State) (n : Nat) (bs : List Byte) : State :=
  let p := s.placeOfInst (128 * n)
  let words := (List.range (bs.length / 32)).map fun w => 4 * n + w
  if s.stackFenced p.st then
    (s.setStack p.st { s.stack p.st with fencedWr := (s.stack p.st).fencedWr + 1 }).setMem
      { s.mem.l2Drop true n with
        ilatent := words.foldl (fun m w => sparseSet (fun _ => Latent.none) m w .lost) s.mem.ilatent }
  else
    (s.activateAt p).setMem { s.mem with
      istore := cellsSet s.mem.istore (128 * n) bs
      ipoison := words.foldl (fun m w => poisonSet m w false) s.mem.ipoison
      ilatent := words.foldl sparseErase s.mem.ilatent }

/-- Words written to instruction store from line n on. -/
def State.writeInstFrom (s : State) : Nat → Nat → List Byte → State
  | 0, _, _ => s
  | fuel + 1, n, bs =>
    if bs.isEmpty then s else (s.writeInstLine n (bs.take 128)).writeInstFrom fuel (n + 1) (bs.drop 128)

/-! ### Lines -/

/-- The home's copy of line n, as a fill delivers it. -/
def State.homeLine (s : State) (n : Nat) : Line :=
  { bytes := Vector.ofFn fun i : Fin 128 => cellGet s.mem.data (128 * n + i.val)
    tags := Vector.ofFn fun i : Fin 8 => s.homeTag (128 * n + 16 * i.val)
    poison := Vector.ofFn fun i : Fin 4 => s.wordPoisoned (128 * n + 32 * i.val)
    written := Vector.replicate 128 false
    clobbered := Vector.replicate 128 false }

/-- Stores have written every byte of word w of the line. -/
def Line.wordWritten (l : Line) (w : Nat) : Bool :=
  (List.range 32).all fun i => vget l.written (32 * w + i) false

/-- Byte the home takes for byte i of a written-back line: the line's, or, where another write reached
the home since, either (R254: a free choice). -/
def backByte (free : BitVec 128) (home : Byte) (l : Line) (i : Nat) : Byte :=
  if vget l.clobbered i false ∧ free.getLsbD i then home else vget l.bytes i 0

/-- A byte of a granule has been reached by another write since. -/
def Line.clobberedIn (l : Line) (g : Nat) : Bool := (List.range 16).any fun i => vget l.clobbered (16 * g + i) false

/-- One ECC word of a dirty line goes to its home in L2 (R262): poisoned stays poisoned; a home mark goes only when stores
wrote the whole word. A granule that another write reached keeps no tag (R93, R94). -/
def Mem.backWord (m : Mem) (free : BitVec 128) (n w : Nat) (l : Line) : Mem :=
  let a := 128 * n + 32 * w
  let bad := vget l.poison w false || (poisonGet m.poison (a / 32) && !l.wordWritten w)
  let bs := (List.range 32).map fun i => backByte free (cellGet m.data (a + i)) l (32 * w + i)
  let m1 := { m with data := cellsSet m.data a bs, poison := poisonSet m.poison (a / 32) bad }
  let t0 := vget l.tags (2 * w) false && !bad && !l.clobberedIn (2 * w)
  let t1 := vget l.tags (2 * w + 1) false && !bad && !l.clobberedIn (2 * w + 1)
  { m1 with tags := flagSet (flagSet m1.tags (a / 16) t0) (a / 16 + 1) t1 }

/-- A dirty L1 line goes back to its home L2 slice, which includes it (R85, R253). -/
def State.writeBack (s : State) (n : Nat) (l : Line) : State :=
  match s.homeStack (128 * n) with
  | none => s
  | some _ =>
    let (f, s1) := if l.clobbered.toList.any id then s.takeFree2 else (0, s)
    s1.setMem (((((s1.mem.backWord f n 0 l).backWord f n 1 l).backWord f n 2 l).backWord f n 3 l).l2Dirty n)

/-- The dirty copy of line n in one core's caches, if it holds one. -/
def Caches.dirtyCopy (k : Caches) (n : Nat) : Option Line :=
  match (k.l1 ++ k.victim ++ k.miss.toList).find? fun l => l.addr == n && l.dirty with
  | none => none
  | some l => some l.line

/-- Every dirty copy of line n is written back; the copies stay valid (R67). -/
def State.cleanLine (s : State) (n : Nat) : State :=
  match s.cores.toList.findSome? fun x => x.cache.dirtyCopy n with
  | none => s
  | some l => (s.writeBack n l).mapCopies n fun k => { k with dirty := false }

/-- The copies of line n that one core holds are dropped. -/
def Caches.drop (k : Caches) (n : Nat) : Caches :=
  { k with l1 := k.l1.filter (fun l => l.addr != n), victim := k.victim.filter (fun l => l.addr != n),
           miss := match k.miss with
                   | none => none
                   | some l => if l.addr = n then none else some l }

/-- Every copy of line n but core c's is dropped (c = none: every copy), as a store needs (R86). -/
def State.dropCopies (s : State) (n : Nat) (but : Option CoreId) : State :=
  { s with cores := s.cores.mapFinIdx fun i x _ =>
      if (match but with | none => false | some c => decide (c.val = i)) then x
      else if x.cache.holds n then { x with cache := x.cache.drop n } else x }

/-- An evicted line of L2 goes to its stack: a dirty line is written, which replaces every word there; a fenced stack discards
it (R253, R278). -/
def State.l2Retire (s : State) (l : L2Line) : State :=
  let n := l.addr
  if l.inst ∨ l.dirty = false then s.setMem (s.mem.l2Drop l.inst n)
  else
    let s1 := (s.activateAt ((s.placeOf (128 * n)).getD ⟨0, 0, 2⟩)).setMem (s.mem.l2Drop false n)
    if (s1.homeStack (128 * n)).any s1.stackFenced then s1.discardWrite (128 * n) 128
    else s1.setMem { s1.mem with latent := [4 * n, 4 * n + 1, 4 * n + 2, 4 * n + 3].foldl sparseErase s1.mem.latent }

/-- A line leaves L2: every L1 copy is invalidated, a dirty copy written back, and the line goes to its stack (R253). -/
def State.l2Evict (s : State) (l : L2Line) : State :=
  if l.inst then s.l2Retire l
  else
    let s1 := (s.cleanLine l.addr).dropCopies l.addr none
    s1.l2Retire ((s1.mem.l2.find? fun k => k.inst == false && k.addr == l.addr).getD l)

/-- Room for a line in its set of 16 ways; which line a full set gives up is open, a free choice (log entry 13). -/
def State.l2Room (s : State) (inst : Bool) (n : Nat) : State :=
  let set := s.mem.l2.filter fun l => s.l2Place l.inst l.addr == s.l2Place inst n
  if set.length < 16 then s
  else
    match s.takeFree with
    | (f, s1) =>
      match set[f.toNat % set.length]? with
      | none => s1
      | some l => s1.l2Evict l

/-- Line n of data space is brought into its home slice: the stack is read, and its errors found. A line of a fenced stack
comes poisoned (R253, R278). -/
def State.l2Fill (s : State) (n : Nat) : State :=
  if s.l2Has false n then s
  else
    let s1 := (s.l2Room false n).settle (128 * n) 128 0
    let m := if (s1.homeStack (128 * n)).any s1.stackFenced then
        (((s1.mem.markPoison (4 * n)).markPoison (4 * n + 1)).markPoison (4 * n + 2)).markPoison (4 * n + 3)
      else s1.mem
    s1.setMem { m with l2 := m.l2 ++ [⟨false, n, false⟩] }

/-- Lines of the L1 set of line n. -/
def Caches.setOf (k : Caches) (n : Nat) : List CacheLine := k.l1.filter fun l => l.addr % 128 == n % 128

/-- One step of a register of the polynomial x^16 + x^14 + x^13 + x^11 + 1 (R85) in a form. -/
def lfsrStep (form : Config.LfsrForm) (x : BitVec 16) : BitVec 16 :=
  let bit := fun n : Nat => BitVec.ofBool (x.getLsbD n)
  match form with
  | .fibonacciRight => (bit 0 ^^^ bit 2 ^^^ bit 3 ^^^ bit 5) ++ x.extractLsb' 1 15
  | .fibonacciLeft => x.extractLsb' 0 15 ++ (bit 15 ^^^ bit 13 ^^^ bit 12 ^^^ bit 10)
  | .galoisRight => if x.getLsbD 0 then (x >>> 1) ^^^ 0xB400 else x >>> 1
  | .galoisLeft => if x.getLsbD 15 then (x <<< 1) ^^^ 0x6801 else x <<< 1

/-- One step of the replacement generator (R85; log entry 19). -/
def rplStep (x : BitVec 16) : BitVec 16 := lfsrStep Config.rplForm x

/-- The lowest way of a set that holds no line (log entry 114: R85 gives the choice of a line to be replaced only). -/
def freeWay (ls : List CacheLine) : Option (Fin 4) :=
  [0, 1, 2, 3].find? fun w => !ls.any fun l => l.way == w

/-- A line enters the L1 data cache: rplfsr advances once at each allocation; in a full set way rplfsr[1:0] is replaced,
moves to the victim cache, and the oldest of more than 16 lines there leaves it (R85). A set with an empty way takes the
lowest of them (log entry 114). -/
def State.allocate (s : State) (c : CoreId) (l : CacheLine) : State :=
  let x := s.core c
  let r := rplStep x.ctl.rplfsr
  let k := x.cache
  let ctl := { x.ctl with rplfsr := r }
  match freeWay (k.setOf l.addr) with
  | some w => s.setCore c { x with ctl := ctl, cache := { k with l1 := k.l1 ++ [{ l with way := w }] } }
  | none =>
    let w : Fin 4 := (r.extractLsb' 0 2).toFin
    let out := k.l1.filter fun o => o.addr % 128 == l.addr % 128 && o.way == w
    let keep := k.l1.filter fun o => !(o.addr % 128 == l.addr % 128 && o.way == w)
    let v := k.victim ++ out
    let (gone, v') := if 16 < v.length then (v.take (v.length - 16), v.drop (v.length - 16)) else ([], v)
    let s1 := s.setCore c
      { x with ctl := ctl, cache := { k with l1 := keep ++ [{ l with way := w }], victim := v' } }
    gone.foldl (fun t o => if o.dirty then t.writeBack o.addr o.line else t) s1

/-- The outstanding miss returns and fills the L1 data cache (R85). -/
def State.fillMiss (s : State) (c : CoreId) : State :=
  let x := s.core c
  match x.cache.miss with
  | none => s
  | some l => (s.setCore c { x with cache := { x.cache with miss := none } }).allocate c l

/-- Core c holds line n afterwards, alone when it is to write it (R66, R85, R86). A miss is a request to the home slice, and to
its stack where the slice does not hold the line (R16, R253). A line that a hit in the victim cache brings back is allocated
like any other (log entry 114). -/
def State.touchLine (s : State) (c : CoreId) (n : Nat) (own : Bool) : State :=
  let k := (s.core c).cache
  if k.l1.any (fun l => l.addr == n) || (match k.miss with | none => false | some l => l.addr == n) then
    if own then s.dropCopies n (some c) else s
  else
    match k.victim.find? fun l => l.addr == n with
    | some l =>
      let s1 := if own then s.dropCopies n (some c) else s
      let x := s1.core c
      (s1.setCore c { x with cache := { x.cache with victim := x.cache.victim.filter fun o => o.addr != n } }).allocate c l
    | none =>
      let s1 := (s.fillMiss c).cleanLine n
      let s2 := if own then s1.dropCopies n (some c) else s1
      let s3 := (s2.l2Fill n).passCredits c (if s2.l2Has false n then none else s2.homeStack (128 * n)) 1
      let x := s3.core c
      s3.setCore c { x with cache := { x.cache with miss := some ⟨n, 0, false, s3.homeLine n⟩ } }

/-- The line as core c holds it. -/
def CoreState.heldLine (x : CoreState) (n : Nat) : Option Line :=
  match (x.cache.l1 ++ x.cache.miss.toList).find? fun l => l.addr == n with
  | none => none
  | some l => some l.line

/-- Bytes stored into a held line, one at a time: written marks, tags gone, and the poison mark of a
word that stores have now covered gone (R93, R262). -/
def Line.storeByte (l : Line) (i : Nat) (b : Byte) : Line :=
  let l1 := { l with bytes := vset l.bytes i b, written := vset l.written i true,
                     tags := vset l.tags (i / 16) false, clobbered := vset l.clobbered i false }
  if vget l1.poison (i / 32) false && l1.wordWritten (i / 32) then
    { l1 with poison := vset l1.poison (i / 32) false }
  else l1

def Line.storeBytes (l : Line) (i : Nat) : List Byte → Line
  | [] => l
  | b :: bs => (l.storeByte i b).storeBytes (i + 1) bs

/-! ### Scalar accesses -/

/-- What a scalar read returns: bytes, tag of the first granule, and the poison of the touched words. -/
structure ScalarRead where
  bytes : List Byte
  tag : Bool
  poison : Bool
  deriving DecidableEq, Repr

/-- A scalar read of len bytes inside one line, coherent (R66, R86). Hub buffers are not cached (R252). -/
def State.scalarRead (s : State) (c : CoreId) (a len : Nat) : State × ScalarRead :=
  match s.region a with
  | .hub => (s.passCredits c none 1, ⟨s.homeBytes a len, false, false⟩)
  | _ =>
    let s1 := s.touchLine c (a / 128) false
    match (s1.core c).heldLine (a / 128) with
    | none => (s1, ⟨List.replicate len 0, false, false⟩)
    | some l =>
      let o := a % 128
      (s1, ⟨(List.range len).map (fun i => vget l.bytes (o + i) 0), vget l.tags (o / 16) false,
            (List.range len).any fun i => vget l.poison ((o + i) / 32) false⟩)

/-- A scalar write of bytes inside one line; `tag` = true stores a tagged capability (R93, R262). -/
def State.scalarWrite (s : State) (c : CoreId) (a : Nat) (bs : List Byte) (tag : Bool) : State :=
  match s.region a with
  | .hub => (s.passCredits c none 1).setMem { s.mem with data := cellsSet s.mem.data a bs }
  | _ =>
    let n := a / 128
    let s1 := s.touchLine c n true
    s1.mapCore c fun x => { x with cache := x.cache.mapCopies n fun k =>
      let was := vget k.line.poison (a % 128 / 32) false
      let l := k.line.storeBytes (a % 128) bs
      let l' := if tag && !was then { l with tags := vset l.tags (a % 128 / 16) true } else l
      { k with dirty := true, line := l' } }

/-- R65 step 6 and FABRIC for the len bytes of the access at a (R21, R22). -/
def State.mapCauses (s : State) (k : Cap) (r : BitVec 4) (a : Word) (len : Nat) : List Cause :=
  failIf (s.firstUnmapped a.toNat len).isSome (cUNMAPPED a r) ++
  failIf (!k.has permFabric && (s.firstHub a.toNat len).isSome) (cCAPPERM a r)

/-- R65 steps 1 to 6: one access of len bytes at a, aligned to `align`, needing the permissions. -/
def State.accessCauses (s : State) (k : Cap) (r : BitVec 4) (needs : List Nat) (a : Word)
    (len align : Nat) : List Cause :=
  capUseCauses k r needs a ++ capBoundsCauses k r a len ++ alignCauses r a align ++ s.mapCauses k r a len

end Sys2Proof.Machine
end

