-- ==== Sys2Proof/Machine/Ops.lean ====
section
/-!
DEFINITION. The named operations over registers, the dispatcher, the ledgers and the interrupt blocks
that the commands share; taking an exception (R101), a double fault (R102), fencing a core (R360) and
the return from an exception (R106).
-/
namespace Sys2Proof.Machine

/-! ### General and capability registers (R55) -/

/-- Register r; g0 reads zero. -/
def CoreState.getG (x : CoreState) (r : GReg) : Word := if r = 0 then 0 else x.g[r]

/-- A write to register r; a write to g0 is discarded. -/
def CoreState.setG (x : CoreState) (r : GReg) (v : Word) : CoreState :=
  if r = 0 then x else { x with g := x.g.set r.val v r.isLt }

def CoreState.getK (x : CoreState) (r : KReg) : Cap := x.k[r]

def CoreState.setK (x : CoreState) (r : KReg) (v : Cap) : CoreState :=
  { x with k := x.k.set r.val v r.isLt }

/-- The number of a capability register as xcause.creg holds it. -/
def kNum (r : KReg) : BitVec 4 := BitVec.ofFin r

def State.getG (s : State) (c : CoreId) (r : GReg) : Word := (s.core c).getG r
def State.setG (s : State) (c : CoreId) (r : GReg) (v : Word) : State := s.mapCore c fun x => x.setG r v
def State.getK (s : State) (c : CoreId) (r : KReg) : Cap := (s.core c).getK r
def State.setK (s : State) (c : CoreId) (r : KReg) (v : Cap) : State := s.mapCore c fun x => x.setK r v

/-- The program counter: pcc's cursor. -/
def State.pc (s : State) (c : CoreId) : Word := (s.core c).pcc.cursor

/-- Control registers of core c changed by f. -/
def State.mapCtl (s : State) (c : CoreId) (f : Control → Control) : State :=
  s.mapCore c fun x => { x with ctl := f x.ctl }

/-- The status register as a word (R107). -/
def Status.toWord (t : Status) : Word :=
  (0#60 ++ BitVec.ofBool t.ss ++ BitVec.ofBool t.sb ++ BitVec.ofBool t.lm ++ BitVec.ofBool t.ie : BitVec 64)

/-- xcause from its fields (R109). -/
def xcauseWord (code : BitVec 6) (isAsync deferred : Bool) (creg : BitVec 4) (cpcc : Bool)
    (engine : BitVec 3) : BitVec 16 :=
  engine ++ BitVec.ofBool cpcc ++ creg ++ BitVec.ofBool deferred ++ BitVec.ofBool isAsync ++ code

/-- Progress resets the watchdog (R370). -/
def State.progress (s : State) (c : CoreId) : State :=
  s.mapCore c fun x => { x with wdTicks := 0, wdWarned := false }

/-- LEDGER_FAULT with the check that failed; the pool closes (R366). -/
def State.closeFault (s : State) (id check : Nat) (sev : BitVec 3) : State :=
  let l := s.ledger id
  (s.setLedger id { l with st := .afterFault }).log sev 0x0201 (0x00050000 + w32 id) (w32 id) (w32 check)
    (l.outstanding.val.setWidth 32)

/-- A pool closes after a fence of its unit, and waits for its units; one that its own fault closed waits too (R361). -/
def State.closeFence (s : State) (id : Nat) : State :=
  let l := s.ledger id
  match l.st with
  | .opened => s.setLedger id { l with st := .afterFence, fencedAt := some s.time }
  | .afterFault => if l.fencedAt.isNone && !l.wroteOff then s.setLedger id { l with fencedAt := some s.time } else s
  | .afterFence => s

/-! ### Dispatch (R372, R373) -/

def State.queue (s : State) (q : Fin 5) : DispatchQueue := s.cont.queues[q]

def State.setQueue (s : State) (q : Fin 5) (x : DispatchQueue) : State :=
  { s with cont := { s.cont with queues := s.cont.queues.set q.val x q.isLt } }

/-- Pool id of the claims of queue q. -/
def claimPool (q : Fin 5) : Nat := 0x78 + q.val

/-- A claim ends: its unit returns; a return at zero fences the queue (R366). -/
def State.claimGive (s : State) (q : Fin 5) : State :=
  match s.poolReturn (claimPool q) 1 with
  | (s1, none) => s1
  | (s1, some n) =>
    let s2 := (s1.closeFault (claimPool q) n 5).closeFence (claimPool q)
    s2.setQueue q { s2.queue q with fenced := true }

/-- Every item core c holds goes back to the head of its queue, in the order of the claims (R373). -/
def State.requeueItems (s : State) (c : CoreId) : State :=
  let items := (s.core c).items
  let s1 := items.reverse.foldl (fun t e =>
    let q := t.queue e.1
    (t.setQueue e.1 { q with items := e.2 :: q.items, requeued := q.requeued + 1 }).claimGive e.1) s
  s1.mapCore c fun x => { x with items := [] }

/-! ### Interrupt target blocks (R384 to R392) -/

def State.srcPrio (s : State) (n : Nat) : BitVec 4 := sparseGet (fun _ => 0) s.int.prio n

def State.srcTarget (s : State) (n : Nat) : BitVec 7 := sparseGet (fun _ => 0x40) s.int.target n

def State.targetBlock (s : State) (t : Nat) : Target := vget s.int.blocks t Target.reset

def State.setTarget (s : State) (t : Nat) (b : Target) : State :=
  { s with int := { s.int with blocks := vset s.int.blocks t b } }

/-- Source n is deliverable at target t (R385). -/
def State.deliverable (s : State) (t n : Nat) : Bool :=
  let b := s.targetBlock t
  flagGet b.pending n && !flagGet b.inService n && decide (b.thresh.toNat < (s.srcPrio n).toNat)

/-- The deliverable source of highest priority, the lowest number among equals (R391). -/
def State.bestSource (s : State) (t : Nat) : Option Nat :=
  (s.targetBlock t).pending.foldl (fun best e =>
    if s.deliverable t e.1 then
      match best with
      | none => some e.1
      | some b => if (s.srcPrio b).toNat < (s.srcPrio e.1).toNat then some e.1 else some b
    else best) none

/-- A unit raises its source: a message to src_target of it, none for 0xFFF (R384, R387). -/
def State.raiseFrom (s : State) (unit : Nat) (src : BitVec 16) : State :=
  if src.toNat ≥ 0xFFF then s
  else
    { s with int := { s.int with
        inFlight := s.int.inFlight ++ [⟨unit, BitVec.ofNat 19 ((s.srcTarget src.toNat).toNat * 4096 + src.toNat)⟩] } }

/-- A unit of the hub raises its source. -/
def State.raise (s : State) (src : BitVec 16) : State := s.raiseFrom 0 src

/-! ### Fencing a core -/

/-- Core c is fenced: its items are requeued, its target block cleared, its tag pool closed, its caches
reached by nobody, its mark gone (R16, R249, R360, R361, R373, R389, R442; log entry 14). `own`: for a fault of its own. -/
def State.fenceCore (s : State) (c : CoreId) (own : Bool) : State :=
  let s1 := (s.requeueItems c).closeFence c.val
  let s2 := s1.setTarget c.val { s1.targetBlock c.val with pending := [], inService := [] }
  s2.mapCore c fun x =>
    { x with cond := .fenced, ownFault := x.ownFault || own, cache := Caches.reset,
             notice := ⟨false, false, false⟩, wdTicks := 0, wdWarned := false, pow := { x.pow with mark := false } }

/-- Source word of a core's record (R374). -/
def coreSource (c : CoreId) : BitVec 32 := w32 c.val

/-! ### Exceptions -/

/-- Entry can reach the handler: xvcc tagged, unsealed, EXEC, cursor inside and aligned (R102). -/
def Cap.entersHandler (k : Cap) : Bool :=
  k.tag && !k.isSealed && k.has permExec && k.cursorInside && k.cursor.toNat % 4 == 0

/-- R102: a double fault; the second cause k, the first xcause as the register holds it. -/
def State.doubleFault (s : State) (c : CoreId) (k : Cause) : State :=
  let x := s.core c
  let s1 := s.log 7 0x0101 (coreSource c) (w32 k.code.toNat) (x.ctl.xcause.setWidth 32) (k.addr.setWidth 32)
  (s1.mapCtl c fun t => { t with xcause := 63, xaddr := k.addr }).fenceCore c true

/-- The shadow bank as entry fills it (R101 step 2): the cursor of the saved pcc is `saved`. -/
def CoreState.shadowed (x : CoreState) (saved : Word) : Shadow :=
  { g := x.g, k := x.k, pcc := (x.pcc.setCursor saved).sealAs otypeReturn, status := x.ctl.status }

/-- Latches when an exception is taken at `pc`: the form in progress there sleeps; where none is, no older one at that address
is left to be taken up by mistake. -/
def sleepForms (fs : List FormLatch) (pc : Word) : List FormLatch :=
  if fs.any fun l => !l.asleep && l.pc == pc then fs.map fun l => { l with asleep := true, waits := none }
  else fs.filter fun l => l.asleep && l.pc != pc

/-- R101 steps 2 to 4. -/
def CoreState.entered (x : CoreState) (saved : Word) (cause : BitVec 16) (addr : Word) : CoreState :=
  { x with shadow := x.shadowed saved, pcc := x.xvcc, k := x.k.set 15 x.xdcc, forms := sleepForms x.forms saved,
           ctl := { x.ctl with xcause := cause, xaddr := addr, status := ⟨false, false, true, false⟩ } }

/-- Taking a synchronous cause (R101, R102). -/
def State.takeCause (s : State) (c : CoreId) (k : Cause) (saved : Word) : State :=
  let x := s.core c
  if x.ctl.status.sb ∨ x.xvcc.entersHandler = false then s.doubleFault c k
  else s.setCore c (x.entered saved (xcauseWord k.code false k.deferred k.creg k.cpcc k.engine) k.addr)

/-- Taking an asynchronous event (R101): the caller has checked that it is deliverable. -/
def State.takeEvent (s : State) (c : CoreId) (code : BitVec 6) : State :=
  let x := s.core c
  if x.xvcc.entersHandler = false then s.doubleFault c { code := code, prio := 0, addr := 0 }
  else s.setCore c (x.entered x.pcc.cursor (xcauseWord code true false 0 false 0) 0)

/-- The pending event that core c takes first, by cause code (R107, R108). -/
def State.pendingEvent (s : State) (c : CoreId) : Option (BitVec 6) :=
  let x := s.core c
  if x.notice.error then some 57
  else if x.notice.watchdog then some 58
  else if x.notice.power then some 59
  else if (s.bestSource c.val).isSome then some 56
  else none

/-- The event that is delivered now: ie = 1 and sb = 0 (R101). -/
def State.deliverableEvent (s : State) (c : CoreId) : Option (BitVec 6) :=
  let t := (s.core c).ctl.status
  if t.ie && !t.sb then s.pendingEvent c else none

/-- The notice that a taken event stood for is no longer pending. -/
def Notices.taken (n : Notices) (code : BitVec 6) : Notices :=
  if code = 57 then { n with error := false }
  else if code = 58 then { n with watchdog := false }
  else if code = 59 then { n with power := false }
  else n

/-- The first of xret's checks that fails: its cause code and xaddr, cpcc (R106). -/
def CoreState.xretFails (x : CoreState) : Option Cause :=
  let sp := x.shadow.pcc
  if !x.ctl.status.sb then some (cILLEGAL x.pcc.cursor)
  else if !sp.tag || !sp.isSealed || sp.otype != otypeReturn || !sp.has permExec || !sp.cursorInside ||
      sp.cursor.toNat % 4 != 0 then
    some { code := 11, prio := 0, addr := sp.cursor, cpcc := true }
  else if !x.shadow.status.ie && !x.pcc.has permMask then some cPCCPERM
  else if x.shadow.status.ss && !x.pcc.has permDebug then some cPCCPERM
  else none

/-- The return itself (R106): registers, status with sb clear, pcc unsealed; a form that sleeps at the address goes on. -/
def CoreState.returned (x : CoreState) : CoreState :=
  { x with g := x.shadow.g, k := x.shadow.k, pcc := x.shadow.pcc.unseal,
           forms := x.forms.map fun l => if l.pc = x.shadow.pcc.cursor then { l with asleep := false, again := true } else l,
           ctl := { x.ctl with status := { x.shadow.status with sb := false } } }

end Sys2Proof.Machine
end

