-- ==== Sys2Proof/Machine/Issue.lean ====
section
/-!
DEFINITION. How a core issues one instruction: when it may, the fetch with its causes (R57, R69, R86,
R261), the completion with the hardware loops (R79, R80), instret, the watchdog and single step (R492).
-/
namespace Sys2Proof.Machine

/-- What the body of an instruction does: it completes and the next instruction follows; it completes
and pcc becomes another; it raises a cause and leaves the state given; it stops at an inner boundary, or
has issued and not completed, and pcc stays on it. -/
inductive Effect where
  | done (s : State)
  | jump (s : State) (t : Cap)
  | trap (s : State) (k : Cause)
  | stay (s : State)

/-- Core c runs: released, in the map, powered, its device out of reset. -/
def State.coreRuns (s : State) (c : CoreId) : Bool :=
  decide ((s.core c).cond = .running ∧ (vget s.pow.domains c.val ⟨.off, false, false, 0, 0⟩).phase = .on ∧
    s.rst.phase = .ready)

/-- Core c issues an instruction now: it runs, waits for no long operation, and no asynchronous event
is to be taken first (R101, R108). -/
def State.canIssue (s : State) (c : CoreId) : Bool :=
  s.coreRuns c && decide ((s.core c).tile.op = none) && decide ((s.core c).str.wait = .none) &&
    (s.deliverableEvent c).isNone

/-- Line n of instruction space as its home holds it. -/
def State.instLine (s : State) (n : Nat) : InstLine :=
  ⟨n, Vector.ofFn fun i : Fin 128 => cellGet s.mem.istore (128 * n + i.val)⟩

/-- Line n of instruction space is read from its home L2 slice, or from its stack, which brings it there (R252); true: it holds
poison, or a fenced stack serves it. -/
def State.readInstLine (s : State) (n : Nat) : State × Bool :=
  let marked := fun t : State => [0, 1, 2, 3].any fun w => poisonGet t.mem.ipoison (4 * n + w)
  if s.l2Has true n then (s, marked s)
  else
    let s1 := (s.l2Room true n).settleInst (128 * n) 128
    if s1.stackFenced (s1.placeOfInst (128 * n)).st then (s1, true)
    else (s1.setMem { s1.mem with l2 := s1.mem.l2 ++ [⟨true, n, false⟩] }, marked s1)

/-- Line n of instruction space enters the L1 instruction cache of core c; true: it holds poison and is
not kept (R86, R261). The line a full set gives up is open: a free choice (log entry 15). -/
def State.fetchLine (s : State) (c : CoreId) (n : Nat) : State × Bool :=
  if ((s.core c).cache.icache).any fun l => l.addr == n then (s, false)
  else
    let st := if s.l2Has true n then none else some (s.placeOfInst (128 * n)).st
    match s.readInstLine n with
    | (s0, true) => (s0.passCredits c st 1, true)
    | (s0, false) =>
      let s1 := s0.passCredits c st 1
      let ic := (s1.core c).cache.icache
      let inSet := ic.filter fun l => l.addr % 128 == n % 128
      let (out, s2) : Option Nat × State :=
        if inSet.length < 4 then (none, s1)
        else
          let (f, t) := s1.takeFree
          ((inSet[f.toNat % inSet.length]?).map InstLine.addr, t)
      (s2.mapCore c fun x =>
        { x with cache := { x.cache with icache := ic.filter (fun l => some l.addr != out) ++ [s2.instLine n] } }, false)

/-- Byte a of instruction space as core c reads it: from the line its instruction cache holds, or from the store (R70). -/
def State.instByte (s : State) (c : CoreId) (a : Nat) : Byte :=
  match (s.core c).cache.icache.find? fun l => l.addr == a / 128 with
  | some l => vget l.bytes (a % 128) 0
  | none => cellGet s.mem.istore a

/-- The n bytes at a of instruction space as core c reads them, little-endian (R57). -/
def State.instNat (s : State) (c : CoreId) (a n : Nat) : Nat :=
  leNat ((List.range n).map fun i => s.instByte c (a + i))

/-- Causes of a fetch of len bytes at pc that need no read: bounds of pcc, then the store's end (R69). A pcc whose tag went is
out of bounds too (log entry 57). -/
def State.fetchCauses (s : State) (c : CoreId) (len : Nat) : List Cause :=
  let k := (s.core c).pcc
  let pc := k.cursor
  failIf (!k.tag || (k.firstOutside pc.toNat len).isSome) (cFETCHBOUNDS pc) ++
  failIf (pc.toNat % 4 != 0) (cTARGETALIGN pc) ++
  failIf (decide (istoreEnd s.scfg.ilvActive < pc.toNat + len)) { cUNMAPPED pc 0 with cpcc := true }

/-- The instruction's lines are fetched: one line, or two for one that crosses a line's end. -/
def State.fetch (s : State) (c : CoreId) (len : Nat) : State × Option Cause :=
  match firstCause (s.fetchCauses c len) with
  | some k => (s, some k)
  | none =>
    let pc := s.pc c
    let n := pc.toNat / 128
    let n' := (pc.toNat + len - 1) / 128
    match s.fetchLine c n with
    | (s1, true) => (s1, some (cFETCHPOISON pc))
    | (s1, false) =>
      if n' = n then (s1, none)
      else
        match s1.fetchLine c n' with
        | (s2, true) => (s2, some (cFETCHPOISON pc))
        | (s2, false) => (s2, none)

/-- Address of the instruction stands at the end of an active loop level (R80). -/
def Control.atLoopEnd (t : Control) (pc : Word) : Bool :=
  t.status.lm && ((t.lc1 != 0 && t.le1 == pc) || (t.lc0 != 0 && t.le0 == pc))

/-- R79: counts after the instruction at pc completed, and the next address. Level 1 goes first; where
it falls through, level 0 is tested (log entry 16). -/
def Control.loopEnd (t : Control) (pc next : Word) : Control × Word :=
  if t.status.lm = false then (t, next)
  else
    let t1 := if t.lc1 ≠ 0 ∧ t.le1 = pc then { t with lc1 := t.lc1 - 1 } else t
    if t.lc1 ≠ 0 ∧ t.le1 = pc ∧ t1.lc1 ≠ 0 then (t1, t.ls1)
    else if t1.lc0 ≠ 0 ∧ t1.le0 = pc then
      let t2 := { t1 with lc0 := t1.lc0 - 1 }
      (t2, if t2.lc0 ≠ 0 then t1.ls0 else next)
    else (t1, next)

/-- Counts of a completed instruction: instret and the watchdog (R56, R370). -/
def CoreState.counted (x : CoreState) : CoreState :=
  { x with ctl := { x.ctl with instret := x.ctl.instret + 1 }, wdTicks := 0, wdWarned := false }

/-- An instruction of len bytes at pc completes; ss as it was at issue (R492). -/
def State.retire (s : State) (c : CoreId) (pc : Word) (len : Nat) (ss : Bool) : State :=
  let x := s.core c
  let (t, next) := x.ctl.loopEnd pc (pc + w64 len)
  let s1 := s.setCore c ({ x with ctl := t, pcc := x.pcc.setCursor next }.counted)
  if ss then s1.takeCause c (cSTEP next) next else s1

/-- A completed instruction whose next pcc is given. -/
def State.retireJump (s : State) (c : CoreId) (t : Cap) (ss : Bool) : State :=
  let x := s.core c
  let s1 := s.setCore c ({ x with pcc := t }.counted)
  if ss then s1.takeCause c (cSTEP t.cursor) t.cursor else s1

/-- BRK and ECALL are taken at the address of the instruction that runs next. DESIGN CHOICE (log entry 16): at the end of a hardware
loop that instruction is found by counting the loop end, at the trap (R79, R101). -/
def Cause.afterIt (k : Cause) : Bool := k.code == 12 || k.code == 13

/-- What the body did becomes the next state. -/
def State.finish (s : State) (c : CoreId) (len : Nat) (e : Effect) : State :=
  let pc := s.pc c
  let ss := (s.core c).ctl.status.ss
  match e with
  | .done s1 => s1.retire c pc len ss
  | .jump s1 t => s1.retireJump c t ss
  | .stay s1 => s1
  | .trap s1 k =>
    if k.afterIt then
      let s2 := s1.retire c pc len false
      s2.takeCause c k (s2.pc c)
    else s1.takeCause c k pc

/-- One instruction of len bytes of core c. A core that cannot issue leaves the state as it is (log
entry 7). -/
def State.issue (s : State) (c : CoreId) (len : Nat) (body : State → Effect) :
    Host.Outcome State Fault Refusal :=
  if s.canIssue c then
    match s.fetch c len with
    | (s1, some k) => .next (s1.takeCause c k (s1.pc c))
    | (s1, none) => .next (s1.finish c len (body s1))
  else .next s

/-- An instruction that transfers control: illegal at the end of an active loop level (R80). -/
def State.issueTransfer (s : State) (c : CoreId) (len : Nat) (body : State → Effect) :
    Host.Outcome State Fault Refusal :=
  s.issue c len fun t =>
    if (t.core c).ctl.atLoopEnd (t.pc c) then .trap t (cILLEGAL (t.pc c)) else body t

/-- A drain in progress delivers to vector registers: register and memory forms wait for it (R188, R210). -/
def Drain.toVectors (d : Drain) : Bool :=
  match d.dest with
  | .vector _ => true
  | _ => false

/-- An instruction that reads or writes vector registers or masks. -/
def State.issueVector (s : State) (c : CoreId) (len : Nat) (body : State → Effect) :
    Host.Outcome State Fault Refusal :=
  s.issue c len fun t =>
    if (t.core c).tile.drains.any Drain.toVectors then .stay t else body t

/-! ### What a form keeps from its issue (R49, R83) -/

/-- Key and step in force (R50). -/
def State.rngKey (s : State) : BitVec 128 := s.train.keyHi.val ++ s.train.keyLo.val

/-- What the form in progress at the pc took at issue; none: it issues now. -/
def State.formLatch (s : State) (c : CoreId) : Option FormLatch :=
  (s.core c).forms.find? fun l => !l.asleep && l.pc == s.pc c

/-- What a form that issues now takes. -/
def State.newLatch (s : State) (c : CoreId) (desc : List Byte) : FormLatch :=
  let t := (s.core c).ctl
  { pc := s.pc c, asleep := false, again := false, waits := none, fmtSat := t.fmtSat, fmtDnan := t.fmtDnan, rm := t.rm, tid := t.tid,
    rngctr := t.rngctr, vl := t.vl, key := s.rngKey, step := s.train.step.val, desc := desc }

/-- No latch stands for the instruction at pc: it has completed. -/
def State.dropLatch (s : State) (c : CoreId) (pc : Word) : State :=
  s.mapCore c fun x => { x with forms := x.forms.filter fun l => l.pc != pc }

/-- The latch of the form in progress. -/
def State.putLatch (s : State) (c : CoreId) (l : FormLatch) : State :=
  s.mapCore c fun x => { x with forms := x.forms.filter (fun o => o.pc != l.pc) ++ [l] }

/-- A form that completes gives up its latch. -/
def Effect.unlatch (c : CoreId) (pc : Word) : Effect → Effect
  | .done s => .done (s.dropLatch c pc)
  | e => e

/-- An effect that changes only core c and completes. -/
def State.doneCore (s : State) (c : CoreId) (f : CoreState → CoreState) : Effect := .done (s.mapCore c f)

/-- An effect that writes one general register and completes. -/
def State.doneG (s : State) (c : CoreId) (rd : GReg) (v : Word) : Effect := .done (s.setG c rd v)

/-- A cause of a state that the body has not changed, or the effect. -/
def State.orTrap (s : State) (ks : List Cause) (e : Effect) : Effect :=
  match firstCause ks with
  | some k => .trap s k
  | none => e

end Sys2Proof.Machine
end

