-- ==== Sys2Proof/Machine/Operands.lean ====
section
/-!
DEFINITION. Operand forms of the scalar instructions: immediates, offsets, bit fields, the address of
in and out (R58, R62, R65, R71).
-/
namespace Sys2Proof.Machine

/-- Sign-extended immediate or offset. -/
def sext {w : Nat} (v : BitVec w) : Word := v.signExtend 64

/-- Branch and jal target: the address of the instruction plus 4 times the offset (R58, R64). -/
def wordTarget {w : Nat} (pc : Word) (off : BitVec w) : Word := pc + 4 * sext off

/-- Address of a scalar load or store: kb.cursor + off13 (R65). -/
def dataAddr (k : Cap) (off13 : BitVec 13) : Word := k.cursor + sext off13

/-- n low ones. -/
def onesBelow (n : Nat) : Word := BitVec.ofNat 64 (2 ^ n - 1)

/-- Zero-extended field of length n at p (R62). -/
def fieldU (a : Word) (p n : Nat) : Word := (a >>> p) &&& onesBelow n

/-- Field of length n at p, extended from its bit n − 1; missing bits are copies of bit 63 (R62). -/
def fieldS (a : Word) (p n : Nat) : Word :=
  if n = 0 then 0 else ((a.sshiftRight p) <<< (64 - n)).sshiftRight (64 - n)

/-- a with its field at p replaced by the low n bits of b; bits past bit 63 are dropped (R62). -/
def fieldIns (a b : Word) (p n : Nat) : Word :=
  (a &&& ~~~(onesBelow n <<< p)) ||| ((b <<< p) &&& (onesBelow n <<< p))

/-- Position of a register-form bit field: rs2[5:0] (R62). -/
def posOf (b : Word) : Nat := (b.extractLsb' 0 6).toNat

/-- Length of a register-form bit field: rs2[13:8] (R62). -/
def lenOf (b : Word) : Nat := (b.extractLsb' 8 6).toNat

/-- Shift amount: rs2[5:0] or imm12[5:0] (R60). -/
def shamt (b : Word) : Nat := (b.extractLsb' 0 6).toNat

/-- Address register pair of an in or out: index and subindex (24 bits) and byte offset (R71). -/
structure IoTarget where
  index : BitVec 16
  sub : BitVec 8
  off : Nat
  deriving DecidableEq, Repr

/-- 24-bit I/O address. -/
def IoTarget.addr (t : IoTarget) : Nat := t.index.toNat * 256 + t.sub.toNat

/-- The entry an address operand names (R71). -/
def ioTarget (x : CoreState) : IoAddr → IoTarget
  | .reg gs =>
    let v := x.getG gs
    ⟨v.extractLsb' 8 16, v.extractLsb' 0 8, (v.extractLsb' 24 16).toNat⟩
  | .imm v => ⟨v.extractLsb' 8 16, v.extractLsb' 0 8, (v.extractLsb' 24 8).toNat * 8⟩

/-- Length of the in and out forms: IO 4 bytes, LI 8 (R59). -/
def ioLen : IoAddr → Nat
  | .reg _ => 4
  | .imm _ => 8

end Sys2Proof.Machine
end

