-- ==== Sys2Proof/Machine/Access.lean ====
section
/-!
DEFINITION. Scalar loads and stores, capability loads and stores, fence (R65, R66, R95).
-/
namespace Sys2Proof.Machine

/-- Bytes and sign of a load's fn; none is reserved (R65). -/
def loadShape (fn : BitVec 3) : Option (Nat × Bool) :=
  match fn.toNat with
  | 0 => some (1, true)
  | 1 => some (2, true)
  | 2 => some (4, true)
  | 3 => some (8, true)
  | 4 => some (1, false)
  | 5 => some (2, false)
  | 6 => some (4, false)
  | _ => none

/-- Bytes of a store's fn (R65). -/
def storeShape (fn : BitVec 3) : Option Nat :=
  match fn.toNat with
  | 0 => some 1
  | 1 => some 2
  | 2 => some 4
  | 3 => some 8
  | _ => none

/-- Register value of loaded bytes. -/
def extendLoad (bs : List Byte) (signed : Bool) : Word :=
  if signed then i64 ((BitVec.ofNat (8 * bs.length) (leNat bs)).toInt) else w64 (leNat bs)

/-- A scalar read after its checks of R65 steps 1 to 6; POISON is the last (step 7). -/
def State.checkedRead (s : State) (c : CoreId) (k : Cap) (r : BitVec 4) (needs : List Nat) (a : Word)
    (len align : Nat) : State × (Cause ⊕ ScalarRead) :=
  match firstCause (s.accessCauses k r needs a len align) with
  | some e => (s, .inl e)
  | none =>
    let (s1, v) := s.scalarRead c a.toNat len
    if v.poison then (s1, .inl (cPOISON a r)) else (s1, .inr v)

/-- A scalar read that may cross a line's end, line by line (descriptors, R212, R231). -/
def State.scalarReadMany (s : State) (c : CoreId) : Nat → Nat → Nat → State × List Byte × Bool
  | 0, _, _ => (s, [], false)
  | fuel + 1, a, len =>
    if len = 0 then (s, [], false)
    else
      let n := min len (128 - a % 128)
      match s.scalarRead c a n with
      | (s1, v) =>
        match s1.scalarReadMany c fuel (a + n) (len - n) with
        | (s2, bs, bad) => (s2, v.bytes ++ bs, v.poison || bad)

/-- A descriptor read as one scalar access: R65 steps 1 to 7. -/
def State.checkedReadMany (s : State) (c : CoreId) (k : Cap) (r : BitVec 4) (needs : List Nat) (a : Word)
    (len align : Nat) : State × (Cause ⊕ List Byte) :=
  match firstCause (s.accessCauses k r needs a len align) with
  | some e => (s, .inl e)
  | none =>
    match s.scalarReadMany c (len / 128 + 2) a.toNat len with
    | (s1, bs, bad) => if bad then (s1, .inl (cPOISON a r)) else (s1, .inr bs)

/-- R65: a load that fails writes no register. -/
def execLd (c : CoreId) (fn : BitVec 3) (rd : GReg) (kb : KReg) (off13 : BitVec 13) (s : State) :
    Host.Outcome State Fault Refusal :=
  s.issue c 4 fun t =>
    match loadShape fn with
    | none => .trap t (cILLEGAL (t.pc c))
    | some (n, signed) =>
      let k := t.getK c kb
      match t.checkedRead c k (kNum kb) [permLoad] (dataAddr k off13) n n with
      | (t1, .inl e) => .trap t1 e
      | (t1, .inr v) => t1.doneG c rd (extendLoad v.bytes signed)

/-- R65: a store that fails writes no byte; it clears the tag of its granule (R93). -/
def execSt (c : CoreId) (fn : BitVec 3) (rs : GReg) (kb : KReg) (off13 : BitVec 13) (s : State) :
    Host.Outcome State Fault Refusal :=
  s.issue c 4 fun t =>
    match storeShape fn with
    | none => .trap t (cILLEGAL (t.pc c))
    | some n =>
      let k := t.getK c kb
      let a := dataAddr k off13
      t.orTrap (t.accessCauses k (kNum kb) [permStore] a n n)
        (.done (t.scalarWrite c a.toNat (leBytes n (t.getG c rs).toNat) false))

/-- R95: without LOADCAP the tag stays behind. -/
def execLc (c : CoreId) (kd kb : KReg) (off13 : BitVec 13) (s : State) : Host.Outcome State Fault Refusal :=
  s.issue c 4 fun t =>
    let k := t.getK c kb
    match t.checkedRead c k (kNum kb) [permLoad] (dataAddr k off13) 16 16 with
    | (t1, .inl e) => .trap t1 e
    | (t1, .inr v) => .done (t1.setK c kd ⟨BitVec.ofNat 128 (leNat v.bytes), v.tag && k.has permLoadCap⟩)

/-- Checks of a capability store of `v` at a (R95). -/
def State.storeCapCauses (s : State) (k : Cap) (r : BitVec 4) (v : Cap) (a : Word) : List Cause :=
  s.accessCauses k r [permStore] a 16 16 ++
  failIf (v.tag && !k.has permStoreCap) (cSTORETAG a r) ++
  failIf (v.tag && decide (s.region a.toNat = .hub)) (cTAGUNSUPPORTED a r)

/-- R95: sixteen bytes and the tag as one access. -/
def execSc (c : CoreId) (ks kb : KReg) (off13 : BitVec 13) (s : State) : Host.Outcome State Fault Refusal :=
  s.issue c 4 fun t =>
    let k := t.getK c kb
    let v := t.getK c ks
    let a := dataAddr k off13
    t.orTrap (t.storeCapCauses k (kNum kb) v a)
      (.done (t.scalarWrite c a.toNat (leBytes 16 v.bits.toNat) v.tag))

/-- R66: every earlier scalar store of this model's core is visible already, so fence only completes. -/
def execFence (c : CoreId) (s : State) : Host.Outcome State Fault Refusal := s.issue c 4 fun t => .done t

end Sys2Proof.Machine
end

