-- ==== Sys2Proof/Machine/Alu.lean ====
section
/-!
DEFINITION. Integer, bit-field and byte instructions (R60 to R63).
-/
namespace Sys2Proof.Machine

/-- Bits [127:64] of a product. -/
def highWord (p : Int) : Word := BitVec.ofInt 64 (p / 2 ^ 64)

/-- Signed quotient toward zero; all ones for a zero divisor (R61). -/
def divS (a b : Word) : Word := if b = 0 then BitVec.allOnes 64 else BitVec.ofInt 64 (a.toInt.tdiv b.toInt)

/-- Unsigned quotient (R61). -/
def divU (a b : Word) : Word := if b = 0 then BitVec.allOnes 64 else BitVec.ofNat 64 (a.toNat / b.toNat)

/-- Signed remainder with the sign of the dividend (R60, R61). -/
def remS (a b : Word) : Word := if b = 0 then a else BitVec.ofInt 64 (a.toInt.tmod b.toInt)

/-- Unsigned remainder (R61). -/
def remU (a b : Word) : Word := if b = 0 then a else BitVec.ofNat 64 (a.toNat % b.toNat)

/-- Leading zeros of the n low bits of a (R63). -/
def leadingZeros (a : Word) : Nat → Nat
  | 0 => 0
  | n + 1 => if a.getLsbD n then 0 else leadingZeros a n + 1

/-- Trailing zeros of a from bit i up, n bits left (R63). -/
def trailingZeros (a : Word) : Nat → Nat → Nat
  | 0, _ => 0
  | n + 1, i => if a.getLsbD i then 0 else trailingZeros a n (i + 1) + 1

/-- Result byte of bperm for one control byte (R63). -/
def permByte (lo hi : Word) (k : Byte) : Byte :=
  if k.getLsbD 7 then 0 else ((hi ++ lo : BitVec 128) >>> (8 * (k.extractLsb' 0 4).toNat)).setWidth 8

/-- bperm of {hi, lo} under the control bytes of k (R63). -/
def permBytes (lo hi k : Word) : Word :=
  w64 (leNat ((List.range 8).map fun i => permByte lo hi (k.extractLsb' (8 * i) 8)))

/-- A register-register operation that raises nothing (R60). -/
def intRR (c : CoreId) (rd rs1 rs2 : GReg) (f : Word → Word → Word) (s : State) :
    Host.Outcome State Fault Refusal :=
  s.issue c 4 fun t => t.doneG c rd (f (t.getG c rs1) (t.getG c rs2))

/-- A register-immediate operation; the immediate is sign-extended (R60). -/
def intRI (c : CoreId) (rd rs1 : GReg) (imm12 : BitVec 12) (f : Word → Word → Word) (s : State) :
    Host.Outcome State Fault Refusal :=
  s.issue c 4 fun t => t.doneG c rd (f (t.getG c rs1) (sext imm12))

/-- A shift by imm12[5:0]; imm12[11:6] is reserved (R57, R60). -/
def intShift (c : CoreId) (rd rs1 : GReg) (imm12 : BitVec 12) (f : Word → Nat → Word) (s : State) :
    Host.Outcome State Fault Refusal :=
  s.issue c 4 fun t =>
    if imm12.extractLsb' 6 6 ≠ 0 then .trap t (cILLEGAL (t.pc c))
    else t.doneG c rd (f (t.getG c rs1) (imm12.extractLsb' 0 6).toNat)

/-- A register operation on one source. -/
def intR (c : CoreId) (rd rs1 : GReg) (f : Word → Word) (s : State) : Host.Outcome State Fault Refusal :=
  s.issue c 4 fun t => t.doneG c rd (f (t.getG c rs1))

/-- R60. -/
def execAdd (c : CoreId) (rd rs1 rs2 : GReg) (s : State) : Host.Outcome State Fault Refusal :=
  intRR c rd rs1 rs2 (fun a b => a + b) s

/-- R60. -/
def execSub (c : CoreId) (rd rs1 rs2 : GReg) (s : State) : Host.Outcome State Fault Refusal :=
  intRR c rd rs1 rs2 (fun a b => a - b) s

/-- R60. -/
def execAnd (c : CoreId) (rd rs1 rs2 : GReg) (s : State) : Host.Outcome State Fault Refusal :=
  intRR c rd rs1 rs2 (fun a b => a &&& b) s

/-- R60. -/
def execOr (c : CoreId) (rd rs1 rs2 : GReg) (s : State) : Host.Outcome State Fault Refusal :=
  intRR c rd rs1 rs2 (fun a b => a ||| b) s

/-- R60. -/
def execXor (c : CoreId) (rd rs1 rs2 : GReg) (s : State) : Host.Outcome State Fault Refusal :=
  intRR c rd rs1 rs2 (fun a b => a ^^^ b) s

/-- R60. -/
def execAndn (c : CoreId) (rd rs1 rs2 : GReg) (s : State) : Host.Outcome State Fault Refusal :=
  intRR c rd rs1 rs2 (fun a b => a &&& ~~~b) s

/-- R60. -/
def execSll (c : CoreId) (rd rs1 rs2 : GReg) (s : State) : Host.Outcome State Fault Refusal :=
  intRR c rd rs1 rs2 (fun a b => a <<< shamt b) s

/-- R60. -/
def execSrl (c : CoreId) (rd rs1 rs2 : GReg) (s : State) : Host.Outcome State Fault Refusal :=
  intRR c rd rs1 rs2 (fun a b => a >>> shamt b) s

/-- R60. -/
def execSra (c : CoreId) (rd rs1 rs2 : GReg) (s : State) : Host.Outcome State Fault Refusal :=
  intRR c rd rs1 rs2 (fun a b => a.sshiftRight (shamt b)) s

/-- R60. -/
def execRol (c : CoreId) (rd rs1 rs2 : GReg) (s : State) : Host.Outcome State Fault Refusal :=
  intRR c rd rs1 rs2 (fun a b => a.rotateLeft (shamt b)) s

/-- R60. -/
def execRor (c : CoreId) (rd rs1 rs2 : GReg) (s : State) : Host.Outcome State Fault Refusal :=
  intRR c rd rs1 rs2 (fun a b => a.rotateRight (shamt b)) s

/-- R60. -/
def execSlt (c : CoreId) (rd rs1 rs2 : GReg) (s : State) : Host.Outcome State Fault Refusal :=
  intRR c rd rs1 rs2 (fun a b => bitWord (a.slt b)) s

/-- R60. -/
def execSltu (c : CoreId) (rd rs1 rs2 : GReg) (s : State) : Host.Outcome State Fault Refusal :=
  intRR c rd rs1 rs2 (fun a b => bitWord (a.ult b)) s

/-- R60. -/
def execMin (c : CoreId) (rd rs1 rs2 : GReg) (s : State) : Host.Outcome State Fault Refusal :=
  intRR c rd rs1 rs2 (fun a b => if a.slt b then a else b) s

/-- R60. -/
def execMax (c : CoreId) (rd rs1 rs2 : GReg) (s : State) : Host.Outcome State Fault Refusal :=
  intRR c rd rs1 rs2 (fun a b => if a.slt b then b else a) s

/-- R60. -/
def execMinu (c : CoreId) (rd rs1 rs2 : GReg) (s : State) : Host.Outcome State Fault Refusal :=
  intRR c rd rs1 rs2 (fun a b => if a.ult b then a else b) s

/-- R60. -/
def execMaxu (c : CoreId) (rd rs1 rs2 : GReg) (s : State) : Host.Outcome State Fault Refusal :=
  intRR c rd rs1 rs2 (fun a b => if a.ult b then b else a) s

/-- R60. -/
def execMul (c : CoreId) (rd rs1 rs2 : GReg) (s : State) : Host.Outcome State Fault Refusal :=
  intRR c rd rs1 rs2 (fun a b => a * b) s

/-- R60. -/
def execMulh (c : CoreId) (rd rs1 rs2 : GReg) (s : State) : Host.Outcome State Fault Refusal :=
  intRR c rd rs1 rs2 (fun a b => highWord (a.toInt * b.toInt)) s

/-- R60. -/
def execMulhu (c : CoreId) (rd rs1 rs2 : GReg) (s : State) : Host.Outcome State Fault Refusal :=
  intRR c rd rs1 rs2 (fun a b => highWord (a.toNat * b.toNat)) s

/-- R60. -/
def execMulhsu (c : CoreId) (rd rs1 rs2 : GReg) (s : State) : Host.Outcome State Fault Refusal :=
  intRR c rd rs1 rs2 (fun a b => highWord (a.toInt * b.toNat)) s

/-- R60, R61. -/
def execDiv (c : CoreId) (rd rs1 rs2 : GReg) (s : State) : Host.Outcome State Fault Refusal :=
  intRR c rd rs1 rs2 (fun a b => divS a b) s

/-- R60, R61. -/
def execDivu (c : CoreId) (rd rs1 rs2 : GReg) (s : State) : Host.Outcome State Fault Refusal :=
  intRR c rd rs1 rs2 (fun a b => divU a b) s

/-- R60, R61. -/
def execRem (c : CoreId) (rd rs1 rs2 : GReg) (s : State) : Host.Outcome State Fault Refusal :=
  intRR c rd rs1 rs2 (fun a b => remS a b) s

/-- R60, R61. -/
def execRemu (c : CoreId) (rd rs1 rs2 : GReg) (s : State) : Host.Outcome State Fault Refusal :=
  intRR c rd rs1 rs2 (fun a b => remU a b) s

/-- R62. -/
def execBfextr (c : CoreId) (rd rs1 rs2 : GReg) (s : State) : Host.Outcome State Fault Refusal :=
  intRR c rd rs1 rs2 (fun a b => fieldU a (posOf b) (lenOf b)) s

/-- R62. -/
def execBfextsr (c : CoreId) (rd rs1 rs2 : GReg) (s : State) : Host.Outcome State Fault Refusal :=
  intRR c rd rs1 rs2 (fun a b => fieldS a (posOf b) (lenOf b)) s

/-- R60. -/
def execAddi (c : CoreId) (rd rs1 : GReg) (imm12 : BitVec 12) (s : State) : Host.Outcome State Fault Refusal :=
  intRI c rd rs1 imm12 (fun a i => a + i) s

/-- R60. -/
def execAndi (c : CoreId) (rd rs1 : GReg) (imm12 : BitVec 12) (s : State) : Host.Outcome State Fault Refusal :=
  intRI c rd rs1 imm12 (fun a i => a &&& i) s

/-- R60. -/
def execOri (c : CoreId) (rd rs1 : GReg) (imm12 : BitVec 12) (s : State) : Host.Outcome State Fault Refusal :=
  intRI c rd rs1 imm12 (fun a i => a ||| i) s

/-- R60. -/
def execXori (c : CoreId) (rd rs1 : GReg) (imm12 : BitVec 12) (s : State) : Host.Outcome State Fault Refusal :=
  intRI c rd rs1 imm12 (fun a i => a ^^^ i) s

/-- R60. -/
def execSlli (c : CoreId) (rd rs1 : GReg) (imm12 : BitVec 12) (s : State) : Host.Outcome State Fault Refusal :=
  intShift c rd rs1 imm12 (fun a n => a <<< n) s

/-- R60. -/
def execSrli (c : CoreId) (rd rs1 : GReg) (imm12 : BitVec 12) (s : State) : Host.Outcome State Fault Refusal :=
  intShift c rd rs1 imm12 (fun a n => a >>> n) s

/-- R60. -/
def execSrai (c : CoreId) (rd rs1 : GReg) (imm12 : BitVec 12) (s : State) : Host.Outcome State Fault Refusal :=
  intShift c rd rs1 imm12 (fun a n => a.sshiftRight n) s

/-- R60. -/
def execRoli (c : CoreId) (rd rs1 : GReg) (imm12 : BitVec 12) (s : State) : Host.Outcome State Fault Refusal :=
  intShift c rd rs1 imm12 (fun a n => a.rotateLeft n) s

/-- R60. -/
def execSel (c : CoreId) (rd rs1 rs2 rs3 : GReg) (s : State) : Host.Outcome State Fault Refusal :=
  s.issue c 4 fun t => t.doneG c rd (if t.getG c rs3 ≠ 0 then t.getG c rs1 else t.getG c rs2)

/-- R63. -/
def execClz (c : CoreId) (rd rs1 : GReg) (s : State) : Host.Outcome State Fault Refusal :=
  intR c rd rs1 (fun a => w64 (leadingZeros a 64)) s

/-- R63. -/
def execCtz (c : CoreId) (rd rs1 : GReg) (s : State) : Host.Outcome State Fault Refusal :=
  intR c rd rs1 (fun a => w64 (trailingZeros a 64 0)) s

/-- R63. -/
def execBperm (c : CoreId) (rd rs1 rs2 rs3 : GReg) (s : State) : Host.Outcome State Fault Refusal :=
  s.issue c 4 fun t => t.doneG c rd (permBytes (t.getG c rs1) (t.getG c rs2) (t.getG c rs3))

/-- R62. -/
def execBfext (c : CoreId) (rd rs1 : GReg) (pos len : BitVec 6) (s : State) : Host.Outcome State Fault Refusal :=
  intR c rd rs1 (fun a => fieldU a pos.toNat len.toNat) s

/-- R62. -/
def execBfexts (c : CoreId) (rd rs1 : GReg) (pos len : BitVec 6) (s : State) : Host.Outcome State Fault Refusal :=
  intR c rd rs1 (fun a => fieldS a pos.toNat len.toNat) s

/-- R62. -/
def execBfins (c : CoreId) (rd rs1 : GReg) (pos len : BitVec 6) (s : State) : Host.Outcome State Fault Refusal :=
  s.issue c 4 fun t => t.doneG c rd (fieldIns (t.getG c rd) (t.getG c rs1) pos.toNat len.toNat)

/-- R62: position and length from rs2; rd is read too. -/
def execBfinsr (c : CoreId) (rd rs1 rs2 : GReg) (s : State) : Host.Outcome State Fault Refusal :=
  s.issue c 4 fun t =>
    let b := t.getG c rs2
    t.doneG c rd (fieldIns (t.getG c rd) (t.getG c rs1) (posOf b) (lenOf b))

/-- R60: rd := sign-extended imm32. -/
def execLi (c : CoreId) (rd : GReg) (imm32 : BitVec 32) (s : State) : Host.Outcome State Fault Refusal :=
  s.issue c 8 fun t => t.doneG c rd (sext imm32)

/-- R60: rd[63:32] := imm32. -/
def execLih (c : CoreId) (rd : GReg) (imm32 : BitVec 32) (s : State) : Host.Outcome State Fault Refusal :=
  s.issue c 8 fun t => t.doneG c rd (imm32 ++ (t.getG c rd).setWidth 32)

end Sys2Proof.Machine
end

