-- ==== Sys2Proof/Machine/Blocks.lean ====
section
/-!
DEFINITION. Block repeats (R75 to R77), instruction-space installs (R68 to R70), cache maintenance
(R67) and the fill of the outstanding miss (R85).
-/
namespace Sys2Proof.Machine

/-- What one element or line did: it was done and the registers moved past it; the search ends at it; it
failed. -/
inductive Elem where
  | next (s : State)
  | stop (s : State)
  | fault (s : State) (k : Cause)

/-- An event that waits at an inner boundary stops the instruction only where it can be delivered
(R101). -/
def State.pauseAt (s : State) (c : CoreId) (pause : Option Nat) : Option Nat :=
  let t := (s.core c).ctl.status
  if t.ie && !t.sb then pause else none

/-- Repeats elements, `left` of them, in units that end where ga reaches a 128-byte boundary (R76). The count is taken at issue:
where gc is also an address register the registers change as `State.advance` says, and the instruction ends after that many
elements whatever gc holds then (log entry 52). -/
def repeatUnits (c : CoreId) (ga : GReg) (elem : State → Elem) : Nat → Option Nat → State → Effect
  | 0, _, s => .done s
  | left + 1, pause, s =>
    if pause = some 0 then .stay s
    else
      match elem s with
      | .fault s1 k => .trap s1 k
      | .stop s1 => .done s1
      | .next s1 =>
        if (s1.getG c ga).toNat % 128 = 0 then
          repeatUnits c ga elem left (pause.map fun n => n - 1) (s1.progress c)
        else repeatUnits c ga elem left pause s1

/-- One element done: the address registers advance by w, the count falls by one (R75). -/
def State.advance (s : State) (c : CoreId) (w : Nat) (addrs : List GReg) (gc : GReg) : State :=
  let s1 := addrs.foldl (fun t r => t.setG c r (t.getG c r + w64 w)) s
  s1.setG c gc (s1.getG c gc - 1)

/-- Width in bytes of a size field (R75). -/
def elemBytes (size : BitVec 2) : Nat := 2 ^ size.toNat

/-- Checks of one element operand. -/
def State.elemCauses (s : State) (c : CoreId) (k : KReg) (perm : Nat) (g : GReg) (w : Nat) : List Cause :=
  s.accessCauses (s.getK c k) (kNum k) [perm] (s.getG c g) w w

/-- The element at register g, or POISON. -/
def State.elemRead (s : State) (c : CoreId) (k : KReg) (g : GReg) (w : Nat) : State × (Cause ⊕ List Byte) :=
  let (s1, v) := s.scalarRead c (s.getG c g).toNat w
  if v.poison then (s1, .inl (cPOISON (s.getG c g) (kNum k))) else (s1, .inr v.bytes)

/-- Runs a block repeat: a count of zero completes at once (R76). -/
def State.block (s : State) (c : CoreId) (ga gc : GReg) (pause : Option Nat) (elem : State → Elem) : Effect :=
  repeatUnits c ga elem (s.getG c gc).toNat (s.pauseAt c pause) s

/-- R75, R77. -/
def execRmov (c : CoreId) (size : BitVec 2) (ga gb gc : GReg) (ka kb : KReg) (pause : Option Nat) (s : State) :
    Host.Outcome State Fault Refusal :=
  s.issue c 4 fun t =>
    if ga = gb ∨ ga = gc ∨ gb = gc ∨ ga = 0 ∨ gc = 0 then .trap t (cILLEGAL (t.pc c))
    else
      let w := elemBytes size
      t.block c ga gc pause fun u =>
        match firstCause (u.elemCauses c ka permStore ga w ++ u.elemCauses c kb permLoad gb w) with
        | some k => .fault u k
        | none =>
          match u.elemRead c kb gb w with
          | (u1, .inl k) => .fault u1 k
          | (u1, .inr bs) => .next ((u1.scalarWrite c (u1.getG c ga).toNat bs false).advance c w [ga, gb] gc)

/-- R75. The value is what gb holds at each element (the model's choice where gb is also ga or gc, log entry 52). -/
def execRfill (c : CoreId) (size : BitVec 2) (ga gb gc : GReg) (ka : KReg) (pause : Option Nat) (s : State) :
    Host.Outcome State Fault Refusal :=
  s.issue c 4 fun t =>
    let w := elemBytes size
    t.block c ga gc pause fun u =>
      match firstCause (u.elemCauses c ka permStore ga w) with
      | some k => .fault u k
      | none =>
        .next ((u.scalarWrite c (u.getG c ga).toNat (leBytes w (u.getG c gb).toNat) false).advance c w [ga] gc)

/-- R75. -/
def execRcmp (c : CoreId) (size : BitVec 2) (ga gb gc : GReg) (ka kb : KReg) (pause : Option Nat) (s : State) :
    Host.Outcome State Fault Refusal :=
  s.issue c 4 fun t =>
    let w := elemBytes size
    t.block c ga gc pause fun u =>
      match firstCause (u.elemCauses c ka permLoad ga w ++ u.elemCauses c kb permLoad gb w) with
      | some k => .fault u k
      | none =>
        match u.elemRead c ka ga w with
        | (u1, .inl k) => .fault u1 k
        | (u1, .inr x) =>
          match u1.elemRead c kb gb w with
          | (u2, .inl k) => .fault u2 k
          | (u2, .inr y) => if x = y then .next (u2.advance c w [ga, gb] gc) else .stop u2

/-- R75. The value is what gb holds at each element, as for RFILL (log entry 52). -/
def execRscan (c : CoreId) (size : BitVec 2) (ga gb gc : GReg) (ka : KReg) (pause : Option Nat) (s : State) :
    Host.Outcome State Fault Refusal :=
  s.issue c 4 fun t =>
    let w := elemBytes size
    t.block c ga gc pause fun u =>
      match firstCause (u.elemCauses c ka permLoad ga w) with
      | some k => .fault u k
      | none =>
        match u.elemRead c ka ga w with
        | (u1, .inl k) => .fault u1 k
        | (u1, .inr x) =>
          if x = leBytes w (u1.getG c gb).toNat then .stop u1 else .next (u1.advance c w [ga] gc)

/-! ### Lines -/

/-- Repeats lines of 128 bytes: every line is a unit (R67, R68). -/
def repeatLines (c : CoreId) (elem : State → Elem) : Nat → Option Nat → State → Effect
  | 0, _, s => .done s
  | left + 1, pause, s =>
    if pause = some 0 then .stay s
    else
      match elem s with
      | .fault s1 k => .trap s1 k
      | .stop s1 => .done s1
      | .next s1 => repeatLines c elem left (pause.map fun n => n - 1) (s1.progress c)

def State.lines (s : State) (c : CoreId) (gc : GReg) (pause : Option Nat) (elem : State → Elem) : Effect :=
  repeatLines c elem (s.getG c gc).toNat (s.pauseAt c pause) s

/-- First byte of the line that holds a. -/
def lineOf (a : Word) : Word := a &&& ~~~127

/-- The line lies above the instruction store (R69). -/
def State.aboveStore (s : State) (a : Word) : Bool := decide (istoreEnd s.scfg.ilvActive < a.toNat + 128)

/-- Checks of the destination line of iload: EXEC and STORE, bounds, alignment, the store's end (R68). -/
def State.installCauses (s : State) (k : Cap) (r : BitVec 4) (a : Word) : List Cause :=
  capUseCauses k r [permExec, permStore] a ++ capBoundsCauses k r a 128 ++ alignCauses r a 128 ++
  failIf (s.aboveStore a) (cUNMAPPED a r)

/-- R68, R70, R95: tags are dropped and no instruction cache changes. -/
def execIload (c : CoreId) (ga gb gc : GReg) (ka kb : KReg) (pause : Option Nat) (s : State) :
    Host.Outcome State Fault Refusal :=
  s.issue c 4 fun t =>
    t.lines c gc pause fun u =>
      let a := u.getG c ga
      let b := u.getG c gb
      match firstCause (u.installCauses (u.getK c ka) (kNum ka) a ++
          u.accessCauses (u.getK c kb) (kNum kb) [permLoad] b 128 128) with
      | some k => .fault u k
      | none =>
        match u.elemRead c kb gb 128 with
        | (u1, .inl k) => .fault u1 k
        | (u1, .inr bs) => .next ((u1.writeInstLine (a.toNat / 128) bs).advance c 128 [ga, gb] gc)

/-- Line causes report the line's first byte (R67, R68). -/
def atLine (a : Word) (ks : List Cause) : List Cause := ks.map fun k => { k with addr := a }

/-- Checks of one line of iflush (R68). -/
def State.flushCauses (s : State) (k : Cap) (r : BitVec 4) (a : Word) : List Cause :=
  atLine a (capUseCauses k r [permExec] a ++ capBoundsCauses k r a 128 ++
    failIf (s.aboveStore a) (cUNMAPPED a r))

/-- Line n leaves every core's L1 instruction cache (R68). -/
def State.dropInstLine (s : State) (n : Nat) : State :=
  { s with cores := vmap s.cores fun x =>
      { x with cache := { x.cache with icache := x.cache.icache.filter fun l => l.addr != n } } }

/-- R68, R70. -/
def execIflush (c : CoreId) (ga gc : GReg) (ka : KReg) (pause : Option Nat) (s : State) :
    Host.Outcome State Fault Refusal :=
  s.issue c 4 fun t =>
    t.lines c gc pause fun u =>
      let a := lineOf (u.getG c ga)
      match firstCause (u.flushCauses (u.getK c ka) (kNum ka) a) with
      | some k => .fault u k
      | none =>
        .next ((u.dropInstLine (a.toNat / 128)).advance c 128 [ga] gc)

/-- Checks of one line of dcclean or dcinval: LOAD or STORE, the whole line's bounds, its mapping (R67). -/
def State.cacheLineCauses (s : State) (k : Cap) (r : BitVec 4) (a : Word) : List Cause :=
  atLine a (failIf (!k.tag) (cCAPTAG a r) ++ failIf k.isSealed (cCAPSEALED a r) ++
    failIf (!k.has permLoad && !k.has permStore) (cCAPPERM a r) ++ capBoundsCauses k r a 128 ++
    s.mapCauses k r a 128)

/-- Lines of dcclean and dcinval, changed by f. -/
def State.cacheLines (s : State) (c : CoreId) (ga gc : GReg) (ka : KReg) (pause : Option Nat)
    (f : State → Nat → State) : Effect :=
  s.lines c gc pause fun u =>
    let a := lineOf (u.getG c ga)
    match firstCause (u.cacheLineCauses (u.getK c ka) (kNum ka) a) with
    | some k => .fault u k
    | none => .next ((f u (a.toNat / 128)).advance c 128 [ga] gc)

/-- R67. -/
def execDcclean (c : CoreId) (ga gc : GReg) (ka : KReg) (pause : Option Nat) (s : State) :
    Host.Outcome State Fault Refusal :=
  s.issue c 4 fun t => t.cacheLines c ga gc ka pause fun u n => u.cleanLine n

/-- R67. -/
def execDcinval (c : CoreId) (ga gc : GReg) (ka : KReg) (pause : Option Nat) (s : State) :
    Host.Outcome State Fault Refusal :=
  s.issue c 4 fun t => t.cacheLines c ga gc ka pause fun u n => (u.cleanLine n).dropCopies n none

/-- R85. -/
def execL1MissFill (c : CoreId) (s : State) : Host.Outcome State Fault Refusal := .next (s.fillMiss c)

end Sys2Proof.Machine
end

