-- ==== Sys2Proof/Machine/OptionStore.lean ====
section
/-!
DEFINITION. The option words: their defaults (R493), the entries they configure (R455), what is in force
and a commit of it (R399, R454, R456).
-/
namespace Sys2Proof.Machine

/-- Defaults held in Rowan's boot ROM (R493); the bits of the fuse-only words 0 to 126 are open (log entry 11). -/
def romWord (n : Nat) : BitVec 32 :=
  if n < 127 then Config.romFuseOnly n
  else if n = 127 then 1
  else if n = 128 then 0x000418FF
  else if n = 129 then 0x00001000
  else if 130 ≤ n ∧ n ≤ 137 then 0x000000FF
  else if n = 138 then 0x00640A28
  else if n = 139 then 0xFFFFFFFF
  else if n = 396 then 0x000008FF
  else if n = 399 then 0x0000DAC0
  else 0

/-- MAC words, fused per device (R493). -/
def macWord (n : Nat) : Bool := (268 ≤ n && n ≤ 395) || n == 397 || n == 398

/-- The fuse pair of a word as it left manufacture. -/
def fusePair (n : Nat) : CPair 32 :=
  pairOf (if n < 128 ∨ macWord n then Config.fusedWord n else romWord n)

def State.fuseWord (s : State) (n : Nat) : CPair 32 := sparseGet fusePair s.rst.fuses n

/-- The grade's nominal clock as the ordering code says it; the ROM's DQX-6400-16 where its fuse pair is damaged (R1, R493). -/
def State.nominal (s : State) : Nat := if intact (s.fuseWord Config.gradeWord.val) then nominalMHz.toNat else 1600

/-- A flash pair; the erased state is absent (R399). -/
def State.flashWord (s : State) (n : Nat) : CPair 32 :=
  sparseGet (fun _ => ⟨0xFFFFFFFF, 0xFFFFFFFF⟩) s.rst.flash n

/-- Word n as the entries in force spell it (R455). -/
def State.optionWord (s : State) (n : Nat) : BitVec 32 :=
  if n = 128 then (0#8 ++ s.scfg.ceThr ++ s.scfg.scrubHours ++ s.scfg.ilvNext : BitVec 32)
  else if n = 129 then s.scfg.actThr.setWidth 32
  else if 130 ≤ n ∧ n ≤ 137 then
    let p := vget s.fab.ports (n - 130) ⟨0xFF, 0, 0⟩
    (0#16 ++ p.pmd ++ p.mode : BitVec 32)
  else if n = 138 then (0#8 ++ s.pow.tThrottle ++ s.pow.cap.val : BitVec 32)
  else if n = 139 then s.box.addr
  else if 140 ≤ n ∧ n ≤ 203 then (s.core (Fin.ofNat 64 (n - 140))).pow.derate.setWidth 32
  else if 204 ≤ n ∧ n ≤ 267 then (s.core (Fin.ofNat 64 (n - 204))).win.bootAddr.setWidth 32
  else if 268 ≤ n ∧ n ≤ 395 then
    let m := (vget s.fab.subs ((n - 268) / 2) (SubPort.reset 0)).mac
    if n % 2 = 0 then m.setWidth 32 else (m.extractLsb' 32 16).setWidth 32
  else if n = 396 then (0#16 ++ s.mgmt.plcaCount ++ s.mgmt.plcaId : BitVec 32)
  else if n = 397 then s.mgmt.mac.setWidth 32
  else if n = 398 then (s.mgmt.mac.extractLsb' 32 16).setWidth 32
  else if n = 399 then s.mgmt.dapPort.setWidth 32
  else (sparseGet fusePair s.rst.words n).val

/-- A sub-port's MAC, one half replaced. -/
def SubPort.withMac (p : SubPort) (hi : Bool) (v : BitVec 32) : SubPort :=
  { p with mac := if hi then macOfWords (p.mac.setWidth 32) v
                  else macOfWords v ((p.mac.extractLsb' 32 16).setWidth 32) }

/-- A region the black box can have: none, or 64 KiB that overlap nothing of the flash layout, which ends at 0x01A0_FFFF
(R379, R410; log entry 93). -/
def boxPlace (v : Nat) : Bool := decide (v = 0xFFFFFFFF ∨ (v % 65536 = 0 ∧ 0x01A10000 ≤ v))

/-- A loaded word written to the entries it configures; `por`: ilv_next is loaded too (R454, R455). -/
def State.applyWord (s : State) (por : Bool) (n : Nat) (v : BitVec 32) : State :=
  if n = 128 then
    { s with scfg := { s.scfg with ilvNext := if por then v.extractLsb' 0 8 else s.rst.ilvTaken,
                                   scrubHours := v.extractLsb' 8 8, ceThr := v.extractLsb' 16 8 } }
  else if n = 129 then { s with scfg := { s.scfg with actThr := v.extractLsb' 0 16 } }
  else if 130 ≤ n ∧ n ≤ 137 then
    let p := vget s.fab.ports (n - 130) ⟨0xFF, 0, 0⟩
    let q := { p with mode := v.extractLsb' 0 8, pmd := v.extractLsb' 8 8 }
    { s with fab := { s.fab with ports := vset s.fab.ports (n - 130) q } }
  else if n = 138 then
    { s with pow := { s.pow with cap := pairOf (v.extractLsb' 0 16), tThrottle := v.extractLsb' 16 8 } }
  else if n = 139 then { s with box := { s.box with addr := if boxPlace v.toNat then v else 0xFFFFFFFF } }
  else if 140 ≤ n ∧ n ≤ 203 then
    s.mapCore (Fin.ofNat 64 (n - 140)) fun x => { x with pow := { x.pow with derate := v.extractLsb' 0 8 } }
  else if 204 ≤ n ∧ n ≤ 267 then
    s.mapCore (Fin.ofNat 64 (n - 204)) fun x => { x with win := { x.win with bootAddr := v.setWidth 64 } }
  else if 268 ≤ n ∧ n ≤ 395 then
    let k := (n - 268) / 2
    let p := (vget s.fab.subs k (SubPort.reset 0)).withMac (n % 2 == 1) v
    { s with fab := { s.fab with subs := vset s.fab.subs k p } }
  else if n = 396 then
    { s with mgmt := { s.mgmt with plcaId := v.extractLsb' 0 8, plcaCount := v.extractLsb' 8 8 } }
  else if n = 397 then
    { s with mgmt := { s.mgmt with mac := macOfWords v ((s.mgmt.mac.extractLsb' 32 16).setWidth 32) } }
  else if n = 398 then
    { s with mgmt := { s.mgmt with mac := macOfWords (s.mgmt.mac.setWidth 32) v } }
  else if n = 399 then { s with mgmt := { s.mgmt with dapPort := v.extractLsb' 0 16 } }
  else s

/-- The pair of word n in force is damaged (R362). -/
def State.wordDamaged (s : State) (n : Nat) : Bool :=
  sparseGet (fun _ => (0 : BitVec 32)) s.rst.wordErr n != 0 || !intact (sparseGet fusePair s.rst.words n)

/-- Word n is taken from a source, whole. -/
def State.wordTaken (s : State) (n : Nat) (source : BitVec 2) : State :=
  { s with rst := { s.rst with wordErr := sparseErase s.rst.wordErr n
                               wordFrom := sparseSet (fun _ => 0) s.rst.wordFrom n source } }

/-- A damaged pair in force: the word's fused value, or its ROM default, is used until the next reset; OPTION_BAD (R362,
R383, R399). -/
def State.checkWord (s : State) (n : Nat) : State :=
  if s.wordDamaged n then
    let f := s.fuseWord n
    let v := if intact f then f.val else romWord n
    let origin := sparseGet (fun _ => (0 : BitVec 2)) s.rst.wordFrom n
    let t := ({ s with rst := { s.rst with words := sparseSet fusePair s.rst.words n (pairOf v) } }.applyWord true n v).wordTaken n 0
    t.log 4 0x0205 0x00010005 (w32 n) 2 (origin.setWidth 32)
  else s

/-- A write to an entry of word n forms a new pair (R362). -/
def State.wordWritten (s : State) (n : Nat) : State := s.wordTaken n 2

/-- Words 128 to 511 in force, in order. -/
def State.wordsInForce (s : State) : List (BitVec 32) := (List.range 384).map fun i => s.optionWord (128 + i)

/-- What a commit writes for them: a bb_addr that a staged write placed is not written to the flash (R401). -/
def State.wordsToCommit (s : State) : List (BitVec 32) :=
  (List.range 384).map fun i => if i = 11 then (sparseGet fusePair s.rst.words 139).val else s.optionWord (128 + i)

/-- A commit begins with the sector erase; it waits for a black-box erase; a second one of the hub's own
follows the first (R456). -/
def State.startCommit (s : State) : State :=
  match s.rst.commit with
  | some _ => { s with rst := { s.rst with commitAgain := true } }
  | none => { s with rst := { s.rst with commit := some ⟨none, s.box.erasing, s.wordsToCommit⟩ } }

/-- Words of one 256-byte page of the flash option block, with the values a commit writes there; the pairs of the fuse-only
and the reserved words stay absent (R455). -/
def Commit.page (k : Commit) (n : Nat) : List (Nat × BitVec 32) :=
  (List.range 32).filterMap fun i =>
    let w := 32 * n + i
    if w < 128 ∨ 400 ≤ w then none else some (w, k.words.getD (w - 128) 0)

/-- Page n of the block is programmed. -/
def State.programPage (s : State) (k : Commit) (n : Nat) : State :=
  { s with rst := { s.rst with
      flash := (k.page n).foldl (fun f e => sparseSet (fun _ => ⟨0xFFFFFFFF, 0xFFFFFFFF⟩) f e.1 (pairOf e.2)) s.rst.flash } }

/-- The erase or page program in progress ends; the rest of the commit is abandoned (R400, R456). Some pages: how
many are programmed. -/
def State.cutCommit (s : State) : State × Option Nat :=
  match s.rst.commit with
  | none => (s, none)
  | some k =>
    let t := { s with rst := { s.rst with commit := none, commitAgain := false } }
    if k.waiting then (t, some 0)
    else
      match k.pages with
      | none => ({ t with rst := { t.rst with flash := [] } }, some 0)
      | some n => (t.programPage k n, some (n + 1))

/-- Pairs whose erase or program was cut off hold anything (log entry 141). -/
def State.loosePairs (s : State) (ns : List Nat) : State :=
  ns.foldl (fun t n =>
    let f := t.takeFree
    { f.2 with rst := { f.2.rst with
        flash := sparseSet (fun _ => ⟨0xFFFFFFFF, 0xFFFFFFFF⟩) f.2.rst.flash n ⟨f.1.setWidth 32, f.1.extractLsb' 32 32⟩ } }) s

/-- A commit ends at once, its erase or page program cut off (R456, at PWR_FAIL_N or with the flash's supply lost). -/
def State.stopCommit (s : State) : State :=
  match s.rst.commit with
  | none => s
  | some k =>
    let t := { s with rst := { s.rst with commit := none, commitAgain := false } }
    if k.waiting then t
    else
      match k.pages with
      | none => t.loosePairs ((List.range 384).map fun i => 128 + i)
      | some n => t.loosePairs ((k.page n).map fun e => e.1)

/-- The erase of a commit, or one of its page programs, ends (R456). -/
def execOptCommitPageDone (s : State) : Host.Outcome State Fault Refusal :=
  match s.rst.commit with
  | none => .next s
  | some k =>
    if k.waiting then .next s
    else
      match k.pages with
      | none => .next { s with rst := { s.rst with flash := [], commit := some { k with pages := some 0 } } }
      | some n =>
        let s1 := s.programPage k n
        if n < 15 then .next { s1 with rst := { s1.rst with commit := some { k with pages := some (n + 1) } } }
        else
          let again := s1.rst.commitAgain
          let s2 := { s1 with rst := { s1.rst with commit := none, commitAgain := false } }.log 1 0x0A05 2 272 0 0
          .next (if again then s2.startCommit else s2)

/-- A write of opt_commit; none is RANGE: any write while opt_busy = 1 (R456). -/
def State.optCommitCmd (s : State) (v : Word) : Option State :=
  if s.rst.commit.isSome then none else if v = 1 then some s.startCommit else if v = 0 then some s else none

end Sys2Proof.Machine
end

