-- ==== Sys2Proof/Machine/Frames.lean ====
section
/-!
DEFINITION. What every frame of the device goes through (R320 to R323, R346, R350): sub-ports, headers, checks of a
packet's bytes, the choice of a sub-port, and the wait for a paused priority.
-/
namespace Sys2Proof.Machine

/-- What is sent goes to the outbox, oldest first (log entry 6). -/
def State.send (s : State) (t : TxItem) : State := { s with fab := { s.fab with tx := s.fab.tx ++ [t] } }

def State.mapFab (s : State) (f : Fabric → Fabric) : State := { s with fab := f s.fab }

/-! ### Sub-ports and peers -/

def peerReset : Peer := ⟨64, none, 0, 0, 0, none⟩

def State.peerOf (s : State) (d : BitVec 14) : Peer := sparseGet (fun _ => peerReset) s.fab.peers d.toNat

def State.setPeer (s : State) (d : BitVec 14) (x : Peer) : State :=
  s.mapFab fun f => { f with peers := sparseSet (fun _ => peerReset) f.peers d.toNat x }

def State.sub (s : State) (k : Nat) : SubPort := vget s.fab.subs k (SubPort.reset 0)

def State.mapSub (s : State) (k : Nat) (g : SubPort → SubPort) : State :=
  s.mapFab fun f => { f with subs := vset f.subs k (g (s.sub k)) }

/-- A sub-port can carry packets: it is UP (R351, R429). -/
def State.subUp (s : State) (k : Nat) : Bool := decide ((s.sub k).st = .up)

/-- The sub-port sends: UP, with a MAC address (R351, R493). -/
def State.subSends (s : State) (k : Nat) : Bool := s.subUp k && decide ((s.sub k).mac ≠ 0)

/-- The time since which no sub-port is UP is brought up to date (R352). -/
def State.noteUp (s : State) : State :=
  s.mapFab fun f => { f with
    noUpSince := if (List.range 64).any fun k => s.subUp k then none else some (f.noUpSince.getD s.time) }

/-- IPv6 address of sub-port k of device d (R325). -/
def State.subIp6 (s : State) (d : BitVec 14) (k : Nat) : BitVec 128 :=
  s.fab.pfx.val ++ BitVec.ofNat 64 (d.toNat * 65536 + k / 8 * 256 + k % 8)

/-! ### Bytes of a packet (R346) -/

/-- One byte into the CRC-32C register. -/
def crcByte (c : BitVec 32) (b : Byte) : BitVec 32 :=
  (List.range 8).foldl (fun x _ => if x.getLsbD 0 then (x >>> 1) ^^^ 0x82F63B78 else x >>> 1) (c ^^^ b.setWidth 32)

/-- CRC-32C of a byte list. -/
def crc32c (bs : List Byte) : BitVec 32 := ~~~(bs.foldl crcByte 0xFFFFFFFF)

/-- The 64-byte Poldoal header, its fields little-endian (log entry 33). -/
def packetHeader (p : Packet) : List Byte :=
  [p.ver ++ p.ptype, p.op] ++
  leBytes 2 (p.chan.val + 4096 * bit p.first + 8192 * bit p.last + 16384 * bit p.ceEcho + 32768 * bit p.hasPmap) ++
  leBytes 4 p.psn.toNat ++ leBytes 4 p.epoch.toNat ++ leBytes 2 p.src.toNat ++ leBytes 2 p.dst.toNat ++
  leBytes 4 p.ack.toNat ++ leBytes 4 p.aux.toNat ++ leBytes 6 p.offset.toNat ++ [p.fmt, 0] ++
  leBytes 16 p.token.toNat ++ leBytes 16 p.pmap.toNat

/-- Big-endian bytes of a value: the order in which IP and UDP carry it. -/
def beBytes (n v : Nat) : List Byte := (leBytes n v).reverse

/-- Sum of a byte list's 16-bit words of network order; an odd last byte is a word's high half. -/
def sum16 : List Byte → Nat
  | [] => 0
  | [a] => 256 * a.toNat
  | a :: b :: r => 256 * a.toNat + b.toNat + sum16 r

/-- The Internet checksum of a list; 0 is sent as all ones (R346). -/
def ipChecksum (bs : List Byte) : BitVec 16 :=
  let n := sum16 bs
  let c := BitVec.ofNat 16 (65535 - (if n = 0 then 0 else (n - 1) % 65535 + 1))
  if c = 0 then 0xFFFF else c

/-- UDP header and CRC of a Poldoal packet between two addresses (R346). The packet number of the source port is the psn field
(log entry 119). -/
def State.udpHead (s : State) (src dst : BitVec 128) (p : Packet) : UdpHead :=
  let crc := crc32c (packetHeader p ++ p.payload)
  let sp := BitVec.ofNat 16 (0xC000 + (16 * p.chan.val + p.psn.toNat) % 0x4000)
  let len := p.payload.length + 76
  let ports := beBytes 2 sp.toNat ++ beBytes 2 s.fab.udpPort.toNat ++ beBytes 2 len
  let pseudo := beBytes 16 src.toNat ++ beBytes 16 dst.toNat ++ beBytes 4 len ++ beBytes 4 17
  { srcPort := sp, dstPort := s.fab.udpPort, crc := crc
    checksum := ipChecksum (pseudo ++ ports ++ [0, 0] ++ packetHeader p ++ p.payload ++ leBytes 4 crc.toNat) }

/-! ### Headers of a frame (R320, R322, R323) -/

/-- C-tag and MAC addresses of a frame of sub-port k at a priority. -/
def State.txHead (s : State) (k : Fin 64) (pcp : BitVec 3) (dst : BitVec 48) (ip : Option IpHead) : TxHead :=
  let x := s.sub k.val
  { vid := if x.vid = 0xFFFF then none else some (x.vid.setWidth 12), pcp := pcp, srcMac := x.mac, dstMac := dst, ip := ip }

/-- An IPv6 header; hop limit 64. Which DSCP matches a PCP is open. -/
def ip6Head (src dst : BitVec 128) (pcp : BitVec 3) (ecn : BitVec 2) : IpHead :=
  { v6 := true, src := src, dst := dst, dscp := Config.dscpOf pcp, ecn := ecn, hopLimit := 64, df := false }

/-- An IPv4 header with DF = 1 and TTL 64. -/
def ip4Head (src dst : BitVec 128) (pcp : BitVec 3) (ecn : BitVec 2) : IpHead :=
  { v6 := false, src := src, dst := dst, dscp := Config.dscpOf pcp, ecn := ecn, hopLimit := 64, df := true }

/-- An IPv4 address as ::FFFF:a.b.c.d (R356). -/
def mapped4 (a : BitVec 32) : BitVec 128 := (0xFFFF : BitVec 96) ++ a

/-! ### Sending (R321, R350) -/

/-- A frame leaves now: its bytes are counted; a length that is another protocol's own is free (log entry 31). -/
def State.putOut (s : State) (f : OutFrame) : State :=
  let r := match f.len with
    | some n => (w64 n, s)
    | none => let v := s.takeFree; (v.1 &&& 0x3FFF, v.2)
  (r.2.mapSub f.sub.val fun x => { x with txBytes := x.txBytes + r.1 }).send f.item

/-- The frame's priority is paused on its sub-port. -/
def State.pausedFor (s : State) (f : OutFrame) : Bool := (s.sub f.sub.val).paused.getLsbD f.prio.toNat

/-- A frame is started, or waits while its priority is paused (R321). -/
def State.transmit (s : State) (f : OutFrame) : State :=
  if s.pausedFor f then s.mapFab fun x => { x with waiting := x.waiting ++ [f] } else s.putOut f

/-- Frames whose pause has ended are started, in order. -/
def State.releaseWaiting (s : State) : State :=
  let go := s.fab.waiting.filter fun f => !s.pausedFor f
  go.foldl (fun t f => t.putOut f) (s.mapFab fun x => { x with waiting := x.waiting.filter fun f => s.pausedFor f })

/-- Next sub-port of the round robin that sends and is not ruled out (R350). -/
def State.pickSub (s : State) (bad : Nat → Bool) : Option (Fin 64) :=
  match (List.range 64).find? fun i => s.subSends ((s.fab.rr.val + 1 + i) % 64) && !bad ((s.fab.rr.val + 1 + i) % 64) with
  | none => none
  | some i => some (Fin.ofNat 64 (s.fab.rr.val + 1 + i))

/-- The sub-port's transmit queue is full. -/
def State.subFull (s : State) (k : Nat) : Bool := s.fab.full.getLsbD k

/-- Sub-port for a packet that is no new REQ: one whose queue is not full; while all are full, it waits in the next one's. -/
def State.pickAny (s : State) (bad : Nat → Bool) : Option (Fin 64) :=
  match s.pickSub fun k => bad k || s.subFull k with
  | some k => some k
  | none => s.pickSub bad

/-- Sub-port of the peer a packet goes to (R350); while none is known to be healthy, the one of the same number. -/
def peerTarget (healthy : BitVec 64) (k : Fin 64) : Fin 64 :=
  match (List.range 64).find? fun i => healthy.getLsbD ((k.val + i) % 64) with
  | none => k
  | some i => Fin.ofNat 64 (k.val + i)

/-- Frame bytes of a Poldoal packet (R346). -/
def poldoalFrame (p : Packet) (tagged : Bool) : Nat := p.payload.length + (if tagged then 138 else 134)

/-- A Poldoal packet as sub-port k sends it. -/
def State.poldoalItem (s : State) (k : Fin 64) (p : Packet) : TxItem :=
  let j := peerTarget (s.peerOf p.dst).healthy k
  let src := s.subIp6 s.fab.devId.val k.val
  let dst := s.subIp6 p.dst j.val
  .poldoal k j (s.txHead k s.fab.prio (s.sub k.val).nhMac (some (ip6Head src dst s.fab.prio 2))) (s.udpHead src dst p) p

/-- A packet goes to sub-port k, from which the round robin goes on. -/
def State.xmit (s : State) (k : Fin 64) (p : Packet) : State :=
  let n := poldoalFrame p (decide ((s.sub k.val).vid ≠ 0xFFFF))
  (s.mapFab fun f => { f with rr := k }).transmit ⟨k, s.fab.prio, some n, s.poldoalItem k p⟩

/-- A packet that is no REQ is sent: inside the package to this device itself, else sprayed. -/
def State.sendPacket (s : State) (p : Packet) : State :=
  if p.dst = s.fab.devId.val then s.mapFab fun f => { f with loop := f.loop ++ [p] }
  else
    match s.pickAny fun _ => false with
    | none => s
    | some k => s.xmit k p

/-- A packet of this device with every field zero but those of its channel (R346). -/
def packetOf (s : State) (ptype : BitVec 4) (ch : Fin 4096) (k : Channel) : Packet :=
  { ver := 1, ptype := ptype, op := 0, chan := ch, first := false, last := false, ceEcho := false,
    hasPmap := false, psn := 0, epoch := k.epoch, src := s.fab.devId.val, dst := k.peer, ack := 0,
    aux := 0, offset := 0, fmt := 0, token := 0, pmap := 0, payload := [] }

/-- BYE on every OPEN channel whose sub-ports can still send (R353, R369). -/
def State.sendByes (s : State) : State :=
  s.fab.chans.foldl (fun t e =>
    if e.2.st = .opened then t.sendPacket (packetOf t 8 (Fin.ofNat 4096 e.1) e.2) else t) s

end Sys2Proof.Machine
end

