-- ==== Sys2Proof/Machine/Contain.lean ====
section
/-!
DEFINITION. Losing a unit: pool returns (R361, R366), the stop of the device (R369), the fence of a stack
(R278, R279).
-/
namespace Sys2Proof.Machine

/-! ### The stop of the device (R369) -/

/-- The drain engine stops: no drain or restore, every buffer free, eval_hold clear (R316). -/
def State.stopDrainEngine (s : State) : State :=
  { s with train := { s.train with snap := Vector.replicate 2 .free, evalHold := Vector.replicate 2 false,
                                   job := none } }

/-- A core of the map that is not fenced yet. -/
def CoreState.fenceable (x : CoreState) : Bool := decide (x.cond ≠ .fenced ∧ x.cond ≠ .absent)

/-- Every core is fenced, for no fault of its own (R369 step 1). -/
def State.fenceAll (s : State) : State :=
  (List.finRange 64).foldl (fun t c => if (t.core c).fenceable then t.fenceCore c false else t) s

/-- R369. -/
def State.deviceStop (s : State) : State :=
  let s1 := (s.fenceAll.stopDrainEngine).sendByes
  { s1 with cont := { s1.cont with stopped := true }, balls := { s1.balls with alert := true } }

/-- ERROR_NOTICE becomes pending at each core of notice_mask that is neither fenced nor gated (R371). -/
def State.errorNotice (s : State) : State :=
  (List.finRange 64).foldl (fun t c =>
    if t.recd.noticeMask.getLsbD c.val && decide ((t.core c).cond ≠ .fenced ∧ (t.core c).cond ≠ .absent ∧
        (vget t.pow.domains c.val ⟨.off, false, false, 0, 0⟩).phase = .on) then
      t.mapCore c fun x => { x with notice := { x.notice with error := true } }
    else t) s

/-! ### Ends of a drain or restore (R302, R303, R308) -/

def State.mapTrain (s : State) (f : Training → Training) : State := { s with train := f s.train }

def State.setSnap (s : State) (b : Fin 2) (x : SnapState) : State :=
  s.mapTrain fun t => { t with snap := t.snap.set b.val x b.isLt }

/-- Source word of the drain engine's records (R317). -/
def drainSource : BitVec 32 := 0x00010000

/-- A command ends in a state that is no success: snap_irq, engine idle. -/
def State.endJob (s : State) (b : Fin 2) (x : SnapState) : State :=
  ((s.setSnap b x).mapTrain fun t => { t with job := none }).raise s.train.snapIrq

/-- R302, R303: the drain fails. -/
def State.drainFails (s : State) (j : DrainJob) (status : Nat) (sec : BitVec 32) : State :=
  (s.endJob j.buf .failed).log 4 0x0B02 drainSource (w32 j.buf.val) (w32 status) sec

/-- The restore ends without success. -/
def State.restoreFail (s : State) (j : DrainJob) (x : SnapState) (status : Nat) (sec : BitVec 32) : State :=
  ((s.endJob j.buf x).mapTrain fun t => { t with restoreStatus := BitVec.ofNat 8 status }).log 4 0x0B04 drainSource
    (w32 j.buf.val) (w32 status) sec

/-- The drain or restore in progress ends without success; section: the one it names in its record. -/
def State.jobFails (s : State) (status : Nat) (sec : BitVec 32) : State :=
  match s.train.job with
  | none => s
  | some j => if j.restore then s.restoreFail j .restoreFailed status 0xFFFFFFFF else s.drainFails j status sec

/-- Stacks of a range that lies wholly in stack DRAM or staging SRAM, each block once; none where it does not. -/
def State.stacksFrom (s : State) : Nat → Nat → Nat → Option (List StackId)
  | 0, _, _ => some []
  | fuel + 1, a, stop =>
    if stop ≤ a then some []
    else
      match (s.region a).stack?, s.stacksFrom fuel (a / 4096 * 4096 + 4096) stop with
      | some st, some r => some (st :: r)
      | _, _ => none

def State.stacksOf (s : State) (a len : Nat) : Option (List StackId) := s.stacksFrom (len / 4096 + 2) a (a + len)

/-- R305: a drain or restore with an extent on stack st ends as a failure, POISONED. -/
def State.jobLoses (s : State) (st : StackId) : State :=
  match s.train.job with
  | none => s
  | some j =>
    match j.extents.findIdx? fun e => ((s.stacksOf e.src e.len).getD []).contains st with
    | none => s
    | some i => s.jobFails 9 (w32 i)

/-! ### Critical entries (R362, R363, R457) -/

/-- The critical pairs in the order of R457: name of the entry and whether its halves agree. -/
def State.criticals (s : State) : List (Nat × Bool) :=
  let t := s.train
  [(0x240001, intact t.keyLo), (0x240002, intact t.keyHi), (0x240003, intact t.step), (0x240005, intact t.dataPos),
   (0x240006, intact t.sps), (0x240007, intact t.stepBase), (0x130001, intact s.fab.devId), (0x130002, intact s.fab.pfx),
   (0x270501, intact t.shardIdx), (0x270502, intact t.nShards), (0x2A1001, intact s.pow.cap), (0x2C0006, intact s.mgmt.vid)] ++
  (List.finRange 8).map fun i => (0x2C1002 + 256 * i.val, intact (s.mgmt.trust[i]).perms)

/-- Critical entry n is damaged: marked, and recorded where it was not marked yet (R362). -/
def State.checkCritical (s : State) (n : Nat) (entry : Nat) (ok : Bool) : State :=
  if ok || vget s.cont.crit n true then s
  else { s with cont := { s.cont with crit := vset s.cont.crit n true } }.log 6 0x0204 0x00010005 (w32 entry) 0 0

/-- Every critical pair is checked. -/
def State.checkCriticals (s : State) : State :=
  ((List.range 20).zip s.criticals).foldl (fun t p => t.checkCritical p.1 p.2.1 p.2.2) s

/-- The mark of critical entry n goes (R363). -/
def State.clearCrit (s : State) (n : Nat) : State := { s with cont := { s.cont with crit := vset s.cont.crit n false } }

/-! ### Fence of a stack (R278, R279) -/

/-- Poisoned words of the last second (R281). -/
def Stack.poisonRate (k : Stack) (now : Nat) : Nat :=
  (k.poisonTimes.filter fun t => decide (now < t + 100000000)).length

/-- Stacks out of use when st is fenced: the one the map excludes, or the one ilv_next names. -/
def State.otherLost (s : State) (st : StackId) : Option Nat :=
  if s.scfg.ilvActive ≠ 0xFF then some s.scfg.ilvActive.toNat
  else if s.scfg.ilvNext ≠ 0xFF ∧ s.scfg.ilvNext.toNat ≠ st.val then some s.scfg.ilvNext.toNat
  else none

/-- Data-space addresses of the commands that wait in a stack's ring, oldest first (R276). -/
def Stack.waitingCommands (k : Stack) (st : StackId) : List Nat :=
  let n := k.ringSize.toNat
  let base := 0x010000000000 + 0x10000000 * st.val + k.ringBase.toNat
  (List.range ((k.ringTail.toNat + n - k.ringHead.toNat) % max n 1)).map fun i => base + 64 * ((k.ringHead.toNat + i) % n)

/-- The command at a ends with STACK_FENCED, its status written last and the ring's source raised where its irq byte asks for it
(R277, R278): the write goes to the fenced stack's own SRAM. -/
def State.endFenced (s : State) (unit : Nat) (irq : BitVec 16) (a : Nat) : State :=
  let asks := (cellGet s.mem.data (a + 62)).getLsbD 0
  let s1 := s.writeHome (a + 63) [5]
  if asks then s1.raiseFrom (1 + unit) irq else s1

/-- R278: the stack serves nothing; STACK_FENCE; ilv_next takes its number and is committed; a second
missing stack stops the device (R279). The commands of its ring end with STACK_FENCED, and the additions that wait are
discarded. Its queue's units come back, so the pool closes (R361). A drain or restore that runs over the stack ends as a
failure (R305). -/
def State.fenceStack (s : State) (st : StackId) (cause : Nat) : State :=
  let k := s.stack st
  if k.st = .fenced then s
  else
    let s0 := (s.setStack st { k with st := .fenced, saQueue := [], ringHead := k.ringTail, engEnd := none }).closeFence (0x60 + st.val)
    let s1 := k.saQueue.foldl (fun t j => t.discardWrite j.target (4 * j.cnt)) s0
    let s2 := (((k.waitingCommands st).foldl (fun t a => t.endFenced st.val k.ringIrq a) s1).jobLoses st).log 5 0x0506 (w32 st.val) (w32 cause)
      (w32 (k.poisonRate s.time)) 0
    match s.otherLost st with
    | none =>
      ({ s2 with scfg := { s2.scfg with ilvNext := BitVec.ofNat 8 st.val } }.wordWritten 128).startCommit
    | some o =>
      (s2.log 7 0x0507 (w32 st.val) (w32 (Nat.lor (2 ^ st.val) (2 ^ o))) 0 0).deviceStop

/-! ### Pool returns (R361, R366) -/

/-- The tag ledger of core c fails: LEDGER_FAULT, and the core is fenced with CORE_FENCE cause 1 (R364). -/
def State.failCoreTags (s : State) (c : CoreId) (check : Nat) : State :=
  let s1 := s.closeFault c.val check 6
  if (s1.core c).fenceable then
    let n := (s1.core c).items.length
    (s1.log 6 0x0102 (coreSource c) 1 (w32 n) 0).fenceCore c true
  else s1

/-- Tags of core c come back (R247). -/
def State.tagsReturn (s : State) (c : CoreId) (n : Nat) : State :=
  match s.poolReturn c.val n with
  | (s1, none) => s1
  | (s1, some n) => s1.failCoreTags c n

end Sys2Proof.Machine
end

