-- ==== Sys2Proof/Machine/Interrupts.lean ====
section
/-!
DEFINITION. Interrupt messages, claims and completions (R384 to R392): the effects, and the arrival of a
message at a target block.
-/
namespace Sys2Proof.Machine

/-- The target takes messages: the hub, or a core that is neither fenced nor absent (R389). -/
def State.takesMessages (s : State) (t : Nat) : Bool :=
  if h : t < 64 then (s.core ⟨t, h⟩).fenceable else t == 64

/-- A message for source n at target t (R387, R389). While a reset is in progress it is discarded uncounted. -/
def State.doorbell (s : State) (t n : Nat) : State :=
  if s.rst.phase = .porHeld ∨ s.rst.phase = .sysHeld ∨ s.rst.phase = .quiescing then s
  else if s.takesMessages t then
    let b := s.targetBlock t
    s.setTarget t { b with pending := flagSet b.pending n true }
  else { s with int := { s.int with drop := s.int.drop + 1 } }

/-- Target of a message. -/
def DoorMsg.target (m : DoorMsg) : Nat := m.msg.toNat / 4096

/-- The first message with these bits that no earlier one of its unit to its target holds back (R15, R19). -/
def Interrupts.deliverable (x : Interrupts) (msg : BitVec 19) : Option DoorMsg :=
  x.inFlight.find? fun m =>
    m.msg == msg && x.inFlight.find? (fun y => y.unit == m.unit && y.target == m.target) == some m

/-- A message reaches its target block, in its turn, over the network of the target's die (R16, R364; log entry 56). -/
def execDoorbellMessage (msg : BitVec 19) (s : State) : Host.Outcome State Fault Refusal :=
  match s.int.deliverable msg with
  | none => .next s
  | some m =>
    let s1 := { s with int := { s.int with inFlight := s.int.inFlight.erase m } }
    let t := msg.toNat / 4096
    .next ((if t < 64 then s1.passPool (0x50 + t / 16) 1 else s1).doorbell t (msg.toNat % 4096))

/-- Target and source of a value of int_set or int_clr; none is RANGE (R388). -/
def doorbellValue (v : Word) : Option (Nat × Nat) :=
  if v.toNat < 65 * 4096 ∧ v.toNat % 4096 ≠ 0xFFF then some (v.toNat / 4096, v.toNat % 4096) else none

/-- A write of int_set (R388). -/
def State.intSetCmd (s : State) (v : Word) : Option State :=
  match doorbellValue v with
  | none => none
  | some (t, n) => some (s.doorbell t n)

/-- A write of int_clr (R388). -/
def State.intClrCmd (s : State) (v : Word) : Option State :=
  match doorbellValue v with
  | none => none
  | some (t, n) =>
    let b := s.targetBlock t
    some (s.setTarget t { b with pending := flagSet b.pending n false })

/-- What a claim at target t would return (R391, R392). -/
def State.peekSource (s : State) (t : Nat) : Nat := (s.bestSource t).getD 0xFFF

/-- A claim at target t: the source and the state after it (R391). -/
def State.claimSource (s : State) (t : Nat) : Nat × State :=
  match s.bestSource t with
  | none => (0xFFF, s)
  | some n =>
    let b := s.targetBlock t
    (n, s.setTarget t { b with pending := flagSet b.pending n false, inService := flagSet b.inService n true })

/-- A completion at target t; none is RANGE (R392). -/
def State.completeSource (s : State) (t : Nat) (v : Word) : Option State :=
  let b := s.targetBlock t
  if v.toNat < 0xFFF ∧ flagGet b.inService v.toNat then
    some (s.setTarget t { b with inService := flagSet b.inService v.toNat false })
  else none

end Sys2Proof.Machine
end

