-- ==== Sys2Proof/Machine/Flags.lean ====
section
/-!
DEFINITION. Number formats (R29 to R36), rounding (R44, R45), conversions with their flags (R41 to R43)
and the sticky flags (R51, R52).
-/
namespace Sys2Proof.Machine

/-- The element types of R114, the number formats of R29 among them, and the accumulator word. -/
inductive Fmt where
  | fp64
  | fp32
  | fp16
  | bf16
  | e4m3
  | e5m2
  | e3m2
  | e2m3
  | e2m1
  | int8
  | int4
  | split32
  | i16
  | i32
  | i64
  /-- The accumulator word of a float slot (R167). -/
  | acc
  deriving DecidableEq, Repr

/-- Element type codes (R114); 0xF is reserved. -/
def Fmt.ofCode (k : BitVec 4) : Option Fmt :=
  match k.toNat with
  | 0 => some .fp64
  | 1 => some .fp32
  | 2 => some .fp16
  | 3 => some .bf16
  | 4 => some .e4m3
  | 5 => some .e5m2
  | 6 => some .e3m2
  | 7 => some .e2m3
  | 8 => some .e2m1
  | 9 => some .int8
  | 10 => some .int4
  | 11 => some .split32
  | 12 => some .i16
  | 13 => some .i32
  | 14 => some .i64
  | _ => none

/-- Lane bytes of an element type (R114). -/
def Fmt.lanes : Fmt → Nat
  | .fp64 | .i64 => 8
  | .fp32 | .i32 => 4
  | .fp16 | .bf16 | .split32 | .i16 => 2
  | _ => 1

/-- Integer formats and lane types (R43). -/
def Fmt.isInt : Fmt → Bool
  | .int8 | .int4 | .i16 | .i32 | .i64 => true
  | _ => false

/-- Bits of an element. -/
def Fmt.bits : Fmt → Nat
  | .acc => 48
  | .fp64 | .i64 => 64
  | .fp32 | .i32 => 32
  | .fp16 | .bf16 | .split32 | .i16 => 16
  | .e4m3 | .e5m2 | .int8 => 8
  | .e3m2 | .e2m3 => 6
  | .e2m1 | .int4 => 4

/-- Exponent bits (R29); 0 for integers. -/
def Fmt.ebits : Fmt → Nat
  | .acc => 10
  | .fp64 => 11
  | .fp32 | .bf16 | .split32 => 8
  | .fp16 | .e5m2 => 5
  | .e4m3 => 4
  | .e3m2 => 3
  | .e2m3 | .e2m1 => 2
  | _ => 0

/-- Fraction bits (R29). -/
def Fmt.fbits : Fmt → Nat
  | .acc => 37
  | .fp64 => 52
  | .fp32 => 23
  | .fp16 => 10
  | .bf16 | .split32 => 7
  | .e4m3 | .e2m3 => 3
  | .e5m2 | .e3m2 => 2
  | .e2m1 => 1
  | _ => 0

/-- Exponent bias (R29). -/
def Fmt.bias : Fmt → Nat
  | .acc => 511
  | .fp64 => 1023
  | .fp32 | .bf16 | .split32 => 127
  | .fp16 | .e5m2 => 15
  | .e4m3 => 7
  | .e3m2 => 3
  | .e2m3 | .e2m1 => 1
  | _ => 0

/-- The format has infinities and NaNs as IEEE 754 lays them out (R31). -/
def Fmt.ieee : Fmt → Bool
  | .fp64 | .fp32 | .fp16 | .bf16 | .e5m2 | .split32 | .acc => true
  | _ => false

/-- The format has no NaN (R31). -/
def Fmt.noNan : Fmt → Bool
  | .e3m2 | .e2m3 | .e2m1 => true
  | _ => false

/-! ### Exact values -/

/-- The value of an element: (−1)^neg · m · 2^e with m > 0, a signed zero, an infinity, or a NaN with its
fraction field of `width` bits. -/
inductive FVal where
  | zero (neg : Bool)
  | num (neg : Bool) (m : Nat) (e : Int)
  | inf (neg : Bool)
  | nan (neg : Bool) (payload width : Nat) (quiet : Bool)
  deriving DecidableEq, Repr

/-- The NaN of an invalid operation: every format makes its canonical NaN of it. -/
def FVal.default : FVal := .nan false 1 1 true

def FVal.isNan : FVal → Bool
  | .nan _ _ _ _ => true
  | _ => false

def FVal.isSnan : FVal → Bool
  | .nan _ _ _ q => !q
  | _ => false

def FVal.isZero : FVal → Bool
  | .zero _ => true
  | _ => false

def FVal.isInf : FVal → Bool
  | .inf _ => true
  | _ => false

def FVal.finite : FVal → Bool
  | .zero _ | .num _ _ _ => true
  | _ => false

def FVal.sign : FVal → Bool
  | .zero n | .num n _ _ | .inf n | .nan n _ _ _ => n

def FVal.withSign (v : FVal) (n : Bool) : FVal :=
  match v with
  | .zero _ => .zero n
  | .num _ m e => .num n m e
  | .inf _ => .inf n
  | .nan _ p w q => .nan n p w q

/-- The value of an integer. -/
def FVal.ofInt (i : Int) : FVal :=
  if i = 0 then .zero false else .num (decide (i < 0)) i.natAbs 0

/-- The value times 2^k, exactly. -/
def FVal.scaled (v : FVal) (k : Int) : FVal :=
  match v with
  | .num n m e => .num n m (e + k)
  | w => w

/-! ### Flags (R51) -/

def fNX : BitVec 6 := 1
def fUF : BitVec 6 := 2
def fOF : BitVec 6 := 4
def fDZ : BitVec 6 := 8
def fNV : BitVec 6 := 16
def fSAT : BitVec 6 := 32

def flagIf (b : Bool) (f : BitVec 6) : BitVec 6 := if b then f else 0

/-- Flags raised by core c's work are sticky (R52). -/
def State.raiseFlags (s : State) (c : CoreId) (f : BitVec 6) : State :=
  s.mapCtl c fun t => { t with fflags := t.fflags ||| f }

/-! ### Reading an element (R29, R31, R33) -/

/-- Value of a floating-point element from its raw bits. -/
def decodeFloat (f : Fmt) (raw : Nat) : FVal :=
  let fb := f.fbits
  let frac := raw % 2 ^ fb
  let ex := raw / 2 ^ fb % 2 ^ f.ebits
  let neg := decide (raw / 2 ^ (fb + f.ebits) % 2 = 1)
  let top := 2 ^ f.ebits - 1
  if f.ieee ∧ ex = top then
    if frac = 0 then .inf neg
    else .nan neg frac fb (decide (f = .e5m2) || decide (2 ^ (fb - 1) ≤ frac))
  else if f = .e4m3 ∧ ex = top ∧ frac = 7 then .nan neg frac 3 true
  else if ex = 0 then
    if frac = 0 then .zero neg else .num neg frac (1 - (f.bias : Int) - fb)
  else .num neg (2 ^ fb + frac) ((ex : Int) - f.bias - fb)

/-- Value of an element from its raw bits; only the element's own bits count (R115). -/
def decodeElem (f : Fmt) (raw : Nat) : FVal :=
  if f.isInt then .ofInt (BitVec.ofNat f.bits raw).toInt else decodeFloat f (raw % 2 ^ f.bits)

/-! ### Rounding (R44, R45) -/

/-- The five rounding modes. -/
inductive RMode where
  | rne
  | rtz
  | rdn
  | rup
  | sr
  deriving DecidableEq, Repr

/-- The mode a rounding field selects; none is reserved (R44). -/
def RMode.ofField (rm dyn : BitVec 3) : Option RMode :=
  match (if rm = 7 then dyn else rm).toNat with
  | 0 => some .rne
  | 1 => some .rtz
  | 2 => some .rdn
  | 3 => some .rup
  | 4 => some .sr
  | _ => none

/-- Magnitude m · 2^e rounded to a multiple of 2^q: the multiple, and whether it is inexact; r is the
16-bit field of the draw (R45). -/
def roundMag (neg : Bool) (m : Nat) (e q : Int) (rm : RMode) (r : Nat) : Nat × Bool :=
  if q ≤ e then (m * 2 ^ (e - q).toNat, false)
  else
    let k := (q - e).toNat
    let n := m / 2 ^ k
    let rest := m % 2 ^ k
    if rest = 0 then (n, false)
    else
      let up := match rm with
        | .rne => decide (2 ^ k < 2 * rest) || (decide (2 ^ k = 2 * rest) && decide (n % 2 = 1))
        | .rtz => false
        | .rdn => neg
        | .rup => !neg
        | .sr => decide (65536 ≤ rest * 65536 / 2 ^ k + r)
      (if up then n + 1 else n, true)

/-- floor(log2(m · 2^e)) for m > 0. -/
def floorLog2 (m : Nat) (e : Int) : Int := (Nat.log2 m : Int) + e

/-! ### Writing an element (R33, R41 to R43) -/

/-- How a core's fmtctl says results are formed. -/
structure FmtCtl where
  sat : Bool
  dnan : Bool
  deriving DecidableEq, Repr

/-- The canonical NaN (R31). -/
def canonicalNan (f : Fmt) : Nat :=
  match f with
  | .e4m3 => 0x7F
  | .e5m2 => 0x7E
  | _ => (2 ^ f.ebits - 1) * 2 ^ f.fbits + 2 ^ (f.fbits - 1)

/-- The NaN of R33: canonical, or the operand's sign and payload, quiet, cut or padded at the low end. -/
def nanRaw (f : Fmt) (neg : Bool) (payload width : Nat) (dnan : Bool) : Nat :=
  if dnan then canonicalNan f
  else
    let s := if neg then 2 ^ (f.bits - 1) else 0
    match f with
    | .e4m3 => s + 0x7F
    | _ =>
      let fb := f.fbits
      let p := if width < fb then payload * 2 ^ (fb - width) else payload / 2 ^ (width - fb)
      s + (2 ^ f.ebits - 1) * 2 ^ fb + Nat.lor p (2 ^ (fb - 1))

/-- Largest finite value: significand and exponent of its last place (R31). -/
def maxFinite (f : Fmt) : Nat × Int :=
  match f with
  | .e4m3 => (14, 5)
  | _ =>
    let ex : Int := if f.ieee then 2 ^ f.ebits - 2 else 2 ^ f.ebits - 1
    (2 ^ (f.fbits + 1) - 1, ex - f.bias - f.fbits)

/-- Raw magnitude of the largest finite value. -/
def maxRaw (f : Fmt) : Nat :=
  match f with
  | .e4m3 => 0x7E
  | _ => if f.ieee then (2 ^ f.ebits - 1) * 2 ^ f.fbits - 1 else 2 ^ (f.bits - 1) - 1

/-- A rounded significand and its last place, brought back to fbits + 1 bits after a carry. -/
def normalise (f : Fmt) (n : Nat) (q : Int) : Nat × Int :=
  if 2 ^ (f.fbits + 1) ≤ n then (n / 2, q + 1) else (n, q)

/-- IEEE overflow goes to infinity for the mode and sign; stochastic counts as away from zero (R42). -/
def overflowToInf (neg : Bool) : RMode → Bool
  | .rne | .sr => true
  | .rtz => false
  | .rdn => neg
  | .rup => !neg

/-- What a finite value becomes in a floating-point format, with its flags (R42). -/
def encodeFinite (f : Fmt) (neg : Bool) (m : Nat) (e : Int) (rm : RMode) (ctl : FmtCtl) (r : Nat) :
    Nat × BitVec 6 :=
  let s := if neg then 2 ^ (f.bits - 1) else 0
  let fb := f.fbits
  let lg := floorLog2 m e
  let emin : Int := 1 - (f.bias : Int)
  let q0 := max lg emin - fb
  let (n0, inexact) := roundMag neg m e q0 rm r
  let (n, q) := normalise f n0 q0
  let (mn, mq) := maxFinite f
  if mq < q ∨ (q = mq ∧ mn < n) then
    if ctl.sat ∨ f.noNan then (s + maxRaw f, fOF ||| fNX ||| fSAT)
    else if f = .e4m3 then (canonicalNan f, fOF ||| fNX)
    else if overflowToInf neg rm then (s + (2 ^ f.ebits - 1) * 2 ^ fb, fOF ||| fNX)
    else (s + maxRaw f, fOF ||| fNX)
  else
    let free := normalise f (roundMag neg m e (lg - fb) rm r).1 (lg - fb)
    let tiny := decide (lg < emin) && decide (floorLog2 free.1 free.2 < emin)
    let fl := flagIf inexact fNX ||| flagIf (tiny && inexact) fUF
    if n < 2 ^ fb then (s + n, fl)
    else (s + (q + fb + f.bias).toNat * 2 ^ fb + (n - 2 ^ fb), fl)

/-- A value packed into a floating-point format (R41, R42). -/
def encodeFloat (f : Fmt) (v : FVal) (rm : RMode) (ctl : FmtCtl) (r : Nat) : Nat × BitVec 6 :=
  match v with
  | .nan neg p w q =>
    if f.noNan then (0, fNV) else (nanRaw f neg p w ctl.dnan, flagIf (!q) fNV)
  | .inf neg =>
    let s := if neg then 2 ^ (f.bits - 1) else 0
    if f.noNan ∨ ctl.sat then (s + maxRaw f, fSAT)
    else if f = .e4m3 then (canonicalNan f, fNV)
    else (s + (2 ^ f.ebits - 1) * 2 ^ f.fbits, 0)
  | .zero neg => (if neg then 2 ^ (f.bits - 1) else 0, 0)
  | .num neg m e => encodeFinite f neg m e rm ctl r

/-- Most negative and most positive integers of w bits. -/
def intMin (w : Nat) : Int := -(2 ^ (w - 1))
def intMax (w : Nat) : Int := 2 ^ (w - 1) - 1

/-- Raw two's complement of i in w bits. -/
def rawInt (w : Nat) (i : Int) : Nat := (BitVec.ofInt w i).toNat

/-- An integer clamped to w bits; the flag says so. -/
def clampInt (w : Nat) (i : Int) : Int × Bool :=
  if intMax w < i then (intMax w, true) else if i < intMin w then (intMin w, true) else (i, false)

/-- A value packed into an integer type; `fromInt`: the source is an integer format (R43). -/
def encodeInt (f : Fmt) (v : FVal) (rm : RMode) (fromInt : Bool) (r : Nat) : Nat × BitVec 6 :=
  let w := f.bits
  let clamped := if fromInt then fSAT else fNV ||| fSAT
  match v with
  | .nan _ _ _ _ => (0, fNV)
  | .inf neg => (rawInt w (if neg then intMin w else intMax w), fNV ||| fSAT)
  | .zero _ => (0, 0)
  | .num neg m e =>
    let (n, inexact) := roundMag neg m e 0 rm r
    let i : Int := if neg then -(n : Int) else n
    let (j, cut) := clampInt w i
    (rawInt w j, if cut then clamped else flagIf inexact fNX)

/-- Conversion of a value into an element type: raw bits and flags (R41 to R43). -/
def encodeElem (f : Fmt) (v : FVal) (rm : RMode) (ctl : FmtCtl) (fromInt : Bool) (r : Nat) :
    Nat × BitVec 6 :=
  if f.isInt then encodeInt f v rm fromInt r else encodeFloat f v rm ctl r

/-- A lane as R115 has it: INT4 lanes hold copies of the sign, other narrow elements zeros above. -/
def laneOf (f : Fmt) (raw : Nat) : Nat :=
  match f with
  | .int4 => if 8 ≤ raw % 16 then 0xF0 + raw % 16 else raw % 16
  | _ => raw % 2 ^ f.bits

/-! ### Working formats (R195, R196) -/

/-- The float working format and integer width of a source type (R196). -/
def Fmt.workWide : Fmt → Bool
  | .fp64 | .i64 => true
  | _ => false

/-- Working lane width (R196). -/
def Fmt.workLanes : Fmt → Nat
  | .fp64 | .i64 => 8
  | .fp32 | .i32 => 4
  | _ => 2

/-- The float working format. -/
def workFmt (wide : Bool) : Fmt := if wide then .fp64 else .fp32

/-- A stage's result rounded to the working format, nearest even; no saturation (R195; log entry 27). -/
def roundWork (wide : Bool) (v : FVal) : FVal × BitVec 6 :=
  match v with
  | .num neg m e =>
    let (raw, fl) := encodeFinite (workFmt wide) neg m e .rne ⟨false, false⟩ 0
    (decodeFloat (workFmt wide) raw, fl)
  | w => (w, 0)

end Sys2Proof.Machine
end

