-- ==== Sys2Proof/Machine/Functions.lean ====
section
/-!
DEFINITION. The function stage between its special values (R204): each function is enclosed by two numbers, computed in fixed point
of 320 bits, and the result is a working-format number within the stated error of everything between them. Which of these the
hardware's table and polynomial give is open: the constant fnStep says (log entry 10).
-/
namespace Sys2Proof.Machine

/-! ### Fixed point: a number v stands for v · 2^−320 -/

def fxBits : Nat := 320

def fxOne : Nat := 2 ^ fxBits

def fxMul (a b : Nat) : Nat := a * b / fxOne

/-- ln 2. -/
def fxLn2 : Nat := 0xb17217f7d1cf79abc9e3b39803f2f6af40f343267298b62d8a0d175b8baafa2be7b876206debac98

/-- 2 / √π. -/
def fxErf : Nat := 0x120dd750429b6d11ae3a914fed7fd8688281341d7587cea2e7342b06199cc416180eb39f0b24e1e22

/-- Integer square root, bit by bit. -/
def isqrtFrom (n : Nat) : Nat → Nat → Nat
  | 0, r => r
  | b + 1, r => if (r + 2 ^ b) * (r + 2 ^ b) ≤ n then isqrtFrom n b (r + 2 ^ b) else isqrtFrom n b r

def isqrt (n : Nat) : Nat := isqrtFrom n (Nat.log2 n / 2 + 1) 0

/-- Σ x^k / k! from term k on. -/
def expTerms (x : Nat) : Nat → Nat → Nat → Nat
  | 0, _, _ => 0
  | left + 1, k, term => term + expTerms x left (k + 1) (fxMul term x / (k + 1))

/-- e^x, 0 ≤ x < 1. -/
def fxExp (x : Nat) : Nat := expTerms x 90 0 fxOne

/-- Σ z^(2k+1) / (2k + 1) from term k on. -/
def atanhTerms (zz : Nat) : Nat → Nat → Nat → Nat
  | 0, _, _ => 0
  | left + 1, k, term => term / (2 * k + 1) + atanhTerms zz left (k + 1) (fxMul term zz)

/-- ln of m / 2^L, for 1 ≤ m / 2^L < 2. -/
def fxLn (m L : Nat) : Nat :=
  let z := (m - 2 ^ L) * fxOne / (m + 2 ^ L)
  2 * atanhTerms (fxMul z z) 110 0 z

/-- e^−y as a number of [1/2, 1] and the power of two that divides it. -/
def fxDecay (y : Nat) : Nat × Nat :=
  let n := y / fxLn2
  (fxOne * fxOne / fxExp (y - n * fxLn2), n)

/-- Σ of 2^k x^(2k+1) / (2k + 1)!! from term k on. -/
def erfTerms (xx : Nat) : Nat → Nat → Nat → Nat
  | 0, _, _ => 0
  | left + 1, k, term => term + erfTerms xx left (k + 1) (2 * fxMul term xx / (2 * k + 3))

/-- m · 2^e in fixed point, cut below. -/
def fxOf (m : Nat) (e : Int) : Nat :=
  if 0 ≤ e + fxBits then m * 2 ^ (e + fxBits).toNat else m / 2 ^ (-(e + fxBits)).toNat

/-! ### Enclosures -/

/-- The exact value lies between lo · 2^e and hi · 2^e, with the sign given; lo = hi: it is exact. -/
structure Enclosure where
  neg : Bool
  lo : Nat
  hi : Nat
  e : Int
  deriving DecidableEq, Repr

/-- A fixed-point result whose error is below 2^40 of its last place; `top`: what it cannot pass. -/
def Enclosure.near (neg : Bool) (v : Nat) (e : Int) (top : Nat) : Enclosure :=
  ⟨neg, v - 2 ^ 40, min (v + 2 ^ 40) top, e - fxBits⟩

def Enclosure.exactly (neg : Bool) (m : Nat) (e : Int) : Enclosure := ⟨neg, m, m, e⟩

/-- 2^x: integers are exact; past the range of every format the exponent is cut. -/
def exp2Enclosure (neg : Bool) (m : Nat) (e : Int) : Enclosure :=
  if 13 < floorLog2 m e then .exactly false 1 (if neg then -8192 else 8192)
  else if 0 ≤ e then .exactly false 1 (if neg then -((m * 2 ^ e.toNat : Nat) : Int) else (m * 2 ^ e.toNat : Nat))
  else
    let k := (-e).toNat
    let n : Int := if neg then -((m / 2 ^ k : Nat) : Int) - 1 else (m / 2 ^ k : Nat)
    let f := if neg then 2 ^ k - m % 2 ^ k else m % 2 ^ k
    if m % 2 ^ k = 0 then .exactly false 1 (if neg then -((m / 2 ^ k : Nat) : Int) else (m / 2 ^ k : Nat))
    else .near false (fxExp (fxMul (fxOf f e) fxLn2)) n (2 * fxOne)

/-- log2 of m · 2^e; exact for a power of two. -/
def log2Enclosure (m : Nat) (e : Int) : Enclosure :=
  let l := Nat.log2 m
  let n := floorLog2 m e
  if m = 2 ^ l then .exactly (decide (n < 0)) n.natAbs 0
  else
    let v : Int := n * fxOne + (fxLn m l * fxOne / fxLn2 : Nat)
    .near (decide (v < 0)) v.natAbs 0 (2 ^ 400)

/-- 1 / √(m · 2^e). -/
def rsqrtEnclosure (m : Nat) (e : Int) : Enclosure :=
  let odd := decide (e % 2 = 1)
  let m1 := if odd then 2 * m else m
  let e1 := (if odd then e - 1 else e) / 2
  let p := fxBits + Nat.log2 m1
  let v := isqrt (2 ^ (2 * p) / m1)
  if v * v * m1 = 2 ^ (2 * p) then .exactly false v (-e1 - p) else ⟨false, v, v + 1, -e1 - p⟩

/-- c · (x − x³/3) to c · x for a small x = m · 2^e; c lies between c0 and c1 in fixed point. -/
def cubicEnclosure (neg : Bool) (m : Nat) (e : Int) (c0 c1 : Nat) : Enclosure :=
  let x := 3 * m * 2 ^ (-2 * e).toNat
  ⟨neg, (x - m * m * m) * c0, x * c1, 3 * e - fxBits⟩

/-- The enclosure over three: both ends divided, rounded outward. -/
def Enclosure.third (x : Enclosure) : Enclosure := { x with lo := x.lo / 3, hi := x.hi / 3 + 1 }

def tanhEnclosure (neg : Bool) (m : Nat) (e : Int) : Enclosure :=
  let lg := floorLog2 m e
  if lg < -64 then (cubicEnclosure neg m e fxOne fxOne).third
  else if 8 ≤ lg then .near neg fxOne 0 fxOne
  else
    let d := fxDecay (2 * fxOf m e)
    let u := d.1 / 2 ^ d.2
    .near neg ((fxOne - u) * fxOne / (fxOne + u)) 0 fxOne

def erfEnclosure (neg : Bool) (m : Nat) (e : Int) : Enclosure :=
  let lg := floorLog2 m e
  if lg < -64 then (cubicEnclosure neg m e fxErf (fxErf + 1)).third
  else if 4 ≤ lg then .near neg fxOne 0 fxOne
  else
    let x := fxOf m e
    let xx := fxMul x x
    let d := fxDecay xx
    .near neg (fxMul (fxMul fxErf (erfTerms xx 1000 0 x)) d.1 / 2 ^ d.2) 0 fxOne

/-- 1 / (1 + e^−x): below zero the power of two stays outside. -/
def sigmoidEnclosure (neg : Bool) (m : Nat) (e : Int) : Enclosure :=
  let y := if 12 < floorLog2 m e then 8192 * fxOne else fxOf m e
  let d := fxDecay y
  let u := d.1 / 2 ^ d.2
  if neg then .near false (d.1 * fxOne / (fxOne + u)) (-(d.2 : Int)) fxOne
  else .near false (fxOne * fxOne / (fxOne + u)) 0 fxOne

/-! ### A result within the error (R204) -/

/-- Distance of n · 2^q from both ends of the enclosure is at most b units of 2^q. -/
def Enclosure.within (x : Enclosure) (n : Nat) (q : Int) (b : Nat) : Bool :=
  let z := min q x.e
  let at_ := fun (v : Nat) (g : Int) => v * 2 ^ (g - z).toNat
  decide (at_ n q ≤ at_ x.lo x.e + at_ b q ∧ at_ x.hi x.e ≤ at_ n q + at_ b q)

/-- The working-format number nearest to the function, or one the constant fnStep points to beside it, where that still lies within
`b` units in the last place; flags NX and UF where it is inexact, OF where it overflows (R42). -/
def Enclosure.result (x : Enclosure) (wide : Bool) (step : Int) (b : Nat) : FVal × BitVec 6 :=
  let f := workFmt wide
  let exact := decide (x.lo = x.hi)
  if x.hi = 0 then (.zero x.neg, 0)
  else
    let mid : FVal := if exact then .num x.neg x.lo x.e else .num x.neg (2 * (x.lo + x.hi) + 1) (x.e - 2)
    let r := roundWork wide mid
    let q := max (floorLog2 (x.lo + x.hi) (x.e - 1)) (1 - (f.bias : Int)) - f.fbits
    let n0 := (roundMag x.neg (x.lo + x.hi) (x.e - 1) q .rne 0).1
    let n := ((n0 : Int) + step).toNat
    if r.1.isInf ∨ step = 0 ∨ (n0 : Int) + step < 1 ∨ x.within n q b = false then r
    else
      let y := roundWork wide (.num x.neg n q)
      (y.1, r.2 ||| y.2 ||| fNX)

/-- Units in the last place that a function's result may be off. -/
def fnError (fc : BitVec 3) : Nat := if 5 ≤ fc.toNat then 2 else 1

/-- The function's enclosure at a finite value; code 3 is computed exactly elsewhere. -/
def fnEnclosure (fc : BitVec 3) (v : FVal) : Enclosure :=
  match v with
  | .num neg m e =>
    match fc.toNat with
    | 1 => exp2Enclosure neg m e
    | 2 => log2Enclosure m e
    | 4 => rsqrtEnclosure m e
    | 5 => tanhEnclosure neg m e
    | 6 => erfEnclosure neg m e
    | _ => sigmoidEnclosure neg m e
  | _ => if fc = 1 then .exactly false 1 0 else .exactly false 1 (-1)

end Sys2Proof.Machine
end

