-- ==== Sys2Proof/Machine/Float.lean ====
section
/-!
DEFINITION. Exact arithmetic on values with one rounding (R195, R199), division and square root (R227),
the function stage (R204), comparison and ordering (R200, R203).
-/
namespace Sys2Proof.Machine

/-- Invalid operation, or a signalling NaN among the operands (R51). -/
def nanFlags (vs : List FVal) : BitVec 6 := flagIf (vs.any FVal.isSnan) fNV

/-- The first NaN operand, quiet (R33). -/
def firstNan : List FVal → Option FVal
  | [] => none
  | .nan n p w _ :: _ => some (.nan n (Nat.lor p (2 ^ (w - 1))) w true)
  | _ :: vs => firstNan vs

/-- A signed integer times 2^e; an exact zero that is no operand's is +0 (nearest even). -/
def FVal.ofScaled (i : Int) (e : Int) : FVal :=
  if i = 0 then .zero false else .num (decide (i < 0)) i.natAbs e

/-- Signed significand of a finite value at exponent e0 or below its own. -/
def FVal.intAt (v : FVal) (e0 : Int) : Int :=
  match v with
  | .num neg m e => (if neg then -1 else 1) * (m : Int) * 2 ^ (e - e0).toNat
  | _ => 0

/-- Exponent of a value's last place; 0 where it has none. -/
def FVal.place : FVal → Int
  | .num _ _ e => e
  | _ => 0

/-- Lower of the exponents of two values, those without one left out. -/
def commonPlace (a b : FVal) : Int :=
  match a, b with
  | .num _ _ e, .num _ _ g => min e g
  | .num _ _ e, _ => e
  | _, w => w.place

/-- Exact sum of two values that are no NaN. -/
def addExact (a b : FVal) : FVal × BitVec 6 :=
  match a, b with
  | .inf x, .inf y => if x = y then (.inf x, 0) else (FVal.default, fNV)
  | .inf x, _ => (.inf x, 0)
  | _, .inf y => (.inf y, 0)
  | .zero x, .zero y => (.zero (x && y), 0)
  | _, _ =>
    let e := commonPlace a b
    (.ofScaled (a.intAt e + b.intAt e) e, 0)

/-- Exact product of two values that are no NaN. -/
def mulExact (a b : FVal) : FVal × BitVec 6 :=
  let neg := a.sign != b.sign
  if (a.isInf && b.isZero) || (a.isZero && b.isInf) then (FVal.default, fNV)
  else if a.isInf || b.isInf then (.inf neg, 0)
  else
    match a, b with
    | .num _ m e, .num _ n g => (.num neg (m * n) (e + g), 0)
    | _, _ => (.zero neg, 0)

/-- A sign turned; a NaN keeps its own. -/
def FVal.negated (v : FVal) : FVal := if v.isNan then v else v.withSign (!v.sign)

/-- Sum, NaNs first (R33, R199). -/
def fAdd (a b : FVal) : FVal × BitVec 6 :=
  match firstNan [a, b] with
  | some n => (n, nanFlags [a, b])
  | none => addExact a b

/-- Difference. -/
def fSub (a b : FVal) : FVal × BitVec 6 :=
  match firstNan [a, b] with
  | some n => (n, nanFlags [a, b])
  | none => addExact a b.negated

/-- Product. -/
def fMul (a b : FVal) : FVal × BitVec 6 :=
  match firstNan [a, b] with
  | some n => (n, nanFlags [a, b])
  | none => mulExact a b

/-- a × b + c before its one rounding; zero times infinity is invalid whatever the addend (R199). -/
def fFma (a b c : FVal) : FVal × BitVec 6 :=
  let bad := flagIf ((a.isZero && b.isInf) || (a.isInf && b.isZero)) fNV
  match firstNan [a, b, c] with
  | some n => (n, bad ||| nanFlags [a, b, c])
  | none =>
    match mulExact a b with
    | (p, f) => if p.isNan then (p, f) else addExact p c

/-- Strict order of values that are no NaN; the zeros are equal. -/
def FVal.lt (a b : FVal) : Bool :=
  match a, b with
  | .inf x, .inf y => x && !y
  | .inf x, _ => x
  | _, .inf y => !y
  | _, _ =>
    let e := commonPlace a b
    decide (a.intAt e < b.intAt e)

/-- Strict order with −0 below +0 (R203). -/
def FVal.ltZ (a b : FVal) : Bool :=
  match a, b with
  | .zero x, .zero y => x && !y
  | _, _ => a.lt b

/-- IEEE 754-2019 minimum and maximum (R199). -/
def fMin (a b : FVal) : FVal × BitVec 6 :=
  match firstNan [a, b] with
  | some n => (n, nanFlags [a, b])
  | none => (if b.ltZ a then b else a, 0)

def fMax (a b : FVal) : FVal × BitVec 6 :=
  match firstNan [a, b] with
  | some n => (n, nanFlags [a, b])
  | none => (if a.ltZ b then b else a, 0)

/-- Quotient with a last bit that tells whether the true one lies above, so that one rounding of it is
right in every format. -/
def divExact (neg : Bool) (m : Nat) (e : Int) (n : Nat) (g : Int) : FVal :=
  let k := 130 + Nat.log2 n
  let q := m * 2 ^ k / n
  .num neg (2 * q + (if m * 2 ^ k % n = 0 then 0 else 1)) (e - g - k - 1)

/-- a ÷ b before its one rounding. -/
def fDiv (a b : FVal) : FVal × BitVec 6 :=
  let neg := a.sign != b.sign
  match firstNan [a, b] with
  | some n => (n, nanFlags [a, b])
  | none =>
    match a, b with
    | .inf _, .inf _ => (FVal.default, fNV)
    | .zero _, .zero _ => (FVal.default, fNV)
    | .inf _, _ => (.inf neg, 0)
    | _, .inf _ => (.zero neg, 0)
    | .zero _, _ => (.zero neg, 0)
    | _, .zero _ => (.inf neg, fDZ)
    | .num _ m e, .num _ n g => (divExact neg m e n g, 0)
    | _, _ => (FVal.default, 0)

/-- Square root before its one rounding. -/
def fSqrt (a : FVal) : FVal × BitVec 6 :=
  match firstNan [a] with
  | some n => (n, nanFlags [a])
  | none =>
    match a with
    | .zero x => (.zero x, 0)
    | .inf false => (.inf false, 0)
    | .num false m e =>
      let odd := decide (e % 2 = 1)
      let m1 := (if odd then 2 * m else m) * 2 ^ 260
      let e1 := (if odd then e - 1 else e) / 2 - 130
      let r := isqrt m1
      (.num false (2 * r + (if r * r = m1 then 0 else 1)) (e1 - 1), 0)
    | _ => (FVal.default, fNV)

/-- One operation rounded to the working format: the flags of both join. -/
def rounded (wide : Bool) (x : FVal × BitVec 6) : FVal × BitVec 6 :=
  let y := roundWork wide x.1
  (y.1, x.2 ||| y.2)

/-! ### Function stage (R204) -/

/-- Raw working-format bits of a value that the format holds. -/
def workRaw (wide : Bool) (v : FVal) : Nat :=
  (encodeFloat (workFmt wide) v .rne ⟨false, false⟩ 0).1

/-- A value the table of R204 leaves to the polynomial. -/
def openFunction (wide : Bool) (fc : BitVec 3) (v : FVal) : FVal × BitVec 6 :=
  (fnEnclosure fc v).result wide ((Config.fnStep wide fc (w64 (workRaw wide v))).val - 2) (fnError fc)

/-- +1 or −1. -/
def fOne (neg : Bool) : FVal := .num neg 1 0

/-- The function stage; code 0 bypasses it (R194, R198, R204). -/
def functionStage (wide : Bool) (fc : BitVec 3) (v : FVal) : FVal × BitVec 6 :=
  if fc = 0 then (v, 0)
  else
    match firstNan [v] with
    | some n => (n, nanFlags [v])
    | none =>
      match fc.toNat, v with
      | 1, .inf neg => (if neg then .zero false else .inf false, 0)
      | 2, .zero _ => (.inf true, fDZ)
      | 2, .inf false => (.inf false, 0)
      | 2, .inf true => (FVal.default, fNV)
      | 2, .num true _ _ => (FVal.default, fNV)
      | 2, .num false m e =>
        if roundWork wide (.num false m e) = roundWork wide (fOne false) then (.zero false, 0)
        else openFunction wide fc v
      | 3, _ => rounded wide (fDiv (fOne false) v)
      | 4, .zero neg => (.inf neg, fDZ)
      | 4, .inf false => (.zero false, 0)
      | 4, .inf true => (FVal.default, fNV)
      | 4, .num true _ _ => (FVal.default, fNV)
      | 5, .inf neg => (fOne neg, 0)
      | 5, .zero neg => (.zero neg, 0)
      | 6, .inf neg => (fOne neg, 0)
      | 6, .zero neg => (.zero neg, 0)
      | 7, .inf neg => (if neg then .zero false else fOne false, 0)
      | _, _ => openFunction wide fc v

/-! ### Comparison (R200) -/

/-- Result and flags of a float comparison; `cond`: 0 equal, 1 less, 2 less or equal, 3 not equal. -/
def fCompare (cond : BitVec 2) (a b : FVal) : Bool × BitVec 6 :=
  if a.isNan || b.isNan then (decide (cond = 3), nanFlags [a, b])
  else
    let lt := a.lt b
    let gt := b.lt a
    (match cond.toNat with
     | 0 => !lt && !gt
     | 1 => lt
     | 2 => !gt
     | _ => lt || gt, 0)

def iCompare (cond : BitVec 2) (a b : Int) : Bool :=
  match cond.toNat with
  | 0 => decide (a = b)
  | 1 => decide (a < b)
  | 2 => decide (a ≤ b)
  | _ => decide (a ≠ b)

end Sys2Proof.Machine
end

