-- ==== Sys2Proof/Machine/Stacks.lean ====
section
/-!
DEFINITION. Events of the memory stacks: scrub, sparing, refresh, training and initialisation, the
scatter-add and gather engines, slow stacks (chapter 10).
-/
namespace Sys2Proof.Machine

/-- A stack in use that serves accesses. -/
def State.stackServes (s : State) (st : StackId) : Bool :=
  decide ((s.stack st).st = .ready ∧ s.rst.phase = .ready)

def State.mapStack (s : State) (st : StackId) (f : Stack → Stack) : State := s.setStack st (f (s.stack st))

/-! ### Scrub (R263) and sparing (R265) -/

/-- Data- or instruction-space address of stack-local address l: the maps of R256 backwards. -/
def unplace (ilv : BitVec 8) (st : StackId) (l : Nat) : Nat :=
  let b := l / 4096
  match excludedBy ilv with
  | none =>
    let low := (BitVec.ofNat 4 st.val) ^^^ (BitVec.ofNat 4 b) ^^^ (BitVec.ofNat 4 (b / 16)) ^^^ (BitVec.ofNat 4 (b / 256))
    (b * 16 + low.toNat) * 4096 + l % 4096
  | some x =>
    let p := if st.val < x then st.val else st.val - 1
    (b * 15 + (p + 15 - b % 15) % 15) * 4096 + l % 4096

/-- Key of an ECC word of one of a stack's memories: data-space or instruction-space address divided by 32. -/
def State.wordKey (s : State) (st : StackId) (space : StackSpace) (word : Nat) : Nat :=
  match space with
  | .sram => (0x010000000000 + 0x10000000 * st.val) / 32 + word
  | _ => unplace s.scfg.ilvActive st (32 * word) / 32

/-- The word holds an error that no read has reached yet. Copies of a mark that differ in a stack's word do not touch the copy in
L2: there they are an error like any that is corrected. -/
def State.plantError (s : State) (inst : Bool) (n : Nat) (err : Option WordError) : State :=
  let latent := fun l : Latent =>
    if inst then s.setMem { s.mem with ilatent := sparseSet (fun _ => .none) s.mem.ilatent n l }
    else s.setMem { s.mem with latent := sparseSet (fun _ => .none) s.mem.latent n l }
  match err with
  | none => s
  | some .correctable => latent .correctable
  | some .uncorrectable => latent .uncorrectable
  | some (.poisonCopies p) =>
    if s.l2Has inst (n / 4) then latent .correctable
    else if inst then s.setMem { s.mem with ipoison := sparseSet (fun _ => 0) s.mem.ipoison n p }
    else s.setMem { s.mem with poison := sparseSet (fun _ => 0) s.mem.poison n p }

/-- ECC words of one of a stack's memories (R255, R268). -/
def spaceWords (space : StackSpace) : Nat :=
  match space with
  | .dram => 48 * 2 ^ 30 / 32
  | .istore => 64 * 2 ^ 20 / 32
  | .sram => 256 * 2 ^ 20 / 32

/-- ECC words of a stack that one scrub period reads (R255, R263, R268). -/
def scrubTotal : Nat := spaceWords .dram + spaceWords .istore + spaceWords .sram

/-- A word's number among those a period reads: data rows, instruction rows, staging SRAM in turn. -/
def scrubKey (space : StackSpace) (word : Nat) : Nat :=
  match space with
  | .dram => word
  | .istore => spaceWords .dram + word
  | .sram => spaceWords .dram + spaceWords .istore + word

/-- A word of row 0 of a bank of data DRAM. -/
def inRowZero (space : StackSpace) (word : Nat) : Bool := decide (space = .dram ∧ (bankRow (32 * word)).2 = 0)

/-- The word is one the period has still to read: every word is read once in each period, row 0 first (R263, R269). -/
def Stack.scrubDue (k : Stack) (space : StackSpace) (word : Nat) : Bool :=
  decide (word < spaceWords space) && !flagGet k.scrubSeen (scrubKey space word) &&
    (decide (k.scrubWords ≠ 0) || inRowZero space word)

/-- Place of a word of one of a stack's memories. -/
def scrubPlace (st : StackId) (space : StackSpace) (word : Nat) : WordPlace :=
  match space with
  | .dram => ⟨st, 32 * word, 0⟩
  | .istore => ⟨st, 32 * word, 1⟩
  | .sram => ⟨st, 32 * word, 2⟩

/-- One word read; the last of the period ends the pass and the rows' counts. -/
def Stack.scrubbed (k : Stack) (key : Nat) : Stack :=
  if k.scrubWords + 1 < scrubTotal then
    { k with scrubWords := k.scrubWords + 1, scrubSeen := flagSet k.scrubSeen key true }
  else { k with scrubWords := 0, scrubSeen := [], scrubPass := k.scrubPass + 1, rowErrors := [] }

/-- R263: the patrol reads a word that this period has not read yet, which activates its row (R267); past the first word of
row 0 the order is open (log entry 118). -/
def execPatrolScrubRead (st : StackId) (space : StackSpace) (word : Nat) (err : Option WordError) (s : State) :
    Host.Outcome State Fault Refusal :=
  if s.stackServes st && (s.stack st).scrubDue space word then
    let n := s.wordKey st space word
    let inst := decide (space = .istore)
    let s1 := (s.plantError inst n err).activateAt (scrubPlace st space word)
    let s2 := if inst then s1.findErrorInst n 1 else s1.findError n 1
    .next (s2.mapStack st fun k => k.scrubbed (scrubKey space word))
  else .next s

/-- The word at a place lies in the row that is copied. -/
def RowCopy.covers (j : RowCopy) (st : StackId) (p : WordPlace) : Bool :=
  p.st == st && p.row == some (j.bank.val, j.row)

/-- Words that hold an error, wherever they lie. -/
def errorWords (latent : Sparse Latent) (poison : Sparse (BitVec 3)) : List Nat :=
  (latent.map fun e => e.1) ++ ((poison.filter fun e => decide (e.2 ≠ 7)).map fun e => e.1)

/-- Errors of the row that the copy reads (R265 step 1). -/
def State.copyReads (s : State) (st : StackId) (j : RowCopy) : State :=
  let ds := (errorWords s.mem.latent s.mem.poison).filter fun n =>
    match s.placeOf (32 * n) with
    | none => false
    | some p => j.covers st p
  let is := (errorWords s.mem.ilatent s.mem.ipoison).filter fun n => j.covers st (s.placeOfInst (32 * n))
  is.foldl (fun t n => t.findErrorInst n 0) (ds.foldl (fun t n => t.findError n 0) s)

/-- R265: the oldest copy ends: the row is redirected, and the corrected words of the spare count from zero. -/
def execRowSpareDone (st : StackId) (s : State) : Host.Outcome State Fault Refusal :=
  match (s.stack st).copies with
  | [] => .next s
  | j :: _ =>
    if s.stackServes st then
      let s1 := ((s.copyReads st j).mapStack st fun k => k.activate s.scfg.actThr.toNat j.bank.val j.row).mapStack st fun k =>
        { k with copies := k.copies.drop 1, spared := k.spared + 1,
                 rowErrors := countSet k.rowErrors (rowKey j.bank.val j.row) 0,
                 spareMap := sparseSet (fun _ => 0) k.spareMap (rowKey j.bank.val j.row) (j.spare + 1) }
      .next (s1.log 2 0x0501 (w32 st.val) (w32 j.bank.val) (w32 j.row) (w32 j.spare))
    else .next s

/-! ### Refresh (R266, R267, R270) -/

/-- The worse of two eyes, where one may not have been measured. -/
def worseEye (old new : Nat) : Nat := if old = 0 then new else min old new

/-- margin after a recentring (R280). -/
def recentred (m : BitVec 32) (read : Bool) (eye : Nat) : BitVec 32 :=
  let r := (m.extractLsb' 0 8).toNat
  let w := (m.extractLsb' 8 8).toNat
  let n := (m.extractLsb' 16 16).toNat
  w32 ((n + 1) % 65536 * 65536 + 256 * (if read then w else worseEye w eye) + (if read then worseEye r eye else r))

/-- R266, R267, R270: the bank's activation counters start a new window; an interface may recentre. -/
def execRefresh (st : StackId) (bank : Fin 1024) (eye : Option (Fin 32 × Bool × BitVec 8)) (s : State) :
    Host.Outcome State Fault Refusal :=
  if s.stackServes st then
    let s1 := s.mapStack st fun k => { k with act := sparseErase k.act bank.val }
    match eye with
    | none => .next s1
    | some (ch, read, m) =>
      let s2 := s1.mapStack st fun k => { k with margin := recentred k.margin read m.toNat }
      if m.toNat < Config.eyeLimit then
        .next (s2.errorNotice.log 3 0x0503 (w32 st.val) (w32 ch.val) (w32 m.toNat) (w32 (bit (!read))))
      else .next s2
  else .next s

/-- R267: the neighbours of a row that has reached act_thr are refreshed; its counter starts again. -/
def execTargetedRefresh (st : StackId) (bank : Fin 1024) (row : Nat) (s : State) : Host.Outcome State Fault Refusal :=
  if s.stackServes st && decide (s.scfg.actThr.toNat ≤ ((s.stack st).track bank.val).count row) then
    .next (s.mapStack st fun k => k.targetedRefresh bank.val row)
  else .next s

/-- R278. -/
def execPoisonStormFence (st : StackId) (s : State) : Host.Outcome State Fault Refusal :=
  if s.stackServes st && decide (256 < (s.stack st).poisonRate s.time) then .next (s.fenceStack st 1) else .next s

/-! ### Training and initialisation (R258, R269) -/

/-- Stacks that cannot be used: those that failed and the one ilv_next named when it was taken (R258). -/
def lostMask (failed : BitVec 16) (ilvNext : BitVec 8) : BitVec 16 :=
  if ilvNext.toNat < 16 then failed ||| (1 <<< ilvNext.toNat) else failed

def maskList (m : BitVec 16) : List Nat := (List.range 16).filter fun i => m.getLsbD i

/-- stk_state after training. -/
def trainState (failed : BitVec 16) (excluded : Option Nat) (i : Nat) : StkState :=
  if excluded = some i then .excluded else if failed.getLsbD i then .failed else .trained

/-- The power domain of an excluded stack is LOCKED_OFF (R258, R433). -/
def Power.stackOff (p : Power) (i : Nat) : Power :=
  { p with domains := vset p.domains (68 + i) ⟨.off, false, true, 0, 0⟩ }

/-- R258: training ends and the map is chosen, or the device does not leave reset. -/
def execStackTrainingDone (failed : BitVec 16) (s : State) : Host.Outcome State Fault Refusal :=
  if s.rst.phase ≠ .training then .next s
  else
    let lost := maskList (lostMask failed s.rst.ilvTaken)
    let setAll := fun (t : State) (x : Option Nat) =>
      { t with stks := Vector.ofFn fun i : Fin 16 => { t.stack i with st := trainState failed x i.val } }
    match lost with
    | [] =>
      let s1 := setAll s none
      .next { s1 with scfg := { s1.scfg with ilvActive := 0xFF }, rst := { s1.rst with phase := .initialising } }
    | [x] =>
      let s1 := setAll s (some x)
      let cause := bit (decide (s.rst.ilvTaken.toNat = x))
      .next (({ s1 with scfg := { s1.scfg with ilvActive := BitVec.ofNat 8 x }
                        rst := { s1.rst with phase := .initialising }
                        pow := s1.pow.stackOff x }).log 4 0x0505 (w32 x) (w32 x) (w32 cause) 0)
    | x :: _ =>
      let s1 := { s with stks := Vector.ofFn fun i : Fin 16 =>
        { s.stack i with st := if lost.contains i.val then .failed else .trained } }
      .next (({ s1 with rst := { s1.rst with phase := .noLeave } }).log 7 0x0507 (w32 x)
        (w32 (lostMask failed s.rst.ilvTaken).toNat) 0 0)

/-- The hub buffers, a body that the boot placed there past 640 KiB among them, which stack initialisation leaves alone. -/
def Mem.hubOnly (m : Mem) : Mem :=
  { Mem.reset with data := m.data.filter fun e => decide (0x018000000000 ≤ e.1 ∧ e.1 < 0x018004100000) }

/-- R269: every word of the stacks is zero, untagged and clean; requests are served. -/
def execStackInitDone (s : State) : Host.Outcome State Fault Refusal :=
  if s.rst.phase ≠ .initialising then .next s
  else
    .next { s with
      mem := s.mem.hubOnly
      stks := vmap s.stks fun k => if k.st = .trained then { k with st := .ready, scrubWords := 0, scrubSeen := [] } else k
      rst := { s.rst with phase := .ready } }

/-! ### Scatter-add (R271 to R273) -/

/-- A source element: FP32 value, conversion flags, and whether a poisoned word holds part of it. -/
structure SaElem where
  v : FVal
  flags : BitVec 6
  bad : Bool
  deriving DecidableEq, Repr

/-- Bytes of a packed G16 segment (R39). -/
def segmentBytes : Nat := 2064

/-- Element i of a segment that lies at byte o of the source. -/
def g16Elem (bs : List Byte) (poisoned : Nat → Bool) (o i : Nat) : SaElem :=
  let e := fieldNat bs (o + i / 128) 1
  let p := o + 16 + 2 * i
  let bad := poisoned (o + i / 128) || poisoned p || poisoned (p + 1)
  if e = 255 then ⟨FVal.default, fNV, bad⟩
  else
    let r := roundWork false ((decodeFloat .fp16 (fieldNat bs p 2)).scaled ((e : Int) - 127))
    ⟨r.1, r.2, bad⟩

/-- Source elements in order; `poisoned` tells of each source byte. -/
def saElems (f : SaFmt) (bs : List Byte) (poisoned : Nat → Bool) : List SaElem :=
  let plain := fun (t : Fmt) (w : Nat) => (List.range (bs.length / w)).map fun i =>
    (⟨decodeFloat t (fieldNat bs (w * i) w), 0, (List.range w).any fun j => poisoned (w * i + j)⟩ : SaElem)
  match f with
  | .fp32 => plain .fp32 4
  | .fp16 => plain .fp16 2
  | .bf16 => plain .bf16 2
  | .g16 =>
    (List.range ((bs.length + segmentBytes - 1) / segmentBytes)).flatMap fun g =>
      let n := (min segmentBytes (bs.length - segmentBytes * g) - 16) / 256 * 128
      (List.range n).map fun i => g16Elem bs poisoned (segmentBytes * g) i

/-- Flags a scatter-add engine keeps. -/
def saFlagMask : BitVec 6 := fNX ||| fUF ||| fOF ||| fNV

/-- Bytes of a line each of which is the home's or the cached one (R272): a free choice. -/
def State.mixLine (s : State) (n : Nat) (l : Line) : State :=
  let f := fun i : Nat => (Config.freeValue (s.free + i / 64)).getLsbD (i % 64)
  let bs := (List.range 128).map fun i => if f i then vget l.bytes i 0 else cellGet s.mem.data (128 * n + i)
  let bad := (List.range 4).foldl (fun p w => if vget l.poison w false then poisonSet p (4 * n + w) true else p) s.mem.poison
  { s with free := s.free + 2,
           mem := { s.mem with data := cellsSet s.mem.data (128 * n) bs, poison := bad,
                               tags := clearTags s.mem.tags (8 * n) 8 } }

/-- The line leaves L2 and every L1 cache before an addition into it (R272). True: L2 held it dirty, so that the word the stack
holds is open. -/
def State.saClaim (s : State) (n : Nat) : State × Bool :=
  let s1 := s.dropCopies n none
  match s1.mem.l2.find? fun l => l.inst == false && l.addr == n with
  | none => (s1, false)
  | some l => (s1.l2Retire { l with dirty := false }, l.dirty)

/-- One addition into the word at a, its line invalidated in every cache first; a line that was dirty in a cache ends with
each byte the addition's or the cached one's (R272). -/
def State.saAdd (s : State) (st : StackId) (a : Nat) (e : SaElem) : State :=
  let n := a / 128
  let cached := s.cores.toList.findSome? fun x => x.cache.dirtyCopy n
  let inL2 := s.homeLine n
  let (s0, wasDirty) := s.saClaim n
  let s1 := s0.settle (a / 32 * 32) 32 2
  let s2 :=
    if s1.wordPoisoned a then s1.mapStack st fun k => { k with saPoison := k.saPoison + 1 }
    else if e.bad then
      match s1.placeOf (a / 32 * 32) with
      | none => s1
      | some p => (s1.setMem (s1.mem.markPoison (a / 32))).notePoison p 2
    else
      let (old, s1) := if wasDirty then let (f, t) := s1.takeFree; (f.toNat % 2 ^ 32, t) else (leNat (s1.homeBytes a 4), s1)
      let sum := fAdd (decodeFloat .fp32 old) e.v
      let r := encodeFloat .fp32 sum.1 .rne ⟨false, true⟩ 0
      (s1.writeHome a (leBytes 4 r.1)).mapStack st fun k =>
        { k with saElems := k.saElems + 1, saFlags := k.saFlags ||| ((e.flags ||| sum.2 ||| r.2) &&& saFlagMask) }
  match cached with
  | some l => s2.mixLine n l
  | none => if wasDirty then s2.mixLine n inL2 else s2

/-- Elements added from the target base upward. -/
def State.saAddAll (s : State) (st : StackId) (base : Nat) (es : List SaElem) : State :=
  ((List.range es.length).zip es).foldl (fun t p => t.saAdd st (base + 4 * p.1) p.2) s

/-! ### Engine commands (R276, R277) -/

/-- Staging-SRAM window of a stack. -/
def sramBase (st : StackId) : Nat := 0x010000000000 + 0x10000000 * st.val

/-- An engine command. -/
structure EngCmd where
  ka : Cap
  kb : Cap
  op : Nat
  fmt : Nat
  rsv : Nat
  count : Nat
  a0 : Nat
  a1 : Nat
  a2 : Nat
  rlen : Nat
  irq : Nat
  /-- A word of bytes 32 to 63 is poisoned. -/
  bad : Bool
  deriving DecidableEq, Repr

/-- Data-space address of the command at the ring's head. -/
def State.cmdAddr (s : State) (st : StackId) : Nat :=
  sramBase st + (s.stack st).ringBase.toNat + 64 * (s.stack st).ringHead.toNat

def parseCmd (bs : List Byte) (ta tb bad : Bool) : EngCmd :=
  { ka := ⟨BitVec.ofNat 128 (fieldNat bs 0 16), ta⟩, kb := ⟨BitVec.ofNat 128 (fieldNat bs 16 16), tb⟩
    op := fieldNat bs 32 1, fmt := fieldNat bs 33 1, rsv := fieldNat bs 34 2, count := fieldNat bs 36 4
    a0 := fieldNat bs 40 8, a1 := fieldNat bs 48 8, a2 := fieldNat bs 56 4, rlen := fieldNat bs 60 2
    irq := fieldNat bs 62 1, bad := bad }

/-- The engine reads the command at the head. -/
def State.readCmd (s : State) (st : StackId) : State × EngCmd :=
  let a := s.cmdAddr st
  let s1 := s.settle a 64 0
  (s1, parseCmd (s1.homeBytes a 64) (s1.homeTag a) (s1.homeTag (a + 16)) (s1.wordPoisoned (a + 32)))

/-- A command waits and none runs. -/
def State.cmdWaits (s : State) (st : StackId) : Bool :=
  let k := s.stack st
  s.stackServes st && k.ringSize != 0 && k.ringHead != k.ringTail && k.engEnd.isNone

/-- Every byte of [a, a + len) lies in the stack's DRAM blocks or staging SRAM. -/
def State.onStackFrom (s : State) (st : StackId) : Nat → Nat → Nat → Bool
  | 0, _, _ => true
  | fuel + 1, a, stop =>
    if stop ≤ a then true
    else if (s.region a).stack? = some st then s.onStackFrom st fuel (a / 4096 * 4096 + 4096) stop
    else false

def State.onStack (s : State) (st : StackId) (a len : Nat) : Bool := s.onStackFrom st (len / 4096 + 2) a (a + len)

/-- The bytes lie in the stack's staging SRAM. -/
def inSram (st : StackId) (a len : Nat) : Bool :=
  decide (sramBase st ≤ a ∧ a + len ≤ sramBase st + 0x10000000)

/-- R65 steps 1 to 4 hold. -/
def Cap.covers (k : Cap) (perms : List Nat) (a len : Nat) : Bool :=
  k.tag && !k.isSealed && perms.all k.has && (k.firstOutside a len).isNone

/-- A command ends with a status; ENGINE_COMMAND_END writes it. -/
def State.endCmd (s : State) (st : StackId) (status : Byte) (irq : Nat) : State :=
  s.mapStack st fun k => { k with engEnd := some ⟨status, irq % 2 == 1⟩ }

/-- Scatter-add formats of a command. -/
def saFmtOf (f : Nat) : Option SaFmt :=
  match f with
  | 1 => some .fp32
  | 2 => some .fp16
  | 3 => some .bf16
  | 0x10 => some .g16
  | _ => none

/-- Source bytes and targets of a scatter-add command. -/
def saLengths (f : SaFmt) (count : Nat) : Nat × Nat :=
  match f with
  | .fp32 => (4 * count, 4 * count)
  | .g16 => (segmentBytes * count, 4096 * count)
  | _ => (2 * count, 4 * count)

/-- Poisoned source bytes of a range, as the engine reads it. -/
def State.badByte (s : State) (base : Nat) (i : Nat) : Bool := s.wordPoisoned (base + i)

/-- R271, R277: a scatter-add command runs to its status. -/
def State.runScatter (s : State) (st : StackId) (c : EngCmd) : State :=
  match saFmtOf c.fmt with
  | none => s.endCmd st 4 c.irq
  | some f =>
    let (src, dst) := saLengths f c.count
    if c.rsv ≠ 0 ∨ c.a2 ≠ 0 ∨ c.rlen ≠ 0 ∨ 2 ≤ c.irq ∨ c.bad then s.endCmd st 4 c.irq
    else if !(c.ka.covers [permStore] c.a0 dst && c.kb.covers [permLoad] c.a1 src) then s.endCmd st 2 c.irq
    else if !(s.onStack st c.a0 dst && inSram st c.a1 src) then s.endCmd st 3 c.irq
    else
      let s1 := s.settle c.a1 src 2
      let es := saElems f (s1.homeBytes c.a1 src) (s1.badByte c.a1)
      (s1.saAddAll st c.a0 es).endCmd st 1 c.irq

/-- R277. A command whose op is reserved ends BAD_CMD. -/
def execScatterAddCommand (st : StackId) (s : State) : Host.Outcome State Fault Refusal :=
  if s.cmdWaits st then
    match s.readCmd st with
    | (s1, c) =>
      if c.op = 1 then .next (s1.runScatter st c)
      else if c.op = 2 then .next s
      else .next (s1.endCmd st 4 c.irq)
  else .next s

/-- The marks of the destination words that take bytes from poisoned source words. -/
def State.copyMarks (s : State) (src dst len : Nat) (bad : Nat → Bool) : State :=
  (List.range len).foldl (fun t i =>
    if bad (src + i) && !poisonGet t.mem.poison ((dst + i) / 32) then t.setMem (t.mem.markPoison ((dst + i) / 32)) else t) s

/-- One record of a gather (R275). -/
def State.gatherRecord (s : State) (src dst len : Nat) : State :=
  let s1 := s.settle src len 0
  let bs := s1.homeBytes src len
  let bad := fun a : Nat => s1.wordPoisoned a
  (s1.writeHome dst bs).copyMarks src dst len bad

/-- Index j of the list. -/
def State.gatherIndex (s : State) (list j : Nat) : Nat := leNat (s.homeBytes (list + 4 * j) 4)

/-- R275, R277: a gather command runs to its status. -/
def State.runGather (s : State) (st : StackId) (c : EngCmd) : State :=
  let dst := sramBase st + c.a2
  let idx := (List.range c.count).map fun j => c.a0 + s.gatherIndex c.a1 j * c.rlen
  if c.rsv ≠ 0 ∨ c.rlen < 4 ∨ 4096 < c.rlen ∨ 2 ≤ c.irq ∨ c.bad then s.endCmd st 4 c.irq
  else if !(c.kb.covers [permLoad] c.a1 (4 * c.count) && c.kb.covers [permStore] dst (c.count * c.rlen)) then
    s.endCmd st 2 c.irq
  else if !(inSram st c.a1 (4 * c.count) && inSram st dst (c.count * c.rlen)) then s.endCmd st 3 c.irq
  else if !(c.ka.covers [permLoad] c.a0 0 && idx.all fun a => c.ka.covers [permLoad] a c.rlen) then s.endCmd st 2 c.irq
  else if !(idx.all fun a => s.onStack st a c.rlen) then s.endCmd st 3 c.irq
  else
    let s1 := ((List.range c.count).zip idx).foldl (fun t p => t.gatherRecord p.2 (dst + p.1 * c.rlen) c.rlen)
      (s.settle c.a1 (4 * c.count) 0)
    s1.endCmd st 1 c.irq

/-- R275, R277. -/
def execGatherCommand (st : StackId) (s : State) : Host.Outcome State Fault Refusal :=
  if s.cmdWaits st then
    match s.readCmd st with
    | (s1, c) =>
      if c.op = 2 then .next (s1.runGather st c)
      else if c.op = 1 then .next s
      else .next (s1.endCmd st 4 c.irq)
  else .next s

/-- Head of the ring after a command. -/
def Stack.nextHead (k : Stack) : BitVec 16 :=
  if k.ringHead.toNat + 1 < k.ringSize.toNat then k.ringHead + 1 else 0

/-- R276, R277: the status is written last, and the interrupt source raised. -/
def execEngineCommandEnd (st : StackId) (s : State) : Host.Outcome State Fault Refusal :=
  let k := s.stack st
  match k.engEnd with
  | none => .next s
  | some e =>
    if s.stackServes st then
      let s1 := (s.writeHome (s.cmdAddr st + 63) [e.status]).mapStack st fun x =>
        { x with engEnd := none, ringHead := x.nextHead }
      .next (if e.irq then s1.raiseFrom (1 + st.val) k.ringIrq else s1)
    else .next s

/-- R373: a stack whose mean latency (ns, over 1 ms) exceeds twice the mean of the others. -/
def execStackSlowCheck (st : StackId) (mean others : Nat) (s : State) : Host.Outcome State Fault Refusal :=
  if s.stackServes st && decide (2 * others < mean) then
    .next (s.log 4 0x0303 (w32 st.val) (w32 mean) (w32 others) 0)
  else .next s

end Sys2Proof.Machine
end

