-- ==== Sys2Proof/Machine/Random.lean ====
section
/-!
DEFINITION. The counter-based random generator (R46 to R49).
-/
namespace Sys2Proof.Machine

/-- The four words of the permutation. -/
structure Rng where
  x0 : BitVec 32
  x1 : BitVec 32
  x2 : BitVec 32
  x3 : BitVec 32
  deriving DecidableEq, Repr

/-- Word i of the key. -/
def keyWord (k : BitVec 128) (i : Nat) : BitVec 32 := k.extractLsb' (32 * (i % 4)) 32

/-- Round r of the permutation (R46). -/
def rngRound (k : BitVec 128) (r : Nat) (x : Rng) : Rng :=
  let x0 := x.x0 ^^^ keyWord k r
  let x2 := x.x2 ^^^ keyWord k (r + 2) ^^^ w32 r
  let x0 := x0 + x.x1
  let x1 := x.x1.rotateLeft 9 ^^^ x0
  let x2 := x2 + x.x3
  let x3 := x.x3.rotateLeft 13 ^^^ x2
  let x0 := x0 + x3
  let x3 := x3.rotateLeft 7 ^^^ x0
  let x2 := x2 + x1
  let x1 := x1.rotateLeft 11 ^^^ x2
  ⟨x0, x1, x2, x3⟩

/-- D = P_K(C): key, element index, step and tensor id (R46). -/
def drawOf (key : BitVec 128) (idx : Word) (step tid : BitVec 32) : BitVec 128 :=
  let x := (List.range 12).foldl (fun x r => rngRound key r x)
    ⟨idx.extractLsb' 0 32, idx.extractLsb' 32 32, step, tid⟩
  x.x3 ++ x.x2 ++ x.x1 ++ x.x0

/-- Field f of a draw (R47). -/
def drawField (d : BitVec 128) (f : Nat) : Nat := (d.extractLsb' (16 * f) 16).toNat

/-- What an instruction takes at issue for its draws (R49). -/
structure DrawCtx where
  key : BitVec 128
  step : BitVec 32
  tid : BitVec 32
  base : Word
  deriving DecidableEq, Repr

/-- The draw of the element with number i above the base (R48). -/
def DrawCtx.draw (d : DrawCtx) (i : Nat) : BitVec 128 := drawOf d.key (d.base + w64 i) d.step d.tid

/-- The draws of a long-vector register form of core c (R48). -/
def State.vectorDraws (s : State) (c : CoreId) : DrawCtx :=
  let t := (s.core c).ctl
  ⟨s.rngKey, s.train.step.val, t.tid, t.rngctr⟩

end Sys2Proof.Machine
end

