-- ==== Sys2Proof/Machine/Training.lean ====
section
/-!
DEFINITION. Training support: the step and the data position, and extent tables (chapter 11).
-/
namespace Sys2Proof.Machine

/-! ### Step and data position (R50, R296) -/

/-- The pairs step, data_pos and sps are checked as an update of the step reads them (R362). -/
def State.checkStep (s : State) : State := s.checkCritical 2 0x240003 (intact s.train.step)

def State.checkPosition (s : State) : State :=
  (s.checkStep.checkCritical 3 0x240005 (intact s.train.dataPos)).checkCritical 4 0x240006 (intact s.train.sps)

/-- R50: a write of 1 to step_inc; none is RANGE. A damaged step stays as it is (R362, R363). -/
def State.stepInc (s : State) (v : Word) : Option State :=
  if v = 1 then some (s.checkStep.mapTrain fun t => { t with step := pairMap t.step (· + 1) }) else none

/-- R296: a write of 1 to step_adv, step and data_pos in one update. -/
def State.stepAdv (s : State) (v : Word) : Option State :=
  if v = 1 then
    some (s.checkPosition.mapTrain fun t =>
      { t with step := pairMap t.step (· + 1), dataPos := pairMap t.dataPos (· + t.sps.val.setWidth 64) })
  else none

/-- Position steps of R296. -/
def positionSteps (base : BitVec 32) (pos : Word) (sps : BitVec 32) : BitVec 32 :=
  base + w32 (pos.toNat / sps.toNat)

/-! ### Extent tables (R304, R305) -/

def parseExtent (bs : List Byte) : Extent :=
  { src := fieldNat bs 0 8, len := fieldNat bs 8 8, typ := BitVec.ofNat 8 (fieldNat bs 16 1),
    etype := BitVec.ofNat 8 (fieldNat bs 17 1), ev := fieldNat bs 18 1 % 2 == 1 }

/-- A range no command may use: outside the stacks' memory, in the hub firmware window or on a fenced stack. -/
def State.badExtent (s : State) (a len : Nat) : Bool :=
  match s.stacksOf a len with
  | none => true
  | some r => r.any s.stackFenced

/-- An entry's own fields are wrong. -/
def Extent.bad (e : Extent) (bs : List Byte) : Bool :=
  e.src % 4096 != 0 || e.len == 0 || e.len % 4096 != 0 || e.typ == 0 || 8 < e.typ.toNat ||
  1 < fieldNat bs 18 1 || fieldNat bs 19 5 != 0 || fieldNat bs 24 8 != 0

/-- The extent table of a buffer with its checks; none is RANGE. -/
def State.extents (s : State) (b : Fin 2) : State × Option (List Extent) :=
  let a := s.train.extTable[b].toNat
  let n := s.train.extCount[b].toNat
  if n = 0 ∨ a % 32 ≠ 0 ∨ (s.stacksOf a (32 * n)).isNone then (s, none)
  else
    let s1 := s.settle a (32 * n) 0
    if (s1.firstPoison a (32 * n)).isSome then (s1, none)
    else
      let raws := (List.range n).map fun i => s1.homeBytes (a + 32 * i) 32
      let es := raws.map parseExtent
      if (es.zip raws).any fun p => p.1.bad p.2 || s1.badExtent p.1.src p.1.len then (s1, none) else (s1, some es)

end Sys2Proof.Machine
end

