-- ==== Sys2Proof/Machine/Fabric.lean ====
section
/-!
DEFINITION. What the fabric's commands share (chapter 12): sub-ports and spraying, fences of ports, failed
ledgers and their owners (R366), slots and pool units, completion rings, channels and queue pairs.
-/
namespace Sys2Proof.Machine

/-! ### Channels, peers, queue pairs -/

def chanReset : Channel :=
  { peer := 0, credit := 0x40, st := .closed, epoch := 0, ownHalf := 0, peerHalf := none, nextPsn := 0,
    creditLimit := 0, ops := [], sent := [], expect := 0, held := [], atomics := [], refused := [], sinceAck := 0,
    ceSeen := false, failed := none }

def qpReset : QueuePair :=
  { st := .reset, rqpn := 0, spsn := 0, rpsn := 0, cfg := 0, rip := 0, rmac := 0, port := 0, rqBase := 0, rqSize := 0,
    rqIrq := 0xFFF, rqTail := 0, rqHead := 0, rate := 1000, retriesLeft := 0, rnrLeft := 0, rnrWait := false,
    cnpAt := none, rateAt := none, atomics := [], ops := [], una := 0, sentAt := 0, rx := none }

def entryReset : FabricEntry := ⟨pairOf 0, pairOf 0, pairOf 0, pairOf 0, pairOf 0, false⟩

def State.chan (s : State) (n : Nat) : Channel := sparseGet (fun _ => chanReset) s.fab.chans n

def State.setChan (s : State) (n : Nat) (k : Channel) : State :=
  s.mapFab fun f => { f with chans := sparseSet (fun _ => chanReset) f.chans n k }

def State.qp (s : State) (q : Nat) : QueuePair := sparseGet (fun _ => qpReset) s.fab.qps q

def State.setQp (s : State) (q : Nat) (x : QueuePair) : State :=
  s.mapFab fun f => { f with qps := sparseSet (fun _ => qpReset) f.qps q x }

/-- a precedes b (R347). -/
def precedes (a b : BitVec 32) : Bool := decide (2 ^ 31 ≤ (a - b).toNat)

/-- Every channel is CLOSED (R324). -/
def State.allClosed (s : State) : Bool := s.fab.chans.all fun e => decide (e.2.st = .closed)

/-- The hub's fabric engine works (R427 PD92). -/
def State.fabricOn (s : State) : Bool :=
  decide ((vget s.pow.domains 92 ⟨.off, false, false, 0, 0⟩).phase = .on ∧ s.rst.phase = .ready)

/-! ### Sub-ports (R318, R350, R351) -/

/-- Source word of a sub-port's records (R359). -/
def subSource (k : Nat) : BitVec 32 := w32 (0x00020000 + k)

def chanSource (n : Nat) : BitVec 32 := w32 (0x00030000 + n)

def qpSource (q : Nat) : BitVec 32 := w32 (0x00040000 + q)

/-- Sub-ports a mode presents (R318). -/
def modeSubs (mode : BitVec 8) : Nat :=
  match mode.toNat with
  | 0 => 1
  | 1 => 2
  | 2 => 4
  | 3 => 8
  | _ => 0

/-- One unacknowledged REQ is sent again, on another sub-port where one can send (R348, R351). -/
def State.resendOne (s : State) (n : Nat) (psn : BitVec 32) : State :=
  let k := s.chan n
  match k.sent.find? fun e => e.psn == psn with
  | none => s
  | some e =>
    let mark := fun (t : State) (sub : Fin 64) =>
      (t.setChan n { t.chan n with sent := (t.chan n).sent.map fun x =>
        if x.psn = psn then { x with sub := sub, retries := x.retries + 1, sentAt := t.time } else x }).mapFab
        fun f => { f with retx := f.retx + 1 }
    if e.pkt.dst = s.fab.devId.val then mark (s.mapFab fun f => { f with loop := f.loop ++ [e.pkt] }) e.sub
    else
      match s.pickAny fun j => j == e.sub.val with
      | some j => mark (s.xmit j e.pkt) j
      | none => if s.subSends e.sub.val then mark (s.xmit e.sub e.pkt) e.sub else s

/-- Channels and numbers of the REQs last sent on sub-port k and not acknowledged. -/
def State.sentOn (s : State) (k : Nat) : List (Nat × BitVec 32) :=
  s.fab.chans.flatMap fun c =>
    (c.2.sent.filter fun e => decide (e.sub.val = k ∧ c.2.peer ≠ s.fab.devId.val ∧ e.acked = false)).map fun e => (c.1, e.psn)

/-- R351: sub-port k leaves UP for st, with the frames that wait on it; what it carried is sent again elsewhere, and the packets
that were are counted (retx counts them too). -/
def State.leaveUp (s : State) (k : Nat) (st : SubState) : State × Nat :=
  let was := s.subUp k
  let s0 := s.mapSub k fun x => { x with st := st, probesOk := 0, probeOut := false }
  let s1 := (s0.mapFab fun f => { f with waiting := f.waiting.filter fun x => x.sub.val != k }).noteUp
  if was then
    let s2 := (s1.sentOn k).foldl (fun t r => t.resendOne r.1 r.2) s1
    (s2, (s2.fab.retx - s1.fab.retx).toNat)
  else (s1, 0)

/-- One sub-port is fenced (R351). -/
def State.fenceSub (s : State) (k : Nat) (cause : Nat) : State :=
  if (s.sub k).st = .up ∨ (s.sub k).st = .down then
    let r := s.leaveUp k .fenced
    r.1.log 5 0x0C03 (subSource k) (w32 cause) (w32 r.2) 0
  else s

/-- Every sub-port of port p is fenced, and its reserve closes (R361). -/
def State.fencePort (s : State) (p : Nat) (cause : Nat) : State :=
  ((List.range 8).foldl (fun t j => t.fenceSub (8 * p + j) cause) s).closeFence (0x48 + p)

/-- A write to port_fence of port p; none is RANGE. -/
def State.portFenceCmd (s : State) (p : Nat) (v : Word) : Option State :=
  if v = 0xFF then some (s.fencePort p 0)
  else if v.toNat < 8 ∧ (s.sub (8 * p + v.toNat)).st ≠ .absent then
    let s1 := s.fenceSub (8 * p + v.toNat) 0
    if (List.range 8).all fun j => decide ((s1.sub (8 * p + j)).st = .fenced ∨ (s1.sub (8 * p + j)).st = .absent) then
      some (s1.closeFence (0x48 + p))
    else some s1
  else none

/-! ### Failed ledgers (R364, R366) -/

/-- The ledger of a pool fails with a check number: the pool closes and its owner is fenced or lost. -/
def State.failPool (s : State) (id check : Nat) : State :=
  if h : id < 64 then s.failCoreTags ⟨id, h⟩ check
  else if id < 0x48 ∨ (0x50 ≤ id ∧ id < 0x54) then (s.closeFault id check 7).deviceStop
  else if id < 0x50 then (s.closeFault id check 5).fencePort (id - 0x48) 1
  else if 0x60 ≤ id ∧ id < 0x70 then (s.closeFault id check 5).fenceStack (Fin.ofNat 16 (id - 0x60)) 2
  else if 0x78 ≤ id ∧ id < 0x7D then
    let s1 := (s.closeFault id check 5).closeFence id
    s1.setQueue (Fin.ofNat 5 (id - 0x78)) { s1.queue (Fin.ofNat 5 (id - 0x78)) with fenced := true }
  else s.closeFault id check 5

/-- n units of a pool come back. -/
def State.poolGive (s : State) (id n : Nat) : State :=
  match s.poolReturn id n with
  | (s1, none) => s1
  | (s1, some k) => s1.failPool id k

/-! ### Slots and units (R349) -/

/-- Units of the shared part that are held. -/
def State.sharedUsed (s : State) : Nat :=
  (s.ledger 0x41).outstanding.val.toNat -
    ((List.range 8).map fun p => (s.ledger (0x48 + p)).outstanding.val.toNat).sum

/-- Size of the shared part. -/
def sharedUnits : Nat := 14336

/-- One unit charged to port p: of its reserve while that has one, else of the shared part. -/
def State.takeUnit (s : State) (p : Fin 8) : Option (State × PoolUnit) :=
  if (s.ledger 0x41).canTake 1 then
    if (s.ledger (0x48 + p.val)).canTake 1 then some ((s.poolTake 0x41 1).poolTake (0x48 + p.val) 1, (p, true))
    else if s.sharedUsed < sharedUnits then some (s.poolTake 0x41 1, (p, false))
    else none
  else none

/-- A unit comes back. -/
def State.giveUnit (s : State) (u : PoolUnit) : State :=
  let s1 := s.poolGive 0x41 1
  if u.2 then s1.poolGive (0x48 + u.1.val) 1 else s1

/-- What a sent REQ holds comes back. -/
def State.releaseSent (s : State) (e : SentReq) : State :=
  let s1 := s.poolGive 0x40 1
  match e.unit with
  | none => s1
  | some u => s1.giveUnit u

/-! ### Posted operations -/

def opWrite : Byte := 1
def opRead : Byte := 2
def opAdd : Byte := 3
def opMax : Byte := 4
def opCas : Byte := 5
def opWriteAcc : Byte := 6
def opNotify : Byte := 7
def opFence : Byte := 8

def isAtomic (op : Byte) : Bool := op == opAdd || op == opMax || op == opCas

/-- The receiver answers with a RESP (R346, R349). -/
def wantsResp (op : Byte) : Bool := op == opRead || isAtomic op

/-- Bytes of a source element of WRITE_ACC. -/
def SaFmt.size : SaFmt → Nat
  | .fp32 => 4
  | _ => 2

/-- Bytes, or elements of a WRITE_ACC, that one packet of the operation carries (R335, R347); 0: one packet, no data. -/
def PostDesc.perPacket (d : PostDesc) (payload : Nat) : Nat :=
  if d.op = opWrite ∨ d.op = opRead then payload
  else if d.op = opWriteAcc then
    match saFmtOf d.fmt.toNat with
    | some .g16 => 1024
    | some f => payload / f.size
    | none => 0
  else 0

/-- Packets of the operation. -/
def PostDesc.packets (d : PostDesc) (payload : Nat) : Nat :=
  let n := d.perPacket payload
  if n = 0 then 1 else (d.len + n - 1) / n

/-- The packets of op that are numbered. -/
def PostOp.owns (o : PostOp) (psn : BitVec 32) : Bool := decide ((psn - o.base).toNat < o.sent)

/-- Packets that the other end has accepted, in order. -/
def PostOp.accepted (o : PostOp) (k : Channel) : Nat :=
  match o.fail with
  | some (i, _) => i
  | none => k.sent.foldl (fun m e => if o.owns e.psn then min m (e.psn - o.base).toNat else m) o.sent

/-- Result field of a completion (R331, R338). -/
def PostOp.resultWord (o : PostOp) (accepted payload : Nat) : Word :=
  if isAtomic o.desc.op ∨ o.desc.op = 0x13 ∨ o.desc.op = 0x14 then o.result
  else w64 (min o.desc.len (accepted * o.desc.perPacket payload))

/-- Status once every packet is answered. -/
def PostOp.status (o : PostOp) : Byte :=
  match o.fail with
  | some (_, st) => st
  | none => if o.poisoned then 6 else 0

/-! ### Completion rings (R327, R330) -/

/-- Bytes written at a with a payload's poison map: words that take a marked byte are poisoned (R348). -/
def State.writeMarked (s : State) (a : Nat) (bs : List Byte) (pmap : BitVec 128) : State :=
  let s1 := s.writeHome a bs
  (List.range bs.length).foldl (fun t i =>
    if pmap.getLsbD (i / 32) && !poisonGet t.mem.poison ((a + i) / 32) then t.setMem (t.mem.markPoison ((a + i) / 32)) else t) s1

/-- What a READ applied becomes visible at its destination with its completion (R330, R333). -/
def State.deliverRead (s : State) (o : PostOp) (result : Word) : State :=
  (o.got.filter fun g => decide (g.1 < result.toNat)).foldl (fun t g => t.writeMarked (o.desc.laddr.toNat + g.1) g.2.1 g.2.2) s

/-- Core c's completion is written, and its interrupt source raised. -/
def State.writeCompletion (s0 : State) (c : CoreId) (o : PostOp) (status : Byte) (result : Word) : State :=
  let s := s0.deliverRead o result
  let w := (s.core c).win
  let size := max w.pqSize.toNat 1
  let a := 0x018004080000 + 2048 * c.val + 16 * (w.completed % size)
  let phase := (w.completed / size + 1) % 2
  let entry := leBytes 4 o.desc.wrid.toNat ++ [status, o.desc.op, BitVec.ofNat 8 phase, 0] ++ leBytes 8 result.toNat
  let s1 := (s.writeHome a entry).mapCore c fun x =>
    { x with win := { x.win with completed := x.win.completed + 1, cqTail := x.win.cqTail + 1 } }
  if o.desc.irq then s1.raise w.cqIrq else s1

/-- Sections of the record being sent. -/
def DrainJob.sections (j : DrainJob) : List Extent := if j.evalPhase then j.extents.filter fun e => e.ev else j.extents

/-- The job's connection is lost (R303, R317). Which section was being sent is open until DRAIN_SECTIONS_ACKED says that all
were: a free one of them is named (log entry 144). -/
def State.jobLost (s : State) (j : DrainJob) : State :=
  if !j.restore && decide (j.phase = 0) then
    let f := s.takeFree
    f.2.jobFails 8 (w32 (f.1.toNat % max 1 j.sections.length))
  else s.jobFails 8 0xFFFFFFFF

/-- The drain engine's operation ends: a failure is the TRANSPORT failure of R303, an answered READ brings the record (R308,
R357). -/
def State.engineOpEnds (s : State) (o : PostOp) (status : Byte) : State :=
  match s.train.job with
  | none => s
  | some j =>
    if status ≠ 0 then s.jobLost j
    else if j.restore then
      s.mapTrain fun t => { t with job := some { j with record := j.record ++ o.got.flatMap fun g => g.2.1 } }
    else s

/-- An ended operation reaches whoever posted it. -/
def State.opEnds (s : State) (o : PostOp) (status : Byte) (result : Word) : State :=
  match o.owner with
  | some c => s.writeCompletion c o status result
  | none => s.engineOpEnds o status

/-- Operations at the head of a list that have ended are completed in post order. -/
def State.flushList (s : State) : List PostOp → State × List PostOp
  | [] => (s, [])
  | o :: os =>
    match o.ended with
    | none => (s, o :: os)
    | some (st, r) => (s.opEnds o st r).flushList os

def State.flushChan (s : State) (n : Nat) : State :=
  let r := s.flushList (s.chan n).ops
  r.1.setChan n { r.1.chan n with ops := r.2 }

def State.flushQp (s : State) (q : Nat) : State :=
  let r := s.flushList (s.qp q).ops
  r.1.setQp q { r.1.qp q with ops := r.2 }

/-- Operations of a channel that are whole end; those at the head complete (R330, R337). -/
def State.finishOps (s : State) (n : Nat) : State :=
  let k := s.chan n
  let payload := s.fab.payload.toNat
  let ops := k.ops.map fun o =>
    if o.ended.isNone && decide (o.sent = o.desc.packets payload) && !k.sent.any (fun e => o.owns e.psn) then
      { o with ended := some (o.status, o.resultWord (o.accepted k) payload) }
    else o
  (s.setChan n { k with ops := ops }).flushChan n

/-- Every operation of channel n ends with a status, and all the channel holds comes back (R338, R352). -/
def State.endChannel (s : State) (n : Nat) (status : Byte) (st : ChanState) : State × Nat :=
  let k := s.chan n
  let payload := s.fab.payload.toNat
  let ended := k.ops.filter fun o => o.ended.isNone
  let ops := k.ops.map fun o =>
    match o.ended with
    | some _ => o
    | none => { o with ended := some (status, o.resultWord (o.accepted k) payload) }
  let s1 := k.sent.foldl (fun t e => t.releaseSent e) s
  let s2 := k.held.foldl (fun t h => t.giveUnit h.unit) s1
  let s3 := s2.setChan n { k with
    st := st, ops := ops, sent := [], held := [], failed := none, sinceAck := 0, ceSeen := false }
  (s3.flushChan n, ended.length)

/-- R352: the peer has departed; every channel to it that is not CLOSED or GONE ends. -/
def State.depart (s : State) (peer : BitVec 14) : State :=
  let ns := (s.fab.chans.filter fun e =>
    decide (e.2.peer = peer ∧ e.2.st ≠ .closed ∧ e.2.st ≠ .gone)).map fun e => e.1
  match ns with
  | [] => s
  | n :: _ =>
    let r := ns.foldl (fun (t : State × Nat) m =>
      let q := t.1.endChannel m 1 .gone
      (q.1, t.2 + q.2)) (s, 0)
    (r.1.setPeer peer peerReset).log 4 0x0C04 (chanSource n) (w32 peer.toNat) (w32 ns.length) (w32 r.2)

end Sys2Proof.Machine
end

