-- ==== Sys2Proof/Machine/Posting.lean ====
section
/-!
DEFINITION. Posting: the hub accepts the next descriptor of a core's posting queue (R327 to R338, R357), the
counts of the queue (R329, R330), and the RoCEv2 requester's sending.
-/
namespace Sys2Proof.Machine

/-! ### Queue counts -/

/-- First byte of core c's posting queue (R327). -/
def queueBase (c : CoreId) : Nat := 0x018004000000 + 8192 * c.val

/-- A write of pq_tail by which software posts; none is FABRIC_QUEUE (R329). -/
def State.postTail (s : State) (c : CoreId) (v : Word) : Option State :=
  let w := (s.core c).win
  let new := v.setWidth 16
  let used := (w.pqTail - w.cqHead).toNat
  if w.pqSize = 0 ∨ w.pqSize.toNat < (new - w.pqTail).toNat + used then none
  else some (s.mapCore c fun x => { x with win := { x.win with pqTail := new } })

/-- A write of pq_size; none is RANGE. -/
def State.pqSizeCmd (s : State) (c : CoreId) (v : Word) : Option State :=
  let w := (s.core c).win
  if [0, 16, 32, 64, 128].contains v.toNat ∧ w.pqTail = w.cqTail ∧ w.cqTail = w.cqHead then
    some (s.mapCore c fun x => { x with win := { x.win with
      pqSize := v.setWidth 16, pqTail := 0, cqTail := 0, cqHead := 0, accepted := 0, completed := 0 } })
  else none

/-- A write of cq_head; none is RANGE. -/
def State.cqHeadCmd (s : State) (c : CoreId) (v : Word) : Option State :=
  let w := (s.core c).win
  let new := v.setWidth 16
  if (w.cqTail - w.cqHead).toNat < (new - w.cqHead).toNat then none
  else some (s.mapCore c fun x => { x with win := { x.win with cqHead := new } })

/-! ### Descriptors (R331) -/

def parseDesc (bs : List Byte) : PostDesc :=
  let op := BitVec.ofNat 8 (fieldNat bs 0 1)
  let roce := 0x10 ≤ op.toNat
  { op := op, irq := fieldNat bs 1 1 % 2 == 1, chan := BitVec.ofNat 16 (fieldNat bs 2 2), len := fieldNat bs 4 4
    raddr := w64 (fieldNat bs 8 8), laddr := w64 (fieldNat bs 16 8), lidx := BitVec.ofNat 8 (fieldNat bs 24 1)
    fmt := BitVec.ofNat 8 (fieldNat bs 25 1), wrid := w32 (fieldNat bs 28 4), token := BitVec.ofNat 128 (fieldNat bs 32 16)
    opd1 := w64 (fieldNat bs 48 8), opd2 := w64 (fieldNat bs 56 8)
    wellFormed := decide (fieldNat bs 1 1 < 2 ∧ fieldNat bs 26 2 = 0 ∧
      fieldNat bs 2 2 < (if roce then 1024 else 4096)) && (!roce || fieldNat bs 36 12 == 0) }

/-- Descriptor number t of core c. -/
def State.readDesc (s : State) (c : CoreId) : PostDesc :=
  let w := (s.core c).win
  parseDesc (s.homeBytes (queueBase c + 64 * (w.accepted % max w.pqSize.toNat 1)) 64)

/-- The codes that are operations. -/
def knownOp (op : Byte) : Bool := (1 ≤ op.toNat && op.toNat ≤ 8) || (0x10 ≤ op.toNat && op.toNat ≤ 0x14)

def isRoce (op : Byte) : Bool := 0x10 ≤ op.toNat

/-- Device id of a global address; none for an address that is not global (R21). -/
def globalDevice (a : Word) : Option (BitVec 14) :=
  if a.extractLsb' 62 2 = 2 then some (a.extractLsb' 48 14) else none

/-- Length and alignment as the operation tables give them. -/
def PostDesc.shapeOk (d : PostDesc) : Bool :=
  let aligned := fun n : Nat => d.raddr.toNat % n == 0
  match d.op.toNat with
  | 1 | 2 | 0x11 | 0x12 => 1 ≤ d.len && d.len ≤ 2 ^ 30
  | 3 | 4 | 5 | 0x13 | 0x14 => d.len == 0 && aligned 8
  | 6 =>
    1 ≤ d.len && d.len ≤ 2 ^ 28 &&
    (match saFmtOf d.fmt.toNat with
     | none => false
     | some .g16 => d.len % 128 == 0 && aligned 4096
     | some _ => aligned 4)
  | 7 => d.len == 0 && d.raddr.toNat % 4096 != 0xFFF && d.raddr.toNat / 4096 % 128 ≤ 64
  | 8 => d.len == 0
  | 0x10 => 1 ≤ d.len && d.len ≤ 4096
  | _ => false

/-- R332 step 1. -/
def State.descBad (s : State) (d : PostDesc) : Bool :=
  !d.wellFormed || !knownOp d.op || !d.shapeOk ||
  (!isRoce d.op && decide (globalDevice d.raddr ≠ some (s.chan (d.chan.toNat % 4096)).peer))

/-- R332 step 2: status of a channel or queue pair that takes no operation. -/
def State.linkBad (s : State) (d : PostDesc) : Option Byte :=
  if isRoce d.op then (if (s.qp (d.chan.toNat % 1024)).st = .rts then none else some 11)
  else
    match (s.chan (d.chan.toNat % 4096)).st with
    | .opened => none
    | .gone => some 1
    | _ => some 2

/-- Local bytes of an operation, with the permission they need. -/
def PostDesc.localRanges (d : PostDesc) : List (Nat × Nat × Nat) :=
  match d.op.toNat with
  | 1 | 0x10 | 0x11 => [(permLoad, d.laddr.toNat, d.len)]
  | 2 | 0x12 => [(permStore, d.laddr.toNat, d.len)]
  | 6 =>
    match saFmtOf d.fmt.toNat with
    | some .g16 => [(permLoad, d.laddr.toNat, 2 * d.len), (permLoad, d.opd1.toNat, d.len / 128)]
    | some f => [(permLoad, d.laddr.toNat, f.size * d.len)]
    | none => []
  | _ => []

/-- Entry lidx of core c's local capability table (R331). -/
def State.localCap (s : State) (c : CoreId) (lidx : Nat) : Cap :=
  let a := (s.core c).win.ltBase.toNat + 16 * lidx
  ⟨BitVec.ofNat 128 (leNat (s.homeBytes a 16)), s.homeTag a && !s.wordPoisoned a⟩

/-- R332 step 3. -/
def State.localBad (s : State) (c : CoreId) (d : PostDesc) : Bool :=
  let k := s.localCap c d.lidx.toNat
  decide ((s.core c).win.ltCount.toNat ≤ d.lidx.toNat) || !k.tag || k.isSealed || !k.has permGlobal ||
  d.localRanges.any fun r => !k.covers [r.1] r.2.1 r.2.2 || (s.stacksOf r.2.1 r.2.2).isNone

/-- First check that fails (R332); the table entry's word is read first. -/
def State.postStatus (s : State) (c : CoreId) (d : PostDesc) : Option Byte :=
  if s.descBad d then some 8
  else
    match s.linkBad d with
    | some st => some st
    | none => if s.localBad c d then some 7 else none

def newOp (c : CoreId) (d : PostDesc) (ended : Option (Byte × Word)) : PostOp :=
  ⟨some c, d, 0, 0, none, false, 0, ended, [], []⟩

/-! ### RoCEv2 requester -/

/-- Path MTU of a queue pair in bytes (R356). -/
def QueuePair.mtu (q : QueuePair) : Nat := 128 * 2 ^ (q.cfg.toNat % 8)

/-- Sequence numbers a request takes. -/
def roceSpan (q : QueuePair) (op : Byte) (len : Nat) : Nat :=
  if op.toNat ≤ 0x12 then max 1 ((len + q.mtu - 1) / q.mtu) else 1

def roceOpOf (op : Byte) : RoceOp :=
  match op.toNat with
  | 0x10 => .send
  | 0x11 => .write
  | 0x12 => .read
  | 0x13 => .fetchAdd
  | 0x14 => .cmpSwap
  | _ => .unsupported

/-- Its request carries source bytes. -/
def carriesSource (op : Byte) : Bool := op == 0x10 || op == 0x11

/-- Packets of an operation that are acknowledged. -/
def QueuePair.acked (q : QueuePair) (o : PostOp) : Nat :=
  let n := (q.una - o.base.setWidth 24).toNat
  if n < 2 ^ 23 then n else 0

/-- Request packet i of an operation: one of the MTU-sized packets of a SEND or WRITE; a READ's asks for what packet i of its
answer and the later ones bring (R354). -/
def QueuePair.packet (q : QueuePair) (qn : Nat) (o : PostOp) (i : Nat) : RoceReq :=
  let d := o.desc
  let many := carriesSource d.op
  let skip := if d.op = 0x12 then i * q.mtu else 0
  { qp := Fin.ofNat 1024 qn, psn := o.base.setWidth 24 + BitVec.ofNat 24 i, op := roceOpOf d.op, va := d.raddr + w64 skip
    rkey := d.token.setWidth 32, len := w32 (d.len - skip), opd1 := d.opd1, opd2 := d.opd2
    first := !many || i == 0, last := !many || i + 1 == roceSpan q d.op d.len
    payload := if many then (o.kept.drop (i * q.mtu)).take q.mtu else [] }

/-- Packets of an operation that are not acknowledged, in order. -/
def QueuePair.packets (q : QueuePair) (qn : Nat) (o : PostOp) : List RoceReq :=
  let n := roceSpan q o.desc.op o.desc.len
  let k := q.acked o
  if n ≤ k then []
  else if carriesSource o.desc.op then (List.range (n - k)).map fun i => q.packet qn o (k + i)
  else [q.packet qn o k]

/-- Sub-port of a queue pair's context. -/
def QueuePair.subOf (q : QueuePair) : Nat := 8 * (q.port.toNat % 8) + q.port.toNat / 8 % 8

/-- Priority of a queue pair's traffic (R356). -/
def QueuePair.prio (q : QueuePair) : BitVec 3 := q.cfg.extractLsb' 15 3

/-- Headers of a queue pair's packets on sub-port k: IPv6 or IPv4 as its context says, to its own next hop (R323, R356;
log entry 121). -/
def State.roceHead (s : State) (q : QueuePair) (k : Fin 64) : TxHead :=
  let ip := if q.cfg.getLsbD 3 then ip6Head (s.subIp6 s.fab.devId.val k.val) q.rip q.prio 2
            else ip4Head (mapped4 (s.sub k.val).ip4) q.rip q.prio 2
  s.txHead k q.prio q.rmac (some ip)

/-- A frame of a queue pair leaves on sub-port k, unless that cannot send; its length is another protocol's (log entry 31). -/
def State.roceOut (s : State) (q : QueuePair) (k : Fin 64) (item : TxHead → TxItem) : State :=
  if s.subSends k.val then s.transmit ⟨k, q.prio, none, item (s.roceHead q k)⟩ else s

/-- ICRC of a packet: over addresses, destination queue pair and the packet's own numbers and bytes (R354; log entry 143). -/
def icrcOf (h : TxHead) (rqpn : BitVec 24) (fields : List Nat) (body : List Byte) : BitVec 32 :=
  let ip : List Nat := match h.ip with | none => [] | some x => [x.src.toNat, x.dst.toNat]
  Config.icrc (ip ++ rqpn.toNat :: fields) body

def roceOpNum : RoceOp → Nat
  | .send => 0
  | .write => 1
  | .read => 2
  | .fetchAdd => 3
  | .cmpSwap => 4
  | .unsupported => 5

/-- A request packet as it leaves. -/
def requestItem (k : Fin 64) (rqpn : BitVec 24) (q : RoceReq) (h : TxHead) : TxItem :=
  .roceRequest k h rqpn q (icrcOf h rqpn
    [0, roceOpNum q.op, q.psn.toNat, q.va.toNat, q.rkey.toNat, q.len.toNat, q.opd1.toNat, q.opd2.toNat, bit q.first, bit q.last] q.payload)

/-- An answer packet as it leaves. -/
def answerItem (k : Fin 64) (rqpn psn : BitVec 24) (a : RoceAnswer) (h : TxHead) : TxItem :=
  let c : List Nat × List Byte := match a with
    | .ack bs old => ([0, old.toNat], bs)
    | .nakSequence => ([1], [])
    | .nakInvalid => ([2], [])
    | .nakAccess => ([3], [])
    | .nakOperational => ([4], [])
    | .rnr => ([5], [])
  .roceAnswer k h rqpn psn a (icrcOf h rqpn (1 :: psn.toNat :: c.1) c.2)

/-- A CNP as it leaves. -/
def cnpItem (k : Fin 64) (rqpn : BitVec 24) (h : TxHead) : TxItem := .cnp k h rqpn (icrcOf h rqpn [2] [])

/-- What of an operation is not acknowledged goes out. -/
def State.roceSend (s : State) (qn : Nat) (o : PostOp) : State :=
  let q := s.qp qn
  let k := Fin.ofNat 64 q.subOf
  let s1 := s.setQp qn { q with sentAt := s.time }
  (q.packets qn o).foldl (fun t r => t.roceOut q k (requestItem k q.rqpn r)) s1

/-- An operation is numbered and sent, unless the queue pair waits after an RNR NAK. -/
def State.roceIssue (s : State) (qn : Nat) (o : PostOp) : State :=
  let q := s.qp qn
  let o1 := { o with sent := 1, base := q.spsn.setWidth 32 }
  let s1 := s.setQp qn { q with ops := q.ops ++ [o1], spsn := q.spsn + BitVec.ofNat 24 (roceSpan q o.desc.op o.desc.len) }
  if q.rnrWait then s1 else s1.roceSend qn o1

/-- The destination of a READ is undefined from its acceptance to its completion (R333). -/
def State.scramble (s : State) (d : PostDesc) : State :=
  if d.op = opRead ∨ d.op = 0x12 then
    let f := s.freeBytes d.len
    f.2.writeHome d.laddr.toNat f.1
  else s

/-- The source of an operation is poisoned. -/
def State.sourcePoisoned (s : State) (d : PostDesc) : Bool :=
  carriesSource d.op && (s.firstPoison d.laddr.toNat d.len).isSome

/-- Errors that reading the operation's source reaches are found. -/
def State.settleSource (s : State) (d : PostDesc) : State :=
  if carriesSource d.op then s.settle d.laddr.toNat d.len 0 else s

/-- A RoCEv2 operation is posted: it is numbered and its packets sent; poisoned source bytes cannot be sent marked,
so nothing is sent and the operation ends POISONED (log entry 32). -/
def State.rocePost (s : State) (c : CoreId) (d : PostDesc) : State :=
  let s1 := s.settleSource d
  let qn := d.chan.toNat % 1024
  if s1.sourcePoisoned d then s1.setQp qn { s1.qp qn with ops := (s1.qp qn).ops ++ [newOp c d (some (6, 0))] }
  else
    let kept := if carriesSource d.op then s1.homeBytes d.laddr.toNat d.len else []
    s1.roceIssue qn { newOp c d none with kept := kept }

/-! ### Acceptance -/

/-- The next descriptor is accepted (R332): it ends at its first failing check, or is posted on its channel or
queue pair. -/
def State.acceptDesc (s : State) (c : CoreId) (d : PostDesc) : State :=
  let s0 := s.settle ((s.core c).win.ltBase.toNat + 16 * d.lidx.toNat) 16 0
  let s1 := s0.mapCore c fun x => { x with win := { x.win with accepted := x.win.accepted + 1 } }
  let n := d.chan.toNat % 4096
  let qn := d.chan.toNat % 1024
  match s0.postStatus c d with
  | some st =>
    if !knownOp d.op then s1.writeCompletion c (newOp c d none) st 0
    else if isRoce d.op then
      (s1.setQp qn { s1.qp qn with ops := (s1.qp qn).ops ++ [newOp c d (some (st, 0))] }).flushQp qn
    else (s1.setChan n { s1.chan n with ops := (s1.chan n).ops ++ [newOp c d (some (st, 0))] }).flushChan n
  | none =>
    let s2 := s1.scramble d
    if isRoce d.op then (s2.rocePost c d).flushQp qn
    else s2.setChan n { s2.chan n with ops := (s2.chan n).ops ++ [newOp c d none] }

/-- The hub takes core c's next descriptor where its op is the command's; a reserved op ends BAD_DESC. -/
def State.post (s : State) (c : CoreId) (op : Byte) : Host.Outcome State Fault Refusal :=
  let w := (s.core c).win
  if s.fabricOn && w.pqSize != 0 && BitVec.ofNat 16 w.accepted != w.pqTail then
    let d := s.readDesc c
    if d.op = op ∨ knownOp d.op = false then .next (s.acceptDesc c d) else .next s
  else .next s

/-- R334. -/
def execPoldoalWrite (c : CoreId) (s : State) : Host.Outcome State Fault Refusal := s.post c opWrite
/-- R334. -/
def execPoldoalRead (c : CoreId) (s : State) : Host.Outcome State Fault Refusal := s.post c opRead
/-- R334. -/
def execAtomicAdd (c : CoreId) (s : State) : Host.Outcome State Fault Refusal := s.post c opAdd
/-- R334. -/
def execAtomicMax (c : CoreId) (s : State) : Host.Outcome State Fault Refusal := s.post c opMax
/-- R334. -/
def execAtomicCas (c : CoreId) (s : State) : Host.Outcome State Fault Refusal := s.post c opCas
/-- R335. -/
def execWriteAcc (c : CoreId) (s : State) : Host.Outcome State Fault Refusal := s.post c opWriteAcc
/-- R337. -/
def execPoldoalNotify (c : CoreId) (s : State) : Host.Outcome State Fault Refusal := s.post c opNotify
/-- R337. -/
def execPoldoalFence (c : CoreId) (s : State) : Host.Outcome State Fault Refusal := s.post c opFence
/-- R357. -/
def execSend (c : CoreId) (s : State) : Host.Outcome State Fault Refusal := s.post c 0x10
/-- R357. -/
def execRdmaWrite (c : CoreId) (s : State) : Host.Outcome State Fault Refusal := s.post c 0x11
/-- R357. -/
def execRdmaRead (c : CoreId) (s : State) : Host.Outcome State Fault Refusal := s.post c 0x12
/-- R357. -/
def execFetchAdd (c : CoreId) (s : State) : Host.Outcome State Fault Refusal := s.post c 0x13
/-- R357. -/
def execCmpSwap (c : CoreId) (s : State) : Host.Outcome State Fault Refusal := s.post c 0x14

end Sys2Proof.Machine
end

