-- ==== Sys2Proof/Machine/Poldoal.lean ====
section
/-!
DEFINITION. The Poldoal transport: REQs are built and sent (R346, R347, R349), checked, held and applied at
the target (R336, R341, R347), acknowledged and answered (R348), and the paths of recovery (R344, R350 to R352).
-/
namespace Sys2Proof.Machine

/-! ### Building a REQ -/

/-- Source bytes of a packet and which of them are poisoned. -/
structure SrcBytes where
  bytes : List Byte
  bad : List Bool
  deriving DecidableEq, Repr

/-- n bytes of data space as the hub reads them. -/
def State.srcBytes (s : State) (a n : Nat) : SrcBytes :=
  ⟨s.homeBytes a n, (List.range n).map fun i => s.wordPoisoned (a + i)⟩

def SrcBytes.append (x y : SrcBytes) : SrcBytes := ⟨x.bytes ++ y.bytes, x.bad ++ y.bad⟩

def zeroBytes (n : Nat) : SrcBytes := ⟨List.replicate n 0, List.replicate n false⟩

/-- The packed G16 segment i of an operation (R39, R335). -/
def State.packSegment (s : State) (d : PostDesc) (i : Nat) : SrcBytes :=
  let nb := min 8 ((d.len - 1024 * i) / 128)
  let sc := s.srcBytes (d.opd1.toNat + 8 * i) nb
  ((sc.append (zeroBytes (16 - nb))).append (s.srcBytes (d.laddr.toNat + 2048 * i) (256 * nb)))

/-- Ranges of data space that packet i of an operation is built from. -/
def PostDesc.packetRanges (d : PostDesc) (payload i : Nat) : List (Nat × Nat) :=
  let per := d.perPacket payload
  let n := min per (d.len - i * per)
  if d.op = opWrite then [(d.laddr.toNat + i * per, n)]
  else if d.op = opWriteAcc then
    match saFmtOf d.fmt.toNat with
    | some .g16 => [(d.opd1.toNat + 8 * i, n / 128), (d.laddr.toNat + 2048 * i, 2 * n)]
    | some f => [(d.laddr.toNat + i * per * f.size, n * f.size)]
    | none => []
  else []

/-- Payload of packet i (R334, R335). -/
def State.packetPayload (s : State) (d : PostDesc) (i : Nat) : SrcBytes :=
  if isAtomic d.op then
    let ops := leBytes 8 d.opd1.toNat ++ (if d.op = opCas then leBytes 8 d.opd2.toNat else [])
    ⟨ops, List.replicate ops.length false⟩
  else if d.op = opWriteAcc ∧ saFmtOf d.fmt.toNat = some .g16 then s.packSegment d i
  else (d.packetRanges s.fab.payload.toNat i).foldl (fun x r => x.append (s.srcBytes r.1 r.2)) ⟨[], []⟩

/-- Poison map of a payload (R346). -/
def poisonMap (bad : List Bool) : BitVec 128 :=
  (List.range ((bad.length + 31) / 32)).foldl (fun m w =>
    if ((bad.drop (32 * w)).take 32).any id then m ||| (1 <<< w) else m) 0

/-- Target bytes per byte or element of an operation. -/
def PostDesc.targetStep (d : PostDesc) : Nat := if d.op = opWriteAcc then 4 else 1

/-- REQ number psn, packet i of the operation on channel n (R346). -/
def State.buildReq (s : State) (n : Nat) (k : Channel) (o : PostOp) (i : Nat) : Packet :=
  let d := o.desc
  let payload := s.fab.payload.toNat
  let per := d.perPacket payload
  let src := s.packetPayload d i
  let m := poisonMap src.bad
  { packetOf s 1 (Fin.ofNat 4096 n) k with
    op := d.op, first := i == 0, last := i + 1 == d.packets payload, hasPmap := m != 0, psn := k.nextPsn
    aux := if d.op = opRead then w32 (min per (d.len - i * per)) else w32 src.bytes.length
    offset := (d.raddr + w64 (i * per * d.targetStep)).setWidth 48
    fmt := d.fmt, token := d.token, pmap := m, payload := src.bytes }

/-! ### Sending (R349, R350) -/

/-- REQs to a peer that are not acknowledged. -/
def State.inFlightTo (s : State) (peer : BitVec 14) : Nat :=
  (s.fab.chans.map fun e => if e.2.peer = peer then (e.2.sent.filter fun x => !x.acked).length else 0).sum

/-- First operation of a channel with a packet to send. -/
def Channel.nextOp (k : Channel) (payload : Nat) : Option PostOp :=
  k.ops.find? fun o => o.ended.isNone && decide (o.sent < o.desc.packets payload)

/-- The limits of R349 other than the unit let the next REQ of the operation go. -/
def State.maySend (s : State) (k : Channel) (o : PostOp) : Bool :=
  precedes k.nextPsn k.creditLimit && decide (s.inFlightTo k.peer < (s.peerOf k.peer).window) &&
  decide (k.sent.length < 512) && (s.ledger 0x40).canTake 1 &&
  (!isAtomic o.desc.op || decide ((k.sent.filter fun e => isAtomic e.pkt.op).length < 16))

/-- The first packet unacknowledged at a peer: its silence counts from now (R352). -/
def State.startsOwing (s : State) (peer : BitVec 14) : State :=
  if s.inFlightTo peer = 0 then s.setPeer peer { s.peerOf peer with heard := s.time } else s

/-- The operation with one more packet sent. -/
def PostOp.advance (o : PostOp) (psn : BitVec 32) (bad : Bool) : PostOp :=
  { o with sent := o.sent + 1, base := if o.sent = 0 then psn else o.base, poisoned := o.poisoned || bad }

/-- The REQ is recorded as sent on sub-port sub. -/
def State.recordSent (s : State) (n : Nat) (p : Packet) (sub : Fin 64) (u : Option PoolUnit) : State :=
  let k := s.chan n
  let o := k.nextOp s.fab.payload.toNat
  let ops := k.ops.map fun x => if some x = o then x.advance p.psn p.hasPmap else x
  s.setChan n { k with nextPsn := k.nextPsn + 1, ops := ops,
                       sent := k.sent ++ [⟨p.psn, p, sub, u, 0, s.time, false, false⟩] }

/-- The REQ needs a pool unit (R349). -/
def reqNeedsUnit (p : Packet) : Bool := !p.payload.isEmpty || p.op == opRead

/-- A slot and, where needed, a unit of port p are taken. -/
def State.takeForSend (s : State) (need : Bool) (p : Fin 8) : Option (State × Option PoolUnit) :=
  if need then
    match s.takeUnit p with
    | none => none
    | some (t, u) => some (t.poolTake 0x40 1, some u)
  else some (s.poolTake 0x40 1, none)

/-- The next REQ of channel n is sent where every limit allows. -/
def State.sendReq (s : State) (n : Nat) : State :=
  let k := s.chan n
  match k.nextOp s.fab.payload.toNat with
  | none => s
  | some o =>
    if s.maySend k o then
      let s1 := (o.desc.packetRanges s.fab.payload.toNat o.sent).foldl (fun t r => t.settle r.1 r.2 0) s
      let p := s1.buildReq n k o o.sent
      if k.peer = s.fab.devId.val then
        match s1.takeForSend (reqNeedsUnit p) 0 with
        | none => s
        | some (t, u) => (t.recordSent n p 0 u).mapFab fun f => { f with loop := f.loop ++ [p] }
      else
        match s1.pickSub s1.subFull with
        | none => s
        | some sub =>
          match s1.takeForSend (reqNeedsUnit p) (Fin.ofNat 8 (sub.val / 8)) with
          | none => s
          | some (t, u) => ((t.startsOwing k.peer).recordSent n p sub u).xmit sub p
    else s

/-! ### Acknowledgements (R348) -/

/-- Map of later packets held (R346). -/
def Channel.sackMap (k : Channel) : BitVec 128 :=
  k.held.foldl (fun m h =>
    let i := (h.pkt.psn - k.expect).toNat
    if 1 ≤ i ∧ i ≤ 128 then m ||| (1 <<< (i - 1)) else m) 0

/-- The packets not applied lately, as ACK and NACK carry them in their payload: number and status each (log entry 33). What
is kept reaches back beyond any credit, so no packet that the sender still holds is left out. -/
def Channel.refusals (k : Channel) : List Byte := k.refused.flatMap fun r => leBytes 4 r.1.toNat ++ [r.2]

/-- An ACK (type 3) or NACK (type 4) of channel n is sent. -/
def State.sendAck (s : State) (n : Nat) (nack : Bool) : State :=
  let k := s.chan n
  let p := { packetOf s (if nack then 4 else 3) (Fin.ofNat 4096 n) k with
    ceEcho := k.ceSeen, ack := k.expect, aux := k.expect + k.credit.setWidth 32, token := k.sackMap, payload := k.refusals }
  (s.sendPacket p).setChan n { k with sinceAck := 0, ceSeen := false }

/-- A RESP to a REQ; its fmt byte carries the status (log entry 33). -/
def State.sendResp (s : State) (n : Nat) (req : Packet) (status : Byte) (token pmap : BitVec 128) (bs : List Byte) : State :=
  s.sendPacket { packetOf s 2 (Fin.ofNat 4096 n) (s.chan n) with
    op := req.op, ack := req.psn, aux := w32 bs.length, hasPmap := pmap != 0, fmt := status, token := token
    pmap := pmap, payload := bs }

/-! ### The target's checks (R341) -/

def State.fabricEntry (s : State) (i : Nat) : FabricEntry := sparseGet (fun _ => entryReset) s.fab.table i

/-- Every field of the entry agrees with its complement (R340, R362). -/
def FabricEntry.sound (e : FabricEntry) : Bool :=
  intact e.tokLo && intact e.tokHi && intact e.base && intact e.len && intact e.ctl

def FabricEntry.token (e : FabricEntry) : BitVec 128 := e.tokHi.val ++ e.tokLo.val

/-- The entry is in use. -/
def FabricEntry.enabled (e : FabricEntry) : Bool := e.sound && e.ctl.val.getLsbD 0

def State.setFabricEntry (s : State) (i : Nat) (e : FabricEntry) : State :=
  s.mapFab fun f => { f with table := sparseSet (fun _ => entryReset) f.table i e }

/-- A damaged entry is recorded where its damage is found: once, until it is written (R340, R362). -/
def State.readEntry (s : State) (i : Nat) : State × FabricEntry :=
  let e := s.fabricEntry i
  if e.sound || e.noted then (s, e)
  else ((s.setFabricEntry i { e with noted := true }).log 4 0x0206 0x00010005 (w32 i) 0 0, e)

/-- The token's permission bits hold all of a list. -/
def tokenHas (token : BitVec 128) (perms : List Nat) : Bool := perms.all fun b => (token.extractLsb' 104 16).getLsbD b

/-- Permissions an operation needs (R334). -/
def tokenNeeds (op : Byte) : List Nat :=
  match op.toNat with
  | 1 | 6 => [permStore]
  | 2 => [permLoad]
  | 3 | 4 | 5 => [permLoad, permStore]
  | 7 => [permIo]
  | _ => []

/-- Elements of a WRITE_ACC payload. -/
def accElems (f : SaFmt) (len : Nat) : Nat :=
  match f with
  | .g16 => (len - 16) / 256 * 128
  | _ => len / f.size

/-- Target bytes of a REQ from its offset upward. -/
def reqTargetLen (p : Packet) : Nat :=
  match p.op.toNat with
  | 1 => p.payload.length
  | 2 => p.aux.toNat
  | 3 | 4 | 5 => 8
  | 6 => (match saFmtOf p.fmt.toNat with | none => 0 | some f => 4 * accElems f p.payload.length)
  | _ => 0

/-- The range lies in the entry's bounds. -/
def FabricEntry.inside (e : FabricEntry) (a n : Nat) : Bool :=
  decide (e.base.val.toNat ≤ a ∧ a + n ≤ e.base.val.toNat + e.len.val.toNat)

/-- Checks of an entry for a range of data space: DENIED, BOUNDS, UNMAPPED in order; 0 where all pass. -/
def State.entryStatus (s : State) (e : FabricEntry) (held : Bool) (needs : List Nat) (a n : Nat) : Byte :=
  if !e.enabled || !held || !tokenHas e.token needs then 3
  else if !e.inside a n then 4
  else if s.badExtent a n then 5
  else 0

/-- A REQ whose fields spell no operation: a reserved op, a WRITE_ACC of no format, a NOTIFY of source 4,095 or of a target
above 64 (R334, R384). -/
def packetBadDesc (p : Packet) : Bool :=
  decide (8 < p.op.toNat ∨ p.op = 0 ∨ (p.op = opWriteAcc ∧ saFmtOf p.fmt.toNat = none) ∨
    (p.op = opNotify ∧ (p.offset.toNat % 4096 = 0xFFF ∨ 64 < p.offset.toNat / 4096 % 128)))

/-- R341: status of a REQ. A FENCE needs no token; what spells no operation is BAD_DESC. -/
def State.reqStatus (s : State) (p : Packet) : Byte :=
  if p.op = opFence then 0
  else if packetBadDesc p then 8
  else
    let e := s.fabricEntry (p.token.toNat % 16384)
    if p.op = opNotify then
      if !e.enabled || e.token != p.token || !tokenHas e.token [permIo] then 3
      else if !e.inside (p.offset.toNat % 2 ^ 19) 1 then 4
      else 0
    else s.entryStatus e (e.token == p.token) (tokenNeeds p.op) p.offset.toNat (reqTargetLen p)

/-- A REQ refused by its checks is counted and recorded (R359). -/
def State.checkReq (s : State) (n : Nat) (p : Packet) : State × Byte :=
  let s1 := (s.readEntry (p.token.toNat % 16384)).1
  let st := s.reqStatus p
  if st = 0 then (if p.op = opFence then s else s1, 0)
  else
    ((s1.mapFab fun f => { f with denied := f.denied + 1 }).log 3 0x0C06 (chanSource n) (w32 p.src.toNat)
      (w32 (p.token.toNat % 16384)) (w32 st.toNat), st)

/-! ### Applying a REQ (R334, R336, R347) -/

/-- New word of an atomic. -/
def atomicNew (op : Byte) (old opd1 opd2 : Word) : Word :=
  if op = opAdd then old + opd1
  else if op = opMax then (if old.slt opd1 then opd1 else old)
  else if old = opd1 then opd2 else old

/-- An atomic on the word at a: status, old value and the state after it. A poisoned word is left as it is; its old
value is free. -/
def State.atomicAt (s : State) (op : Byte) (a : Nat) (opd1 opd2 : Word) : State × Byte × Word :=
  let s1 := s.settle (a / 32 * 32) 32 0
  if s1.wordPoisoned a then
    let f := s1.takeFree
    (f.2, 6, f.1)
  else
    let old := w64 (leNat (s1.homeBytes a 8))
    (s1.writeHome a (leBytes 8 (atomicNew op old opd1 opd2).toNat), 0, old)

/-- A READ is answered. -/
def State.answerRead (s : State) (n : Nat) (p : Packet) : State :=
  let s1 := s.settle p.offset.toNat p.aux.toNat 0
  let src := s1.srcBytes p.offset.toNat p.aux.toNat
  let m := poisonMap src.bad
  s1.sendResp n p (if m = 0 then 0 else 6) 0 m src.bytes

/-- The jobs of a WRITE_ACC packet, split at 4 KiB blocks of its targets (R273). -/
def accJobs (n : Nat) (p : Packet) (f : SaFmt) : Nat → Nat → List SaJob
  | 0, _ => []
  | fuel + 1, lo =>
    let cnt := accElems f p.payload.length
    if cnt ≤ lo then []
    else
      let a := p.offset.toNat + 4 * lo
      let room := max 1 ((4096 - a % 4096) / 4)
      let m := min room (cnt - lo)
      ⟨a, f, p.payload, p.pmap, lo, m, n, p.psn⟩ :: accJobs n p f fuel (lo + m)

/-- A job goes to the engine of the stack that holds its block. -/
def State.enqueueJob (s : State) (j : SaJob) : State :=
  match (s.region j.target).stack? with
  | none => s
  | some st => if s.stackFenced st then s.discardWrite j.target (4 * j.cnt)
               else s.mapStack st fun k => { k with saQueue := k.saQueue ++ [j] }

/-- Additions of the channel's packets are still to be made. -/
def State.jobsPending (s : State) (n : Nat) : Bool := s.stks.toList.any fun k => k.saQueue.any fun j => j.chan == n

/-- A REQ that passed its checks takes effect. -/
def State.applyReq (s : State) (n : Nat) (p : Packet) : State :=
  match p.op.toNat with
  | 1 => s.writeMarked p.offset.toNat p.payload p.pmap
  | 2 => s.answerRead n p
  | 3 | 4 | 5 =>
    let r := s.atomicAt p.op p.offset.toNat (w64 (fieldNat p.payload 0 8)) (w64 (fieldNat p.payload 8 8))
    let k := r.1.chan n
    (r.1.setChan n { k with atomics := ((p.psn, r.2.2, r.2.1) :: k.atomics).take 16 }).sendResp n p r.2.1 (r.2.2.setWidth 128) 0 []
  | 6 =>
    match saFmtOf p.fmt.toNat with
    | none => s
    | some f => (accJobs n p f (p.payload.length + 1) 0).foldl State.enqueueJob s
  | 7 => s.doorbell (p.offset.toNat / 4096 % 128) (p.offset.toNat % 4096)
  | _ => s

/-- A packet is not applied, with the status its operation ends with: the channel remembers it, and answers with the
status (log entry 33). -/
def State.refuse (s : State) (n : Nat) (p : Packet) (status : Byte) : State :=
  let k := s.chan n
  let old := k.refused.filter fun r => decide ((k.expect - r.1).toNat ≤ 1024)
  (s.setChan n { k with failed := if p.last then none else some status, refused := (p.psn, status) :: old }).sendResp n p
    status 0 0 []

/-- What a held packet does in its turn: a failed operation's later packets are not applied (R338). -/
def State.takeTurn (s : State) (n : Nat) (h : HeldReq) : State :=
  let k := s.chan n
  match if h.pkt.first then none else k.failed with
  | some st => s.refuse n h.pkt st
  | none => if h.status = 0 then (s.setChan n { k with failed := none }).applyReq n h.pkt else s.refuse n h.pkt h.status

/-- Packets contiguous from E are applied in order; one that must see every earlier addition waits for the
scatter-add engines (R336, R337). -/
def State.applyHeld (s : State) (n : Nat) : Nat → State
  | 0 => s
  | fuel + 1 =>
    let k := s.chan n
    match k.held.find? fun h => h.pkt.psn == k.expect with
    | none => s
    | some h =>
      if h.status = 0 ∧ h.pkt.op ≠ opWriteAcc ∧ s.jobsPending n then s
      else
        let s1 := s.setChan n { k with expect := k.expect + 1, held := k.held.filter fun x => x.pkt.psn != k.expect }
        ((s1.takeTurn n h).giveUnit h.unit).applyHeld n fuel

/-! ### Receiving a REQ (R347, R348) -/

/-- RX_DROP (R359) and rx_drop. -/
def State.rxDrop (s : State) (sub : Nat) : State := s.mapSub sub fun x => { x with rxDrop := x.rxDrop + 1 }

def State.rxDropRec (s : State) (sub : Nat) (cause : Nat) : State :=
  (s.rxDrop sub).log 2 0x0C07 (subSource sub) (w32 cause) 1 0

/-- The channel takes packets of its peer under its epoch (R345). -/
def Channel.takes (k : Channel) (p : Packet) : Bool :=
  decide ((k.st = .opened ∨ k.st = .draining) ∧ k.peer = p.src ∧ k.epoch = p.epoch)

def State.stale (s : State) : State := s.mapFab fun f => { f with staleEpoch := f.staleEpoch + 1 }

/-- The packet's CE is echoed with the channel's next acknowledgement (R322). -/
def State.echoCe (s : State) (ce : Bool) (p : Packet) : State :=
  let k := s.chan p.chan.val
  if ce && k.takes p then s.setChan p.chan.val { k with ceSeen := true } else s

/-- A duplicate REQ is acknowledged again; a READ is read again, an atomic answered from the cache, with its status; one that
was not applied is answered with its status (R347). -/
def State.duplicateReq (s : State) (n : Nat) (p : Packet) : State :=
  let k := s.chan n
  let s1 := s.mapFab fun f => { f with dup := f.dup + 1 }
  let again :=
    if p.op = opRead then
      let r := s1.checkReq n p
      if r.2 = 0 then r.1.answerRead n p else r.1.sendResp n p r.2 0 0 []
    else if isAtomic p.op then
      match k.atomics.find? fun e => e.1 == p.psn with
      | none => s1
      | some e => s1.sendResp n p e.2.2 (e.2.1.setWidth 128) 0 []
    else s1
  let s2 :=
    match k.refused.find? fun e => e.1 == p.psn with
    | some e => s1.sendResp n p e.2 0 0 []
    | none => again
  s2.sendAck n false

/-- ACK or NACK after a REQ was held and what could be applied was applied. -/
def State.afterReq (s : State) (n : Nat) (gap filled : Bool) : State :=
  let k := s.chan n
  if gap then s.sendAck n true
  else if filled ∨ 8 ≤ k.sinceAck + 1 then s.sendAck n false
  else s.setChan n { k with sinceAck := k.sinceAck + 1 }

/-- A packet between E and psn is neither applied nor held (R348). -/
def Channel.gapBefore (k : Channel) (psn : BitVec 32) : Bool :=
  (List.range (psn - k.expect).toNat).any fun i => !k.held.any fun h => h.pkt.psn == k.expect + BitVec.ofNat 32 i

/-- R347, R348. -/
def State.onReq (s0 : State) (sub : Nat) (p : Packet) : State :=
  let n := p.chan.val
  let k := s0.chan n
  if !k.takes p then s0.stale
  else
    if precedes p.psn k.expect then s0.duplicateReq n p
    else if k.held.any fun h => h.pkt.psn == p.psn then s0.mapFab fun f => { f with dup := f.dup + 1 }
    else if k.credit.toNat ≤ (p.psn - k.expect).toNat then s0.rxDropRec sub 2
    else
      match s0.takeUnit (Fin.ofNat 8 (sub / 8)) with
      | none => s0.rxDropRec sub 1
      | some (s1, u) =>
        let r := s1.checkReq n p
        let k1 := r.1.chan n
        let s2 := r.1.setChan n { k1 with held := k1.held ++ [⟨p, Fin.ofNat 64 sub, r.2, u⟩] }
        let s3 := s2.applyHeld n 600
        s3.afterReq n (k.gapBefore p.psn) (p.psn == k.expect && decide (1 < ((s3.chan n).expect - p.psn).toNat))

/-! ### Receiving ACK, NACK and RESP (R348, R349) -/

/-- A CE echo halves the window at most once per 10 µs; acknowledgements without one let it grow (R349). -/
def Peer.acknowledged (x : Peer) (now n : Nat) (ce : Bool) : Peer :=
  if ce then
    if (match x.halvedAt with | none => true | some t => decide (t + 1000 ≤ now)) then
      { x with window := max 4 (x.window / 2), halvedAt := some now, ackCount := 0 }
    else x
  else
    let c := x.ackCount + n
    if x.window ≤ c then { x with window := min 512 (x.window + 1), ackCount := c - x.window } else { x with ackCount := c }

/-- Bit i of the map stands for E + 1 + i. -/
def sacks (ack : BitVec 32) (m : BitVec 128) (psn : BitVec 32) : Bool :=
  let i := (psn - ack).toNat
  decide (1 ≤ i ∧ i ≤ 128) && m.getLsbD (i - 1)

/-- Packets that a NACK shows missing and that were not sent within rto_us (R348). -/
def Channel.missing (k : Channel) (p : Packet) (now rto : Nat) : List (BitVec 32) :=
  let top := (List.range 128).foldl (fun t i => if p.token.getLsbD i then i + 1 else t) 0
  (k.sent.filter fun e => !e.acked && !sacks p.ack p.token e.psn && decide ((e.psn - p.ack).toNat < max top 1 ∧
    e.sentAt + 100 * rto ≤ now)).map fun e => e.psn

/-- The peer's sub-port answers, so it is healthy (R350). -/
def State.sawPeerSub (s : State) (d : BitVec 14) (from_ : Option Nat) : State :=
  match from_ with
  | none => s
  | some k => let x := s.peerOf d; s.setPeer d { x with healthy := x.healthy ||| (1 <<< k) }

/-- A status of a packet goes to its operation. -/
def PostOp.withFail (o : PostOp) (i : Nat) (st : Byte) : PostOp :=
  match o.fail with
  | none => { o with fail := some (i, st) }
  | some (j, x) => { o with fail := some (if i < j then (i, st) else (j, x)) }

/-- The packets not applied that an ACK or NACK names. -/
def ackRefusals (bs : List Byte) : List (BitVec 32 × Byte) :=
  (List.range (bs.length / 5)).map fun i => (BitVec.ofNat 32 (fieldNat bs (5 * i) 4), BitVec.ofNat 8 (fieldNat bs (5 * i + 4) 1))

/-- An operation with the statuses of its packets that were not applied. -/
def PostOp.refusedBy (bad : List (BitVec 32 × Byte)) (o : PostOp) : PostOp :=
  bad.foldl (fun x b => if x.ended.isNone && x.owns b.1 then x.withFail (b.1 - x.base).toNat b.2 else x) o

/-- An acknowledged atomic has no payload to resend: its unit comes back, its slot stays until the RESP (R349). -/
def State.releasePayload (s : State) (e : SentReq) : State :=
  match e.unit with
  | some u => if isAtomic e.pkt.op then s.giveUnit u else s
  | none => s

/-- A sent REQ once an ACK or NACK has named E. -/
def SentReq.ackedBy (e : SentReq) (p : Packet) : SentReq :=
  let a := e.acked || precedes e.psn p.ack
  { e with acked := a, sacked := sacks p.ack p.token e.psn, unit := if a && isAtomic e.pkt.op then none else e.unit }

/-- R348, R349. -/
def State.onAck (s : State) (nack : Bool) (from_ : Option Nat) (p : Packet) : State :=
  let n := p.chan.val
  let k := s.chan n
  if !k.takes p then s.stale
  else
    let bad := ackRefusals p.payload
    let passed := fun e : SentReq => precedes e.psn p.ack && (!wantsResp e.pkt.op || bad.any fun b => b.1 == e.psn)
    let done := k.sent.filter fun e => !e.acked && precedes e.psn p.ack
    let gone := k.sent.filter passed
    let sent := (k.sent.filter fun e => !passed e).map fun e => e.ackedBy p
    let s0 := gone.foldl (fun t e => t.releaseSent e) (s.sawPeerSub p.src from_)
    let s1 := (done.filter fun e => !passed e).foldl (fun t e => t.releasePayload e) s0
    let k1 := { s1.chan n with sent := sent, ops := (s1.chan n).ops.map fun o => o.refusedBy bad, creditLimit := if precedes k.creditLimit p.aux then p.aux else k.creditLimit }
    let s2 := (s1.setChan n k1).setPeer p.src ((s1.peerOf p.src).acknowledged s.time done.length p.ceEcho)
    let s3 := if nack then (k1.missing p s.time s.fab.rtoUs.toNat).foldl (fun t q => t.resendOne n q) s2 else s2
    s3.finishOps n

/-- R347: the answer of a READ, kept until the completion (R333), or of an atomic, or the status of a packet not applied. -/
def State.onResp (s : State) (p : Packet) : State :=
  let n := p.chan.val
  let k := s.chan n
  if !k.takes p then s.stale
  else
    match k.sent.find? fun e => e.psn == p.ack with
    | none => s
    | some e =>
      match k.ops.find? fun o => o.owns e.psn with
      | none => s
      | some o =>
        let i := (e.psn - o.base).toNat
        let refused := p.fmt != 0 && p.fmt != 6
        let per := o.desc.perPacket s.fab.payload.toNat
        let data := p.payload.take (min per (o.desc.len - i * per))
        let o1 := if refused then o.withFail i p.fmt
                  else { o with poisoned := o.poisoned || p.fmt == 6, result := if isAtomic o.desc.op then p.token.setWidth 64 else o.result
                                got := if o.desc.op = opRead then o.got ++ [(i * per, data, p.pmap)] else o.got }
        let s2 := s.releaseSent e
        let k2 := s2.chan n
        (s2.setChan n { k2 with ops := k2.ops.map (fun x => if x = o then o1 else x),
                                sent := k2.sent.filter fun x => x.psn != e.psn }).finishOps n

/-! ### Opening and closing (R344) -/

/-- Epoch of a channel from its halves. -/
def State.epochOf (s : State) (peer : BitVec 14) (own theirs : BitVec 16) : BitVec 32 :=
  if s.fab.devId.val.toNat ≤ peer.toNat then own ++ theirs else theirs ++ own

/-- HELLO of an OPENING or reopening channel. -/
def State.sendHello (s : State) (n : Nat) : State :=
  let k := s.chan n
  s.sendPacket { packetOf s 7 (Fin.ofNat 4096 n) k with aux := k.ownHalf.setWidth 32 }

/-- Both halves are known: OPEN, numbers from 0. Until the first ACK the least window any peer grants is used (log
entry 34). -/
def State.openChannel (s : State) (n : Nat) (theirs : BitVec 16) : State :=
  let k := s.chan n
  let ep := s.epochOf k.peer k.ownHalf theirs
  (s.setChan n { k with st := .opened, peerHalf := some theirs, epoch := ep, nextPsn := 0, creditLimit := 8, expect := 0,
                        atomics := [], refused := [], sinceAck := 0, ceSeen := false, failed := none }).log 1 0x0C05 (chanSource n)
    (w32 k.peer.toNat) ep 0

/-- The next epoch half. -/
def State.freshHalf (s : State) (n : Nat) : State :=
  let h := s.fab.halfCounter
  (s.mapFab fun f => { f with halfCounter := f.halfCounter + 1 }).setChan n { s.chan n with ownHalf := h, peerHalf := none }

/-- R344. The end that opens first is OPEN before the other has its half: it answers with a HELLO under the new epoch, and
again while the other's HELLO does not carry that epoch (log entry 34). -/
def State.onHello (s : State) (p : Packet) : State :=
  let n := p.chan.val
  let k := s.chan n
  let theirs : BitVec 16 := p.aux.setWidth 16
  if k.peer ≠ p.src then s
  else if k.st = .opening then (s.openChannel n theirs).sendHello n
  else if k.st = .opened then
    if k.peerHalf = some theirs then (if p.epoch = k.epoch then s else s.sendHello n)
    else
      let r := s.endChannel n 1 .gone
      let s1 := r.1.log 4 0x0C04 (chanSource n) (w32 k.peer.toNat) 1 (w32 r.2)
      ((s1.freshHalf n).openChannel n theirs).sendHello n
  else s

/-- ch_cmd open; none is RANGE (R343). -/
def State.openCmd (s : State) (n : Nat) : Option State :=
  let k := s.chan n
  if k.st = .closed ∨ k.st = .gone then
    some (((s.setChan n { k with st := .opening }).freshHalf n).sendHello n)
  else none

/-- ch_cmd close; none is RANGE (R343). -/
def State.closeCmd (s : State) (n : Nat) : Option State :=
  let k := s.chan n
  if k.st = .opened ∨ k.st = .opening then some (s.setChan n { k with st := .draining }) else none

/-- R352: a BYE on an OPEN channel. -/
def State.onBye (s : State) (p : Packet) : State :=
  let k := s.chan p.chan.val
  if !k.takes p then s.stale else if k.st = .opened then s.depart k.peer else s

/-! ### Packets inside the package (R25) -/

/-- A received packet of a type that belongs to a channel. -/
def State.onPacket (s : State) (sub : Nat) (from_ : Option Nat) (p : Packet) : State :=
  match p.ptype.toNat with
  | 1 => s.onReq sub p
  | 2 => s.onResp p
  | 3 => s.onAck false from_ p
  | 4 => s.onAck true from_ p
  | 7 => s.onHello p
  | 8 => s.onBye p
  | _ => s

/-- Packets of channels to this device itself are delivered in the order they were sent. -/
def State.runLoop (s : State) : Nat → State
  | 0 => s
  | fuel + 1 =>
    match s.fab.loop with
    | [] => s
    | p :: ps => ((s.mapFab fun f => { f with loop := ps }).onPacket 0 none p).runLoop fuel

/-- A fabric command's effect, then what it set moving inside the package. -/
def State.fabDone (s : State) : Host.Outcome State Fault Refusal := .next (s.runLoop 4096)

end Sys2Proof.Machine
end

