-- ==== Sys2Proof/Machine/FabricEvents.lean ====
section
/-!
DEFINITION. Commands of the Poldoal fabric: received frames (R320 to R325), timers, probes, sub-ports and
flow control (R321, R350 to R352), and the scatter-add engine's work for the fabric (R273).
-/
namespace Sys2Proof.Machine

/-! ### Received frames -/

/-- The sub-port exists in its port's mode (R318). -/
def State.subPresent (s : State) (k : Nat) : Bool := decide ((s.sub k).st ≠ .absent)

/-- An IPv6 address of this device: of a sub-port that exists (R325). -/
def State.ownIp6 (s : State) (a : BitVec 128) : Bool :=
  (List.range 64).any fun k => s.subPresent k && s.subIp6 s.fab.devId.val k == a

/-- An IPv4 address of this device. -/
def State.ownIp4 (s : State) (a : BitVec 128) : Bool :=
  (List.range 64).any fun k => s.subPresent k && (s.sub k).ip4 != 0 && a == (s.sub k).ip4.setWidth 128

/-- The management VLAN, where it is on (R468). -/
def State.mgmtVlan (s : State) : Option Nat := if s.mgmt.vid.val = 0xFFFF then none else some s.mgmt.vid.val.toNat

/-- The frame's tags are those its sub-port takes (R320). -/
def State.tagOk (s : State) (f : Frame) : Bool :=
  let v := (s.sub f.sub.val).vid
  !f.stag &&
  (match f.vid with
   | none => v == 0xFFFF
   | some x => v != 0xFFFF && (x.toNat == v.toNat || s.mgmtVlan == some x.toNat))

/-- The sub-port receives: its link is up and it is neither absent nor fenced. -/
def State.receives (s : State) (k : Nat) : Bool :=
  let x := s.sub k
  (decide (x.st = .up) || decide (x.st = .down)) && x.link

/-- An address of sub-port k: its IPv6 address of R325, or its IPv4 address. -/
def State.subOwns (s : State) (k : Nat) (a : BitVec 128) : Bool :=
  a == s.subIp6 s.fab.devId.val k || decide ((s.sub k).ip4 ≠ 0 ∧ a = mapped4 (s.sub k).ip4)

/-- A frame arrives: its bytes are counted, and it is dropped where R320 says so. -/
def State.frameIn (s : State) (f : Frame) : State × Bool :=
  let k := f.sub.val
  if !s.receives k then (s, false)
  else
    let s1 := s.mapSub k fun x => { x with rxBytes := x.rxBytes + w64 f.len }
    if !f.fcsOk then ((s1.mapSub k fun x => { x with fcsErr := x.fcsErr + 1 }).rxDrop k, false)
    else if 9216 < f.len ∨ s1.tagOk f = false then (s1.rxDrop k, false)
    else (s1, true)

/-- CE of an IP packet is counted. -/
def State.countCe (s : State) (f : Frame) : State :=
  if f.ce then s.mapSub f.sub.val fun x => { x with ceRx := x.ceRx + 1 } else s

/-- A packet type that is reserved: such a packet is discarded and counted (R346). -/
def reservedType (ptype : BitVec 4) : Bool := decide (ptype = 0 ∨ 8 < ptype.toNat)

/-- A Poldoal packet arrives; false where R323, R325 or R346 discards it. -/
def State.poldoalIn (s : State) (f : Frame) (p : Packet) : State × Bool :=
  let k := f.sub.val
  let r := s.frameIn f
  if !r.2 || f.fragOrExt then (r.1, false)
  else
    let s1 := r.1.countCe f
    let iid := (f.srcIp.setWidth 64).toNat
    if s1.ownIp6 f.dstIp = false ∨ f.srcIp.extractLsb' 64 64 ≠ s1.fab.pfx.val ∨ iid / 65536 ≠ p.src.toNat then (s1.rxDrop k, false)
    else if !f.crcOk then (s1.rxDropRec k 0, false)
    else if p.ver ≠ 1 ∨ reservedType p.ptype then (s1.rxDrop k, false)
    else (s1, true)

/-- Sub-port number of the sender, as its address names it. -/
def Frame.fromSub (f : Frame) : Option Nat :=
  let iid := (f.srcIp.setWidth 64).toNat
  if iid / 256 % 256 < 8 ∧ iid % 256 < 8 then some (iid / 256 % 256 * 8 + iid % 256) else none

/-- A packet of the peer: its silence counts anew (R352). -/
def State.hears (s : State) (peer : BitVec 14) : State := s.setPeer peer { s.peerOf peer with heard := s.time }

/-- A packet of one type arrives and has its effect; one of a reserved type is discarded whatever command brings it. -/
def State.packetIn (s : State) (f : Frame) (p : Packet) (ptype : BitVec 4) (g : State → State) :
    Host.Outcome State Fault Refusal :=
  if (p.ptype = ptype ∨ reservedType p.ptype) ∧ s.fabricOn then
    let r := s.poldoalIn f p
    if r.2 then (g ((r.1.hears p.src).echoCe f.ce p)).fabDone else .next r.1
  else .next s

/-- R347. -/
def execReqReceive (f : Frame) (p : Packet) (s : State) : Host.Outcome State Fault Refusal :=
  s.packetIn f p 1 fun t => t.onReq f.sub.val p

/-- R348. -/
def execAckReceive (f : Frame) (p : Packet) (s : State) : Host.Outcome State Fault Refusal :=
  s.packetIn f p 3 fun t => t.onAck false (Frame.fromSub f) p

/-- R348. -/
def execNackReceive (f : Frame) (p : Packet) (s : State) : Host.Outcome State Fault Refusal :=
  s.packetIn f p 4 fun t => t.onAck true (Frame.fromSub f) p

/-- R347. -/
def execRespReceive (f : Frame) (p : Packet) (s : State) : Host.Outcome State Fault Refusal :=
  s.packetIn f p 2 fun t => t.onResp p

/-- R344. -/
def execHelloReceive (f : Frame) (p : Packet) (s : State) : Host.Outcome State Fault Refusal :=
  s.packetIn f p 7 fun t => t.onHello p

/-- R352. -/
def execByeReceive (f : Frame) (p : Packet) (s : State) : Host.Outcome State Fault Refusal :=
  s.packetIn f p 8 fun t => t.onBye p

/-! ### Sending and timers -/

/-- R349: the next REQ of the channel; the command tells which transmit queues are full (R350). -/
def execPacketSend (ch : Fin 4096) (full : BitVec 64) (s : State) : Host.Outcome State Fault Refusal :=
  let k := s.chan ch.val
  if s.fabricOn ∧ (k.st = .opened ∨ k.st = .draining) then
    ((s.mapFab fun f => { f with full := full }).sendReq ch.val).fabDone
  else .next s

/-- R348: an acknowledgement is owed. What waited for scatter-add engines is applied first. -/
def execAckTimer (ch : Fin 4096) (s : State) : Host.Outcome State Fault Refusal :=
  let k := s.chan ch.val
  if s.fabricOn ∧ (k.st = .opened ∨ k.st = .draining) then
    let s1 := s.applyHeld ch.val 600
    if (s1.chan ch.val).sinceAck = 0 ∧ (s1.chan ch.val).expect = k.expect then .next s1
    else (s1.sendAck ch.val false).fabDone
  else .next s

/-- R348: rto_us × 2^r has passed without acknowledgement. -/
def execRetransmitTimeout (ch : Fin 4096) (psn : BitVec 32) (s : State) : Host.Outcome State Fault Refusal :=
  match (s.chan ch.val).sent.find? fun e => e.psn == psn with
  | none => .next s
  | some e =>
    if s.fabricOn ∧ e.sacked = false ∧ e.sentAt + 100 * s.fab.rtoUs.toNat * 2 ^ min e.retries 3 ≤ s.time then
      (s.resendOne ch.val psn).fabDone
    else .next s

/-- R344: every 1 ms while OPENING. -/
def execHelloTimer (ch : Fin 4096) (s : State) : Host.Outcome State Fault Refusal :=
  if s.fabricOn ∧ (s.chan ch.val).st = .opening then (s.sendHello ch.val).fabDone else .next s

/-- R344: a DRAINING channel without outstanding operations. -/
def execChannelDrained (ch : Fin 4096) (s : State) : Host.Outcome State Fault Refusal :=
  let k := s.chan ch.val
  if s.fabricOn ∧ k.st = .draining ∧ k.ops = [] then
    let s1 := s.sendPacket (packetOf s 8 ch k)
    (s1.endChannel ch.val 2 .closed).1.fabDone
  else .next s

/-- Packets to the peer are unacknowledged. -/
def State.owed (s : State) (peer : BitVec 14) : Bool := 0 < s.inFlightTo peer

/-- peer_timeout in ticks of 10 ns. -/
def State.peerTicks (s : State) : Nat := 100000 * s.fab.peerTimeout.toNat

/-- The peer has been silent for peer_timeout while packets to it were unacknowledged. -/
def State.silent (s : State) (peer : BitVec 14) : Bool :=
  s.owed peer && decide ((s.peerOf peer).heard + s.peerTicks ≤ s.time)

/-- No sub-port has been UP for peer_timeout. -/
def State.allDown (s : State) : Bool :=
  match s.fab.noUpSince with
  | none => false
  | some t => decide (t + s.peerTicks ≤ s.time)

/-- R352: peer_timeout has passed without a packet of a peer that owes acknowledgements, or without a sub-port UP. -/
def execPeerTimeout (peer : BitVec 14) (s : State) : Host.Outcome State Fault Refusal :=
  if s.fabricOn ∧ peer ≠ s.fab.devId.val ∧ (s.silent peer ∨ s.allDown) then .next (s.depart peer) else .next s

/-! ### Probes (R350 to R352) -/

/-- A packet of no channel. -/
def State.plainPacket (s : State) (ptype : BitVec 4) (peer : BitVec 14) : Packet :=
  { packetOf s ptype 0 chanReset with dst := peer }

/-- The peer's sub-port that a PROBE of sub-port k went to has not answered: it is no longer taken as healthy (R350; log entry
122). -/
def State.lostPeerSub (s : State) (peer : BitVec 14) (k : Fin 64) : State :=
  let x := s.peerOf peer
  s.setPeer peer { x with healthy := x.healthy &&& ~~~((1 : BitVec 64) <<< (peerTarget x.healthy k).val) }

/-- A PROBE goes out on sub-port k; one that was not answered ends the run of answers. -/
def State.probeOn (s : State) (peer : BitVec 14) (k : Fin 64) : State :=
  let s0 := if (s.sub k.val).probeOut then s.lostPeerSub peer k else s
  let s1 := s0.mapSub k.val fun x =>
    { x with probesOk := if x.probeOut then 0 else x.probesOk, probeOut := true }
  s1.xmit k (s1.plainPacket 5 peer)

/-- PROBEs to the peer are due: peer_timeout ÷ 8 has passed since the last. -/
def State.probeDue (s : State) (peer : BitVec 14) : Bool :=
  match (s.peerOf peer).probedAt with
  | none => true
  | some t => decide (8 * t + s.peerTicks ≤ 8 * s.time)

/-- R352, R351: PROBEs on every UP sub-port while packets are unacknowledged, and on every DOWN one with a link. -/
def execProbeTimer (peer : BitVec 14) (s : State) : Host.Outcome State Fault Refusal :=
  if s.fabricOn ∧ peer ≠ s.fab.devId.val then
    let due := s.owed peer && s.probeDue peer
    let wanted := fun (t : State) (k : Fin 64) =>
      let x := t.sub k.val
      x.link && x.mac != 0 && (decide (x.st = .down) || (decide (x.st = .up) && due))
    let s1 := if due then s.setPeer peer { s.peerOf peer with probedAt := some s.time } else s
    .next ((List.finRange 64).foldl (fun t k => if wanted t k then t.probeOn peer k else t) s1)
  else .next s

/-- A PROBE is answered on the sub-port it arrived on. -/
def execProbeReceive (f : Frame) (p : Packet) (s : State) : Host.Outcome State Fault Refusal :=
  s.packetIn f p 5 fun t => if (t.sub f.sub.val).mac = 0 then t else t.xmit f.sub (t.plainPacket 6 p.src)

/-- R350, R351: an answered PROBE; the eighth in a row brings a DOWN sub-port UP. -/
def execProbeReplyReceive (f : Frame) (p : Packet) (s : State) : Host.Outcome State Fault Refusal :=
  s.packetIn f p 6 fun t =>
    let k := f.sub.val
    let x := t.sub k
    let n := x.probesOk + 1
    let s1 := t.sawPeerSub p.src (Frame.fromSub f)
    if x.st = .down ∧ x.probeOut ∧ 8 ≤ n then
      (s1.mapSub k fun y => { y with st := .up, probesOk := 0, probeOut := false }).noteUp.log 1 0x0C02 (subSource k) 0 0 0
    else s1.mapSub k fun y => { y with probesOk := if y.probeOut then n else y.probesOk, probeOut := false }

/-! ### Sub-ports -/

/-- PORT_DOWN's cause (R359). -/
def downCause : DownReason → Nat
  | .link => 0
  | .fec _ => 1
  | .probes => 2

/-- What is known of a sub-port when it may go DOWN: the link is lost, or codewords are counted. -/
def SubPort.noted (x : SubPort) : DownReason → SubPort
  | .link => { x with link := false }
  | .fec n => { x with fecUncorr := x.fecUncorr + n.setWidth 64 }
  | .probes => x

/-- A reason that takes the sub-port DOWN: more codewords in the second than fec_thr of its port, or a PROBE that is not
answered (R351, R368). -/
def State.goesDown (s : State) (k : Nat) : DownReason → Bool
  | .link => true
  | .fec n => decide ((vget s.fab.ports (k / 8) ⟨0xFF, 0, 0x100⟩).fecThr.toNat < n.toNat)
  | .probes => (s.sub k).probeOut

/-- R351: the link is lost, uncorrectable codewords were counted in one second, or PROBEs stay unanswered. -/
def execSubportDown (sub : Fin 64) (why : DownReason) (s : State) : Host.Outcome State Fault Refusal :=
  let k := sub.val
  let x := s.sub k
  let s1 := s.mapSub k fun y => y.noted why
  if x.st = .absent then .next s
  else if s.goesDown k why = false then .next s1
  else if x.st = .up then
    let r := s1.leaveUp k .down
    (r.1.log 3 0x0C01 (subSource k) (w32 (downCause why)) (w32 r.2) 0).fabDone
  else .next (s1.mapSub k fun y => { y with probesOk := 0, probeOut := false })

/-- R351: the link is up; probing can follow. -/
def execSubportLinkUp (sub : Fin 64) (s : State) : Host.Outcome State Fault Refusal :=
  if (s.sub sub.val).st = .absent ∨ (vget s.pow.domains (84 + sub.val / 8) ⟨.off, false, false, 0, 0⟩).phase ≠ .on then .next s
  else .next (s.mapSub sub.val fun x => { x with link := true, probesOk := 0, probeOut := false })

/-! ### Flow control (R321) -/

/-- Bit i of a priority set. -/
def setPrio (m : BitVec 8) (i : Nat) (b : Bool) : BitVec 8 :=
  if b then m ||| BitVec.ofNat 8 (2 ^ i) else m &&& ~~~(BitVec.ofNat 8 (2 ^ i))

/-- Received packets held that are charged to port p. -/
def State.heldOn (s : State) (p : Nat) : Nat :=
  (s.fab.chans.map fun e => (e.2.held.filter fun h => h.unit.1.val == p).length).sum

/-- Units of the shared part that are free. -/
def State.sharedFree (s : State) : Nat := sharedUnits - s.sharedUsed

/-- R321: a PFC frame pauses its enabled priorities, or ends their pause. -/
def execPfcFrameReceive (f : Frame) (enable : BitVec 8) (times : Vector (BitVec 16) 8) (s : State) :
    Host.Outcome State Fault Refusal :=
  let k := f.sub.val
  if !s.receives k then .next s
  else
    let s1 := s.mapSub k fun x => { x with rxBytes := x.rxBytes + w64 f.len }
    if !f.fcsOk then .next ((s1.mapSub k fun x => { x with fcsErr := x.fcsErr + 1 }).rxDrop k)
    else
      .next ((s1.mapSub k fun x =>
        { x with pfcRx := x.pfcRx + 1
                 paused := (List.range 8).foldl (fun m i =>
                   if enable.getLsbD i && x.pfcEn.getLsbD i then
                     setPrio m i (vget times i 0 != 0)
                   else m) x.paused }).releaseWaiting)

/-- The pause time of a priority has passed: what waited for it is started. -/
def execPfcPauseTimeEnd (sub : Fin 64) (prio : Fin 8) (s : State) : Host.Outcome State Fault Refusal :=
  .next (s.mapSub sub.val fun x => { x with paused := setPrio x.paused prio.val false }).releaseWaiting

/-- A PFC frame leaves. -/
def State.sendPfc (s : State) (sub : Fin 64) (prio : Fin 8) (xoff : Bool) : State :=
  (s.mapSub sub.val fun x =>
    { x with pfcTx := x.pfcTx + 1, txBytes := x.txBytes + 64
             xoff := setPrio x.xoff prio.val xoff }).send (.pfc sub prio xoff)

/-- Both conditions of an XOFF hold: the port is above its reserve and less than 4 MiB of the shared part is free. -/
def State.needsXoff (s : State) (sub : Fin 64) : Bool := decide (256 < s.heldOn (sub.val / 8) ∧ s.sharedFree < 1024)

/-- R321. -/
def execPfcXoffSend (sub : Fin 64) (prio : Fin 8) (s : State) : Host.Outcome State Fault Refusal :=
  let x := s.sub sub.val
  if s.subSends sub.val ∧ x.pfcEn.getLsbD prio.val ∧ x.xoff.getLsbD prio.val = false ∧ s.needsXoff sub then
    .next (s.sendPfc sub prio true)
  else .next s

/-- R321: either condition has ended and 8 MiB of the shared part is free. -/
def execPfcXonSend (sub : Fin 64) (prio : Fin 8) (s : State) : Host.Outcome State Fault Refusal :=
  let x := s.sub sub.val
  if s.subSends sub.val ∧ x.xoff.getLsbD prio.val ∧ s.needsXoff sub = false ∧ 2048 ≤ s.sharedFree then
    .next (s.sendPfc sub prio false)
  else .next s

/-- R319: a PAUSE frame is discarded and counted; with a bad FCS it is a bad frame too (R320). -/
def execPauseFrameReceive (f : Frame) (s : State) : Host.Outcome State Fault Refusal :=
  if s.receives f.sub.val then
    .next ((s.mapSub f.sub.val fun x =>
      { x with rxBytes := x.rxBytes + w64 f.len, fcsErr := if f.fcsOk then x.fcsErr else x.fcsErr + 1 }).rxDrop f.sub.val)
  else .next s

/-- Headers of an answer to a neighbour or echo request: an ARP answer goes to who asked, an IP packet to nh_mac (R320). -/
def State.answerHead (s : State) (f : Frame) (kind : NeighborKind) : TxHead :=
  let pcp := Config.answerPrio
  match kind with
  | .arp => s.txHead f.sub pcp f.srcMac none
  | _ => s.txHead f.sub pcp (s.sub f.sub.val).nhMac (some (ip6Head (s.subIp6 s.fab.devId.val f.sub.val) f.srcIp pcp 0))

/-- R320: requests for the device's own addresses are answered on the sub-port they arrived on. -/
def execNeighborEchoReceive (f : Frame) (kind : NeighborKind) (target : BitVec 128) (s : State) :
    Host.Outcome State Fault Refusal :=
  let k := f.sub.val
  let r := s.frameIn f
  if r.2 ∧ (kind = .arp ∨ f.fragOrExt = false) then
    let own : Bool := match kind with
      | .arp => r.1.ownIp4 target
      | _ => r.1.ownIp6 target
    if own ∧ (r.1.sub k).mac ≠ 0 then
      let h := r.1.answerHead f kind
      .next (r.1.transmit ⟨f.sub, h.pcp, none, .neighbor f.sub h kind target⟩)
    else .next r.1
  else .next r.1

/-! ### Scatter-add for the fabric (R273) -/

/-- No earlier packet of the job's channel has additions on another stack (R336). -/
def State.jobFirst (s : State) (j : SaJob) : Bool :=
  s.stks.toList.all fun k => k.saQueue.all fun x =>
    x.chan != j.chan || !(precedes x.psn j.psn || (x.psn == j.psn && decide (x.target < j.target)))

/-- The elements of a job. -/
def SaJob.elems (j : SaJob) : List SaElem :=
  ((saElems j.fmt j.bytes fun i => j.pmap.getLsbD (i / 32)).drop j.lo).take j.cnt

/-- R271 to R273: one segment or run is added; what waited for it on its channel is then applied. -/
def execScatterAddSegment (st : StackId) (s : State) : Host.Outcome State Fault Refusal :=
  if s.stackServes st then
    match (s.stack st).saQueue with
    | [] => .next s
    | j :: js =>
      if s.jobFirst j then
        let s1 := (s.mapStack st fun k => { k with saQueue := js }).saAddAll st j.target j.elems
        (s1.applyHeld j.chan 600).fabDone
      else .next s
  else .next s

end Sys2Proof.Machine
end

