-- ==== Sys2Proof/Machine/Roce.lean ====
section
/-!
DEFINITION. RoCEv2 reliable connections (R354 to R357): queue pair commands, the responder, and the
requester's answers, timers and rate. What the spec takes from the InfiniBand specification by name is log
entry 35.
-/
namespace Sys2Proof.Machine

/-! ### Queue pair commands (R356) -/

/-- Address of a queue pair's context. -/
def State.contextAddr (s : State) (qn : Nat) : Nat := s.fab.qpTab.toNat + 64 * qn

/-- A context, with the fields of its table. -/
def parseContext (bs : List Byte) (old : QueuePair) : QueuePair :=
  let cfg := w32 (fieldNat bs 12 4)
  { old with
    st := .rts, rqpn := BitVec.ofNat 24 (fieldNat bs 0 3), spsn := BitVec.ofNat 24 (fieldNat bs 4 3)
    rpsn := BitVec.ofNat 24 (fieldNat bs 8 3), cfg := cfg, rip := BitVec.ofNat 128 (fieldNat bs 16 16)
    rmac := BitVec.ofNat 48 (fieldNat bs 32 6), port := BitVec.ofNat 8 (fieldNat bs 38 1)
    rqBase := w64 (fieldNat bs 40 8), rqSize := BitVec.ofNat 16 (fieldNat bs 48 2)
    rqIrq := BitVec.ofNat 16 (fieldNat bs 50 2), rqTail := BitVec.ofNat 16 (fieldNat bs 54 2)
    rqHead := BitVec.ofNat 16 (fieldNat bs 54 2), rate := 1000, retriesLeft := (cfg.extractLsb' 4 3).toNat
    rnrLeft := (cfg.extractLsb' 7 3).toNat, rnrWait := false, cnpAt := none, rateAt := none, atomics := [], ops := []
    una := BitVec.ofNat 24 (fieldNat bs 4 3), rx := none }

def powerOfTwo (n : Nat) : Bool := (List.range 13).any fun i => n == 2 ^ i

/-- A context the hub loads: reserved bits zero, a known MTU, a receive ring where R356 allows one. -/
def State.contextOk (s : State) (bs : List Byte) : Bool :=
  let mtu := fieldNat bs 12 4 % 8
  let base := fieldNat bs 40 8
  let size := fieldNat bs 48 2
  (3 ≤ mtu && mtu ≤ 5) && fieldNat bs 12 4 / 2 ^ 18 == 0 && fieldNat bs 56 8 == 0 &&
  (size == 0 || (powerOfTwo size && base % 4096 == 0 && (s.stacksOf base (4096 * size)).isSome))

/-- A drain or restore over queue pair qn ends with TRANSPORT when the connection does (R303, R357). -/
def State.jobLosesQp (s : State) (qn : Nat) : State :=
  match s.train.job with
  | none => s
  | some j =>
    let tgt := if j.evalPhase then s.train.eval else s.train.ckpt
    if tgt.qp.toNat % 1024 = qn then s.jobLost j else s

/-- Result of an operation that ends before its last packet: the bytes of its acknowledged or answered packets (R331). -/
def QueuePair.partDone (q : QueuePair) (o : PostOp) : Word :=
  if o.desc.op = 0x13 ∨ o.desc.op = 0x14 then o.result else w64 (min o.desc.len (q.acked o * q.mtu))

/-- Operations of a queue pair end, the one in progress with a status, the later ones FLUSHED (R357). -/
def State.endQp (s : State) (qn : Nat) (status : Byte) : State :=
  let q := s.qp qn
  let ops := q.ops.foldl (fun (r : List PostOp × Bool) o =>
    match o.ended with
    | some _ => (r.1 ++ [o], r.2)
    | none => (r.1 ++ [{ o with ended := some (if r.2 then 11 else status, q.partDone o) }], true)) ([], false)
  ((s.setQp qn { q with ops := ops.1 }).flushQp qn).jobLosesQp qn

/-- A write of qp_cmd; none is RANGE. The context lies in data space, hub buffers included (R21, R356). -/
def State.qpCmd (s : State) (v : Word) : Option State :=
  let qn := v.toNat % 1024
  let a := s.contextAddr qn
  match v.toNat / 1024 with
  | 1 =>
    if (s.firstUnmapped a 64).isSome then none
    else
      let s1 := s.settle a 64 0
      let bs := s1.homeBytes a 64
      if (s1.firstPoison a 64).isSome ∨ s1.contextOk bs = false then none
      else
        let s2 := s1.endQp qn 11
        some (s2.setQp qn (parseContext bs (s2.qp qn)))
  | 2 => some ((s.endQp qn 11).setQp qn qpReset)
  | 3 =>
    if (s.firstUnmapped a 64).isSome then none
    else
      let q := s.qp qn
      let st : Nat := match q.st with | .reset => 0 | .rts => 1 | .error => 2
      let s1 := s.settle a 64 0
      let head := BitVec.ofNat 16 (leNat (s1.homeBytes (a + 54) 2))
      some (((s1.setQp qn { q with rqHead := head }).writeHome (a + 39) (leBytes 1 st)).writeHome (a + 52)
        (leBytes 2 q.rqTail.toNat))
  | _ => none

/-! ### Errors and rates -/

/-- Syndrome of a NAK as the InfiniBand specification codes it. -/
def nakSyndrome : RoceAnswer → Nat
  | .ack _ _ => 0
  | .nakSequence => 0x60
  | .nakInvalid => 0x61
  | .nakAccess => 0x62
  | .nakOperational => 0x63
  | .rnr => 0x20

/-- R357: the queue pair enters error. -/
def State.qpError (s : State) (qn : Nat) (status : Byte) (syndrome : Nat) : State :=
  let s1 := (s.endQp qn status).log 3 0x0C08 (qpSource qn) (w32 qn) (w32 syndrome) (w32 status.toNat)
  s1.setQp qn { s1.qp qn with st := .error, rnrWait := false }

/-- A packet with CE is answered with a CNP, at most one per queue pair in 50 µs (R322, R354). -/
def State.answerCe (s : State) (f : Frame) (qn : Nat) : State :=
  let q := s.qp qn
  let due : Bool := match q.cnpAt with | none => true | some t => decide (t + 5000 ≤ s.time)
  if f.ce ∧ due ∧ s.subSends f.sub.val then
    (s.setQp qn { q with cnpAt := some s.time }).roceOut q f.sub (cnpItem f.sub q.rqpn)
  else s

/-- A RoCEv2 packet arrives; false where it is discarded. -/
def State.roceIn (s : State) (f : Frame) (qn : Nat) : State × Bool :=
  let r := s.frameIn f
  if !r.2 || f.fragOrExt || !f.crcOk then (r.1, false)
  else ((r.1.countCe f).answerCe f qn, decide ((r.1.qp qn).st = .rts))

/-! ### Responder (R355) -/

/-- An answer leaves on the arrival sub-port. -/
def State.roceReply (s : State) (f : Frame) (q : RoceReq) (a : RoceAnswer) : State :=
  let x := s.qp q.qp.val
  s.roceOut x f.sub (answerItem f.sub x.rqpn q.psn a)

/-- The data of a READ leaves in packets of the path MTU, numbered on from the request (R354). -/
def State.roceData (s : State) (f : Frame) (q : RoceReq) (bs : List Byte) : State :=
  let m := (s.qp q.qp.val).mtu
  (List.range (max 1 ((bs.length + m - 1) / m))).foldl (fun t i =>
    t.roceReply f { q with psn := q.psn + BitVec.ofNat 24 i } (.ack ((bs.drop (i * m)).take m) 0)) s

/-- A NAK after which the connection is in error. -/
def State.roceRefuse (s : State) (f : Frame) (q : RoceReq) (a : RoceAnswer) (status : Byte) : State :=
  (s.roceReply f q a).qpError q.qp.val status (nakSyndrome a)

/-- n numbers of a request are served: the expected number moves on. -/
def State.roceTaken (s : State) (q : RoceReq) (n : Nat) : State :=
  s.setQp q.qp.val { s.qp q.qp.val with rpsn := q.psn + BitVec.ofNat 24 n }

/-- The request packet is served and answered. -/
def State.roceServed (s : State) (f : Frame) (q : RoceReq) (a : RoceAnswer) : State := (s.roceTaken q 1).roceReply f q a

/-- R_Key check of R355, with the checks of R341. -/
def State.rkeyStatus (s : State) (q : RoceReq) (needs : List Nat) (n : Nat) : Byte :=
  let e := s.fabricEntry (q.rkey.toNat % 16384)
  s.entryStatus e (e.ctl.val.getLsbD 1 && decide (q.rkey.toNat / 16384 = e.token.toNat / 16384 % 2 ^ 18)) needs q.va.toNat n

/-- R_Key refused: counted, a Remote Access Error NAK. -/
def State.rkeyRefuse (s : State) (f : Frame) (q : RoceReq) : State :=
  (s.mapFab fun x => { x with denied := x.denied + 1 }).roceRefuse f q .nakAccess 10

/-- A packet of a SEND or WRITE is as long as its place in the message asks (R354). -/
def QueuePair.sizeOk (x : QueuePair) (q : RoceReq) (left : Nat) : Bool :=
  let n := q.payload.length
  if q.last then decide (n ≤ x.mtu ∧ n ≤ left) else decide (n = x.mtu ∧ n < left)

/-- A packet's bytes go where its message stands; what follows its last packet is done by `whole`. -/
def State.roceBytes (s : State) (f : Frame) (q : RoceReq) (x : RoceRx) (whole : State → State) : State :=
  let n := q.payload.length
  let s1 := s.writeHome x.next q.payload
  let y := s1.qp q.qp.val
  let s2 := s1.setQp q.qp.val { y with rx := if q.last then none else some { x with next := x.next + n, left := x.left - n } }
  (if q.last then whole s2 else s2).roceServed f q (.ack [] 0)

/-- A packet of a SEND or WRITE that goes on with the message the queue pair is receiving; none: it does not. -/
def QueuePair.goesOn (x : QueuePair) (q : RoceReq) : Option RoceRx :=
  match x.rx with
  | none => none
  | some r => if decide (r.op = q.op) && !q.first && x.sizeOk q r.left then some r else none

/-- The slot that a SEND fills counts when its last packet is there (R355). -/
def State.sendDone (s : State) (qn : Nat) : State :=
  let x := s.qp qn
  (s.setQp qn { x with rqTail := x.rqTail + 1 }).raise x.rqIrq

/-- A SEND fills the next slot of the receive ring (R355). -/
def State.roceSendIn (s : State) (f : Frame) (q : RoceReq) : State :=
  let x := s.qp q.qp.val
  if q.first then
    if x.rqSize = 0 ∨ x.rx.isSome ∨ x.sizeOk q 4096 = false then s.roceRefuse f q .nakInvalid 9
    else if x.rqSize.toNat ≤ (x.rqTail - x.rqHead).toNat then s.roceReply f q .rnr
    else
      let a := x.rqBase.toNat + 4096 * (x.rqTail.toNat % x.rqSize.toNat)
      s.roceBytes f q ⟨.send, a, 4096⟩ fun t => t.sendDone q.qp.val
  else
    match x.goesOn q with
    | none => s.roceRefuse f q .nakInvalid 9
    | some r => s.roceBytes f q r fun t => t.sendDone q.qp.val

/-- A packet of a WRITE; its first names the range and its R_Key (R355). -/
def State.roceWriteIn (s : State) (f : Frame) (q : RoceReq) : State :=
  let x := s.qp q.qp.val
  if q.first then
    if x.rx.isSome ∨ x.sizeOk q q.len.toNat = false ∨ (q.last ∧ q.payload.length ≠ q.len.toNat) then s.roceRefuse f q .nakInvalid 9
    else if s.rkeyStatus q [permStore] q.len.toNat ≠ 0 then s.rkeyRefuse f q
    else s.roceBytes f q ⟨.write, q.va.toNat, q.len.toNat⟩ id
  else
    match x.goesOn q with
    | none => s.roceRefuse f q .nakInvalid 9
    | some r =>
      if q.last ∧ q.payload.length ≠ r.left then s.roceRefuse f q .nakInvalid 9
      else s.roceBytes f q r id

/-- A READ of the responder; poisoned data cannot be sent marked. -/
def State.roceReadIn (s : State) (f : Frame) (q : RoceReq) (fresh : Bool) : State :=
  let n := q.len.toNat
  let s1 := s.settle q.va.toNat n 0
  if (s1.firstPoison q.va.toNat n).isSome then s1.roceRefuse f q .nakOperational 9
  else
    let s2 := if fresh then s1.roceTaken q (roceSpan (s1.qp q.qp.val) 0x12 n) else s1
    s2.roceData f q (s1.homeBytes q.va.toNat n)

/-- An atomic of the responder, its result kept for a repeated request. -/
def State.roceAtomicIn (s : State) (f : Frame) (q : RoceReq) (op : Byte) : State :=
  let r := s.atomicAt op q.va.toNat q.opd1 q.opd2
  if r.2.1 ≠ 0 then r.1.roceRefuse f q .nakOperational 9
  else
    let x := r.1.qp q.qp.val
    (r.1.setQp q.qp.val { x with atomics := ((q.psn, r.2.2) :: x.atomics).take 16 }).roceServed f q (.ack [] r.2.2)

/-- The expected request (R354, R355). -/
def State.roceServe (s : State) (f : Frame) (q : RoceReq) : State :=
  match q.op with
  | .unsupported => s.roceRefuse f q .nakInvalid 9
  | .send => s.roceSendIn f q
  | .write => s.roceWriteIn f q
  | .read =>
    if s.rkeyStatus q [permLoad] q.len.toNat ≠ 0 then s.rkeyRefuse f q
    else s.roceReadIn f q true
  | .fetchAdd =>
    if q.va.toNat % 8 ≠ 0 then s.roceRefuse f q .nakInvalid 9
    else if s.rkeyStatus q [permLoad, permStore] 8 ≠ 0 then s.rkeyRefuse f q
    else s.roceAtomicIn f q opAdd
  | .cmpSwap =>
    if q.va.toNat % 8 ≠ 0 then s.roceRefuse f q .nakInvalid 9
    else if s.rkeyStatus q [permLoad, permStore] 8 ≠ 0 then s.rkeyRefuse f q
    else s.roceAtomicIn f q opCas

/-- A request that was served before is answered again and not applied again. -/
def State.roceRepeat (s : State) (f : Frame) (q : RoceReq) : State :=
  match q.op with
  | .read =>
    if s.rkeyStatus q [permLoad] q.len.toNat ≠ 0 then s.rkeyRefuse f q
    else s.roceReadIn f q false
  | .fetchAdd | .cmpSwap =>
    match (s.qp q.qp.val).atomics.find? fun e => e.1 == q.psn with
    | none => s
    | some e => s.roceReply f q (.ack [] e.2)
  | _ => s.roceReply f q (.ack [] 0)

/-- R354, R355: a request for one of this device's queue pairs. -/
def execRoceRequestReceive (f : Frame) (q : RoceReq) (s : State) : Host.Outcome State Fault Refusal :=
  if s.fabricOn then
    let r := s.roceIn f q.qp.val
    if r.2 then
      let d := (q.psn - (r.1.qp q.qp.val).rpsn).toNat
      let s1 := (r.1.readEntry (q.rkey.toNat % 16384)).1
      if d = 0 then .next (s1.roceServe f q)
      else if d < 2 ^ 23 then .next (r.1.roceReply f q .nakSequence)
      else .next (s1.roceRepeat f q)
    else .next r.1
  else .next s

/-! ### Requester (R357) -/

/-- The operation's numbers take in psn. -/
def QueuePair.covers (q : QueuePair) (o : PostOp) (psn : BitVec 24) : Bool :=
  decide ((psn - o.base.setWidth 24).toNat < roceSpan q o.desc.op o.desc.len)

/-- Place of psn among an operation's packets. -/
def PostOp.place (o : PostOp) (psn : BitVec 24) : Nat := (psn - o.base.setWidth 24).toNat

/-- psn is the operation's last number. -/
def QueuePair.lastOf (q : QueuePair) (o : PostOp) (psn : BitVec 24) : Bool :=
  decide (o.place psn + 1 = roceSpan q o.desc.op o.desc.len)

/-- Every packet not acknowledged is sent again, in order (go-back-N). -/
def State.goBack (s : State) (qn : Nat) : State :=
  ((s.qp qn).ops.filter fun o => o.ended.isNone).foldl (fun t o => t.roceSend qn o) s

/-- A retry is used up; without one left the queue pair enters error (R354, R357). -/
def State.useRetry (s : State) (qn : Nat) (syndrome : Nat) : State :=
  let q := s.qp qn
  if q.retriesLeft = 0 then s.qpError qn 9 syndrome
  else (s.setQp qn { q with retriesLeft := q.retriesLeft - 1 }).goBack qn

/-- Needs data or a value in its answer. -/
def needsAnswer (op : Byte) : Bool := 0x12 ≤ op.toNat

/-- Operations before the one that psn belongs to are acknowledged with it; false: one of them needed an answer of
its own that did not come. -/
def ackBefore : List PostOp → List PostOp × Bool
  | [] => ([], true)
  | o :: os =>
    let r := ackBefore os
    match o.ended with
    | some _ => (o :: r.1, r.2)
    | none =>
      if needsAnswer o.desc.op then (o :: r.1, false)
      else ({ o with ended := some (0, w64 o.desc.len) } :: r.1, r.2)

/-- The number after psn is the first not acknowledged, where psn was not yet. -/
def QueuePair.ackedTo (q : QueuePair) (psn : BitVec 24) : BitVec 24 :=
  if (psn + 1 - q.una).toNat < 2 ^ 23 then psn + 1 else q.una

/-- The operation once its packet psn is answered: a READ keeps the packet's data until its completion; the last number ends
it. -/
def QueuePair.answered (q : QueuePair) (o : PostOp) (psn : BitVec 24) (data : List Byte) (old : Word) : PostOp :=
  let o1 := if o.desc.op = 0x12 then { o with got := o.got ++ [(o.place psn * q.mtu, data, 0)] } else o
  let res := if o.desc.op = 0x13 ∨ o.desc.op = 0x14 then old else w64 o.desc.len
  if q.lastOf o psn then { o1 with ended := some (0, res), result := res } else o1

/-- An acknowledgement up to psn, with the data or old value that the packet brings. A READ's packets come in order: one that
came before is ignored, one beyond a gap uses a retry. -/
def State.onRoceAck (s : State) (qn : Nat) (psn : BitVec 24) (data : List Byte) (old : Word) : State :=
  let q := s.qp qn
  match q.ops.findIdx? fun o => o.ended.isNone && q.covers o psn with
  | none => s
  | some i =>
    let before := ackBefore (q.ops.take i)
    let rest := q.ops.drop i
    let q1 := { q with ops := before.1 ++ rest, retriesLeft := (q.cfg.extractLsb' 4 3).toNat, sentAt := s.time
                       rnrLeft := (q.cfg.extractLsb' 7 3).toNat }
    let s0 := s.setQp qn q1
    if !before.2 then (s0.useRetry qn 0x60).flushQp qn
    else
      match rest with
      | [] => s0.flushQp qn
      | o :: os =>
        if o.desc.op = 0x12 ∧ o.place psn < o.got.length then s0.flushQp qn
        else if o.desc.op = 0x12 ∧ o.got.length < o.place psn then (s0.useRetry qn 0x60).flushQp qn
        else
          (s0.setQp qn { q1 with ops := before.1 ++ q.answered o psn data old :: os, una := q.ackedTo psn }).flushQp qn

/-- R354, R357: what the responder answered. -/
def execRoceResponseReceive (f : Frame) (qp : Fin 1024) (psn : BitVec 24) (a : RoceAnswer) (s : State) :
    Host.Outcome State Fault Refusal :=
  if s.fabricOn then
    let r := s.roceIn f qp.val
    if r.2 then
      let t := r.1
      let q := t.qp qp.val
      match a with
      | .ack data old => .next (t.onRoceAck qp.val psn data old)
      | .nakSequence => .next (t.useRetry qp.val 0x60)
      | .nakAccess => .next (t.qpError qp.val 10 (nakSyndrome a))
      | .nakInvalid => .next (t.qpError qp.val 9 (nakSyndrome a))
      | .nakOperational => .next (t.qpError qp.val 9 (nakSyndrome a))
      | .rnr =>
        if q.rnrLeft = 0 then .next (t.qpError qp.val 9 (nakSyndrome a))
        else .next (t.setQp qp.val { q with rnrWait := true, rnrLeft := if q.rnrLeft = 7 then 7 else q.rnrLeft - 1 })
    else .next r.1
  else .next s

/-- R354: a CNP halves the rate. -/
def execRoceCnpReceive (f : Frame) (qp : Fin 1024) (s : State) : Host.Outcome State Fault Refusal :=
  if s.fabricOn then
    let r := s.roceIn f qp.val
    if r.2 then
      .next (r.1.setQp qp.val { r.1.qp qp.val with rate := (r.1.qp qp.val).rate / 2, rateAt := some r.1.time })
    else .next r.1
  else .next s

/-- 55 µs have passed since the last CNP or the last recovery (R354). -/
def State.recoverDue (s : State) (q : QueuePair) : Bool :=
  match q.rateAt with
  | none => false
  | some t => decide (t + 5500 ≤ s.time)

/-- R354: 55 µs without another CNP. -/
def execCnpRateRecovery (qp : Fin 1024) (s : State) : Host.Outcome State Fault Refusal :=
  if (s.qp qp.val).st = .rts ∧ s.recoverDue (s.qp qp.val) then
    .next (s.setQp qp.val { s.qp qp.val with rate := min 1000 ((s.qp qp.val).rate + 50), rateAt := some s.time })
  else .next s

/-- The local ACK timeout of a queue pair, 4.096 µs × 2^t, has passed since it last sent or was acknowledged. -/
def State.ackTimedOut (s : State) (q : QueuePair) : Bool :=
  decide (10 * q.sentAt + 4096 * 2 ^ (q.cfg.extractLsb' 10 5).toNat ≤ 10 * s.time)

/-- R354: the local ACK timeout. -/
def execRoceRetryTimeout (qp : Fin 1024) (s : State) : Host.Outcome State Fault Refusal :=
  let q := s.qp qp.val
  if s.fabricOn ∧ q.st = .rts ∧ q.rnrWait = false ∧ q.ops.any (fun o => o.ended.isNone) ∧ s.ackTimedOut q then
    .next (s.useRetry qp.val 0)
  else .next s

/-- R354: the RNR wait has passed. -/
def execRnrRetryTimer (qp : Fin 1024) (s : State) : Host.Outcome State Fault Refusal :=
  let q := s.qp qp.val
  if s.fabricOn ∧ q.st = .rts ∧ q.rnrWait then .next ((s.setQp qp.val { q with rnrWait := false }).goBack qp.val)
  else .next s

end Sys2Proof.Machine
end

