-- ==== Sys2Proof/Machine/Checkpoint.lean ====
section
/-!
DEFINITION. The drain engine: checkpoint records, their drain and their restore (R298 to R310), over the queue pair of
the target (R357).
-/
namespace Sys2Proof.Machine

/-! ### Checkpoint records (R306, R307) -/

/-- Bytes of header, section table and padding. -/
def recordHead (nsec : Nat) : Nat := (256 + 32 * nsec + 4095) / 4096 * 4096

/-- Bytes of a record. -/
def recordLength (es : List Extent) : Nat := recordHead es.length + (es.map fun e => e.len).sum

/-- Offsets of the sections in the record. -/
def sectionOffsets : Nat → List Extent → List Nat
  | _, [] => []
  | o, e :: es => o :: sectionOffsets (o + e.len) es

/-- One section table entry. -/
def sectionEntry (off : Nat) (e : Extent) (crc : BitVec 32) : List Byte :=
  leBytes 8 off ++ leBytes 8 e.len ++ [e.typ, e.etype, BitVec.ofNat 8 (bit e.ev), 0] ++ leBytes 4 crc.toNat ++
  List.replicate 8 0

/-- What a header holds beside its CRC and its valid word. -/
def headerFields (dev : Nat) (shard nsh : BitVec 32) (j : DrainJob) (nsec rlen : Nat) : List Byte :=
  let cw := (positionSteps j.stepBase j.dataPos j.sps).toNat * 2 ^ 32 + j.step.toNat
  leBytes 4 0x31585144 ++ leBytes 2 1 ++ leBytes 2 nsec ++ leBytes 8 rlen ++ leBytes 2 dev ++ leBytes 2 0 ++
  leBytes 4 shard.toNat ++ leBytes 4 nsh.toNat ++ leBytes 4 j.step.toNat ++ leBytes 16 j.key.toNat ++
  leBytes 8 j.dataPos.toNat ++ leBytes 4 j.sps.toNat ++ leBytes 4 j.stepBase.toNat ++ leBytes 8 j.tag.toNat ++
  leBytes 8 cw ++ leBytes 8 (2 ^ 64 - 1 - cw) ++ leBytes 8 j.time

/-- Header without valid word, section table and padding, then the sections. -/
def buildRecord (dev : Nat) (shard nsh : BitVec 32) (j : DrainJob) (es : List Extent) (data : List (List Byte)) : List Byte :=
  let head := recordHead es.length
  let offs := sectionOffsets head es
  let table := ((offs.zip es).zip data).flatMap fun p => sectionEntry p.1.1 p.1.2 (crc32c p.2)
  let len := head + (es.map fun e => e.len).sum
  let f := headerFields dev shard nsh j es.length len
  let h := f ++ leBytes 4 (crc32c (f ++ table)).toNat
  sliceBytes (sliceBytes h 0 256 ++ table) 0 head ++ data.flatMap id

/-- The valid word and its complement. -/
def validWord : List Byte := leBytes 4 0x4C415644 ++ leBytes 4 (2 ^ 32 - 1 - 0x4C415644)

/-! ### The drain engine's queue pair (R298, R308, R357) -/

/-- A descriptor of the drain engine: an RDMA WRITE or READ of len bytes at an offset of the target. -/
def engineDesc (tgt : SnapTarget) (op : Byte) (off len : Nat) : PostDesc :=
  { op := op, irq := false, chan := tgt.qp.setWidth 16, len := len, raddr := tgt.va + w64 off, laddr := 0, lidx := 0, fmt := 0
    wrid := 0, token := tgt.rkey.setWidth 128, opd1 := 0, opd2 := 0, wellFormed := true }

def SnapTarget.qn (t : SnapTarget) : Nat := t.qp.toNat % 1024

/-- The requests that carry len bytes: each of 1 GiB, the last of what is left (R357; log entry 145). -/
def engineParts (len : Nat) : List (Nat × Nat) :=
  (List.range ((len + 2 ^ 30 - 1) / 2 ^ 30)).map fun i => (2 ^ 30 * i, min (2 ^ 30) (len - 2 ^ 30 * i))

/-- The drain engine posts an operation on its target's queue pair. -/
def State.postEngine (s : State) (tgt : SnapTarget) (op : Byte) (off len : Nat) (bs : List Byte) : State :=
  if (s.qp tgt.qn).st = .rts then
    s.roceIssue tgt.qn ⟨none, engineDesc tgt op off len, 0, 0, none, false, 0, none, bs, []⟩
  else s

/-- The drain engine's own operations leave the target's queue pair, answered. -/
def State.dropEngine (s : State) (tgt : SnapTarget) : State :=
  let q := s.qp tgt.qn
  (s.setQp tgt.qn { q with ops := q.ops.filter fun o => o.owner.isSome
                           una := if q.ops.all (fun o => o.owner.isNone) then q.spsn else q.una }).flushQp tgt.qn

/-- The drain engine's operation on the target's queue pair is acknowledged to its last number. -/
def State.ackEngine (s : State) (tgt : SnapTarget) : State :=
  let q := s.qp tgt.qn
  match q.ops.find? fun o => o.owner.isNone && o.ended.isNone with
  | none => s
  | some o => s.onRoceAck tgt.qn (o.base.setWidth 24 + BitVec.ofNat 24 (roceSpan q o.desc.op o.desc.len) - 1) [] 0

/-- A byte list is written at an offset of the target and acknowledged, request by request. -/
def State.ackedWrites (s : State) (tgt : SnapTarget) (off : Nat) (bs : List Byte) : State :=
  (engineParts bs.length).foldl (fun t p =>
    (t.postEngine tgt 0x11 (off + p.1) p.2 ((bs.drop p.1).take p.2)).ackEngine tgt) s

/-- READs of the first len bytes of the target. -/
def State.postReads (s : State) (tgt : SnapTarget) (len : Nat) : State :=
  (engineParts len).foldl (fun t p => t.postEngine tgt 0x12 p.1 p.2 []) s

/-- The target's queue pair carries no operation: reset or in error. -/
def State.targetDown (s : State) (tgt : SnapTarget) : Bool := decide ((s.qp tgt.qn).st ≠ .rts)

/-! ### Commands of the drain engine (R301 to R305) -/

/-- What an accepted command samples (R299). -/
def State.sampleJob (s : State) (restore ship emode : Bool) (b : Fin 2) (es : List Extent) : DrainJob :=
  let t := s.train
  { restore := restore, buf := b, ship := ship, emode := emode, evalPhase := false, phase := 0, extents := es,
    key := s.rngKey, step := t.step.val, dataPos := t.dataPos.val, sps := t.sps.val, stepBase := t.stepBase.val,
    tag := t.snapTag, time := s.time, record := [] }

/-- A command begins. -/
def State.beginJob (s : State) (j : DrainJob) (x : SnapState) : State :=
  (s.setSnap j.buf x).mapTrain fun t => { t with job := some j, snapBytes := 0 }

/-- A write to snap_cmd (R301, R305); none is RANGE. A stopped device's drain engine accepts nothing (R369; log entry 142). -/
def State.snapCmd (s : State) (v : Word) : Option State :=
  let b : Fin 2 := (v.extractLsb' 2 1).toFin
  let st := s.train.snap[b]
  let free := s.train.job.isNone
  if v.toNat ≥ 32 ∨ s.cont.stopped then none
  else
    match (v.extractLsb' 0 2).toNat with
    | 1 =>
      if free ∧ (st = .free ∨ st = .failed) then
        match s.extents b with
        | (_, none) => none
        | (s1, some es) => some (s1.beginJob (s1.sampleJob false (v.getLsbD 3) false b es) .draining)
      else none
    | 2 =>
      if free ∧ (st = .free ∨ st = .restoreFailed) ∧ s.train.evalHold[b] = false then
        match s.extents b with
        | (_, none) => none
        | (s1, some es) =>
          some ((s1.beginJob (s1.sampleJob true false (v.getLsbD 4) b es) .restoring).postReads s1.train.ckpt (recordLength es))
      else none
    | 3 =>
      if st = .failed ∨ st = .restoreFailed ∨ st = .awaiting then
        some ((s.setSnap b .free).mapTrain fun t => { t with await := t.await.set b.val none b.isLt })
      else none
    | _ => none

/-! ### Drain events (R298 to R303) -/

/-- First section with a poisoned word, by its index in the list. -/
def State.poisonedSection (s : State) (es : List Extent) : Option Nat :=
  es.findIdx? fun e => (s.firstPoison e.src e.len).isSome

/-- Every error the reads of the sections reach is found. -/
def State.settleAll (s : State) (es : List Extent) : State := es.foldl (fun t e => t.settle e.src e.len 0) s

/-- The target of the record being sent. -/
def State.jobTarget (s : State) (j : DrainJob) : SnapTarget := if j.evalPhase then s.train.eval else s.train.ckpt

def State.setJob (s : State) (j : DrainJob) (moved : Nat) : State :=
  s.mapTrain fun t => { t with job := some j, snapBytes := t.snapBytes + w64 moved }

/-- The drain in progress at a phase of its record. -/
def State.draining (s : State) (phase : Fin 3) : Option DrainJob :=
  match s.train.job with
  | none => none
  | some j => if !j.restore && decide (j.phase = phase) && decide (s.rst.phase = .ready) then some j else none

/-- R300, R303: every section is written and acknowledged; the header is posted. -/
def execDrainSectionsAcked (s : State) : Host.Outcome State Fault Refusal :=
  match s.draining 0 with
  | none => .next s
  | some j =>
    let es := j.sections
    let s1 := s.settleAll es
    let tgt := s1.jobTarget j
    match s1.poisonedSection es with
    | some i => .next (s1.drainFails j 9 (w32 i))
    | none =>
      if s1.targetDown tgt then .next (s1.drainFails j 8 0)   -- no connection: not even the first section went out
      else
        let data := es.map fun e => s1.homeBytes e.src e.len
        let t := s1.train
        let r := buildRecord s1.fab.devId.val.toNat t.shardIdx.val t.nShards.val j es data
        let head := recordHead es.length
        let s2 := s1.ackedWrites tgt head (r.drop head)
        .next ((s2.postEngine tgt 0x11 0 head (r.take head)).setJob { j with phase := 1, record := r } (r.length - head))

/-- R300: the header is acknowledged; the valid word is posted. -/
def execDrainHeaderAcked (s : State) : Host.Outcome State Fault Refusal :=
  match s.draining 1 with
  | none => .next s
  | some j =>
    let tgt := s.jobTarget j
    .next (((s.ackEngine tgt).postEngine tgt 0x11 248 8 validWord).setJob { j with phase := 2 } (recordHead j.sections.length))

/-- R303: the record is whole; the evaluation record follows, or the drain is done. -/
def execDrainValidAcked (s : State) : Host.Outcome State Fault Refusal :=
  match s.draining 2 with
  | none => .next s
  | some j =>
    let s1 := s.ackEngine (s.jobTarget j)
    if j.ship && !j.evalPhase then .next (s1.setJob { j with evalPhase := true, phase := 0, record := [] } 0)
    else
      .next (((s1.endJob j.buf .free).mapTrain fun t => { t with done := t.done.set j.buf.val true j.buf.isLt }).log 1
        0x0B01 drainSource (w32 j.buf.val) (w32 (recordLength j.extents / 1024)) (j.tag.setWidth 32))

/-- The connection of the job's target fails: the job ends, naming a section, and the queue pair enters error where it is not
yet (R303, R357, R359). -/
def State.connectionFails (s : State) (tgt : SnapTarget) (sec : BitVec 32) : State :=
  let s1 := s.jobFails 8 sec
  if s1.targetDown tgt then s1 else s1.qpError tgt.qn 9 0

/-- R303: a poisoned read or the connection's error. -/
def execDrainFail (why : DrainFailure) (sec : BitVec 32) (s : State) : Host.Outcome State Fault Refusal :=
  match s.train.job with
  | none => .next s
  | some j =>
    if j.restore || decide (s.rst.phase ≠ .ready) then .next s
    else
      match why with
      | .poisoned => .next (s.drainFails j 9 sec)
      | .transport => .next (s.connectionFails (s.jobTarget j) (if j.phase = 0 then sec else 0xFFFFFFFF))

/-! ### Restore (R308 to R310) -/

/-- A finite FP32 that is ≥ +0 or −0. -/
def amaxOk (raw : Nat) : Bool :=
  let v := decodeFloat .fp32 raw
  v.finite && (v.isZero || !v.sign)

/-- The FP32 words of a section. -/
def words4 (bs : List Byte) : List Nat := (List.range (bs.length / 4)).map fun i => fieldNat bs (4 * i) 4

/-- Checks 6 and 7 of one section. -/
def scaleBad (e : Extent) (bs : List Byte) : Bool :=
  (e.typ == 5 && bs.any fun b => b == 0xFF) || (e.typ == 6 && (words4 bs).any fun w => !amaxOk w)

def statsBad (e : Extent) (bs : List Byte) : Bool :=
  e.typ == 7 && (List.range (bs.length / 8)).any fun i =>
    !(decodeFloat .fp32 (fieldNat bs (8 * i) 4)).finite || !amaxOk (fieldNat bs (8 * i + 4) 4)

/-- Section i of the record does not match the extent table. -/
def shapeBad (r : List Byte) (i : Nat) (e : Extent) : Bool :=
  let o := 256 + 32 * i
  fieldNat r (o + 8) 8 != e.len || fieldNat r (o + 16) 1 != e.typ.toNat || fieldNat r (o + 17) 1 != e.etype.toNat

/-- Checks 1 to 7: status and section index of the first that fails. -/
def restoreFails (t : Training) (es : List Extent) (r : List Byte) (data : List (List Byte)) : Option (Nat × BitVec 32) :=
  let none32 : BitVec 32 := 0xFFFFFFFF
  let nsec := fieldNat r 6 2
  let cw := fieldNat r 72 8
  let step := w32 (fieldNat r 28 4)
  let sps := w32 (fieldNat r 56 4)
  let pos := positionSteps (w32 (fieldNat r 60 4)) (w64 (fieldNat r 48 8)) sps
  let at_ := fun i : Nat => (data.getD i [], es.getD i ⟨0, 0, 0, 0, false⟩)
  if fieldNat r 248 4 ≠ 0x4C415644 ∨ fieldNat r 252 4 ≠ 2 ^ 32 - 1 - 0x4C415644 then some (1, none32)
  else if fieldNat r 0 4 ≠ 0x31585144 ∨ fieldNat r 4 2 ≠ 1 ∨
      fieldNat r 96 4 ≠ (crc32c (sliceBytes r 0 96 ++ sliceBytes r 256 (32 * nsec))).toNat then some (1, none32)
  else if fieldNat r 20 4 ≠ t.shardIdx.val.toNat ∨ fieldNat r 24 4 ≠ t.nShards.val.toNat ∨ nsec ≠ es.length then
    some (2, none32)
  else
    match (List.range es.length).find? fun i => shapeBad r i (at_ i).2 with
    | some i => some (2, w32 i)
    | none =>
      match (List.range es.length).find? fun i => fieldNat r (256 + 32 * i + 20) 4 != (crc32c (at_ i).1).toNat with
      | some i => some (3, w32 i)
      | none =>
        if fieldNat r 80 8 ≠ 2 ^ 64 - 1 - cw ∨ sps = 0 ∨ cw % 2 ^ 32 ≠ step.toNat ∨ cw / 2 ^ 32 ≠ pos.toNat then
          some (4, none32)
        else
          match (List.range es.length).find? fun i => scaleBad (at_ i).2 (at_ i).1 with
          | some i => some (5, w32 i)
          | none => ((List.range es.length).find? fun i => statsBad (at_ i).2 (at_ i).1).map fun i => (6, w32 i)

/-- Section bytes of a record, by the layout of R306. -/
def recordSections (es : List Extent) (r : List Byte) : List (List Byte) :=
  ((sectionOffsets (recordHead es.length) es).zip es).map fun p => (r.drop p.1).take p.2.len

/-- Key and step take the record's values (R309). -/
def Training.takeRandom (t : Training) (key : BitVec 128) (step : BitVec 32) : Training :=
  { t with keyLo := pairOf (key.extractLsb' 0 64), keyHi := pairOf (key.extractLsb' 64 64), step := pairOf step }

/-- The marks of key and step go with their new pairs (R363). -/
def State.clearRandomMarks (s : State) (emode : Bool) : State :=
  if emode then s else ([0, 1, 2] : List Nat).foldl (fun t n => t.clearCrit n) s

/-- The commit of R309. -/
def State.restoreCommit (s : State) (b : Fin 2) (emode : Bool) (key : BitVec 128) (step : BitVec 32) (status : Nat) : State :=
  (((s.setSnap b .free).mapTrain fun t =>
    { (if emode then t else t.takeRandom key step) with restoreStatus := BitVec.ofNat 8 status }).clearRandomMarks emode).log 1
      0x0B03 drainSource (w32 b.val) step (w32 (bit emode))

/-- Skew of check 8: 0x8000_0000 where data_pos is not a multiple of sps (R310). -/
def Training.skew (t : Training) (step : BitVec 32) : BitVec 32 :=
  if t.dataPos.val.toNat % t.sps.val.toNat ≠ 0 then 0x80000000
  else step - positionSteps t.stepBase.val t.dataPos.val t.sps.val

/-- R308: the record is there; its sections are written, then the checks made in order. -/
def State.restoreWith (s : State) (j : DrainJob) (r : List Byte) : State :=
  let data := recordSections j.extents r
  let lost := j.extents.any fun e => s.badExtent e.src e.len
  let s1 := ((j.extents.zip data).foldl (fun t p => t.writeHome p.1.src p.2) s).mapTrain fun t =>
    { t with snapBytes := w64 r.length }
  if lost then s1.restoreFail j .restoreFailed 9 0xFFFFFFFF
  else
    match restoreFails s1.train j.extents r data with
    | some (status, sec) => s1.restoreFail j .restoreFailed status sec
    | none =>
      let step := w32 (fieldNat r 28 4)
      let key := BitVec.ofNat 128 (fieldNat r 32 16)
      let sk := s1.train.skew step
      if j.emode || sk == 0 then
        (s1.mapTrain fun t => { t with job := none }).restoreCommit j.buf j.emode key step 0
      else
        (s1.mapTrain fun t => { t with restoreSkew := sk, await := t.await.set j.buf.val (some (step, key, sk)) j.buf.isLt }).restoreFail
          j .awaiting 7 0xFFFFFFFF

/-- R308: the READ is answered, with the record that its answers brought or, where they were not commands of their own, the
command's; none: the connection failed. -/
def execRestoreReadDone (record : Option (List Byte)) (s : State) : Host.Outcome State Fault Refusal :=
  match s.train.job with
  | none => .next s
  | some j =>
    if !j.restore || decide (s.rst.phase ≠ .ready) then .next s
    else
      let tgt := s.train.ckpt
      match record with
      | none => .next (s.connectionFails tgt 0xFFFFFFFF)
      | some r =>
        if s.targetDown tgt then .next (s.restoreFail j .restoreFailed 8 0xFFFFFFFF)
        else
          let r1 := if j.record.length = recordLength j.extents then j.record else r
          .next ((s.dropEngine tgt).restoreWith j r1)

/-- The lowest buffer that awaits acceptance. -/
def Training.awaitingBuf (t : Training) : Option (Fin 2) := [0, 1].find? fun b => decide (t.snap[b] = .awaiting)

/-- A write to accept (R310); none is RANGE. -/
def State.snapAccept (s : State) (v : Word) : Option State :=
  if v = 0 then some s
  else if v ≠ 1 then none
  else
    match s.train.awaitingBuf with
    | none => none
    | some b =>
      match s.train.await[b] with
      | none => none
      | some (step, key, sk) =>
        some (((s.restoreCommit b false key step 10).mapTrain fun t => { t with await := t.await.set b.val none b.isLt }).log 4
          0x0B05 drainSource (w32 b.val) sk step)

/-- snap_busy (R302). -/
def Training.busy (t : Training) : Nat :=
  ([0, 1] : List (Fin 2)).foldl (fun a b =>
    a + 2 ^ b.val * bit (decide (t.snap[b] ≠ .free) || t.evalHold[b])) 0

end Sys2Proof.Machine
end

