-- ==== Sys2Proof/Machine/Recorder.lean ====
section
/-!
DEFINITION. The Medlar recorder and the black box (R374 to R382), with what follows the acceptance of a
record: ERROR_NOTICE (R371), POWER_NOTICE (R443) and the DAP's NOTIFY (R466).
-/
namespace Sys2Proof.Machine

/-! ### DAP messages the device sends (R460, R463) -/

/-- Header bytes of a DAP message. -/
def dapHeader (m : DapMsg) : List Byte :=
  [m.ver ++ m.typ, m.flags] ++ leBytes 2 m.blen.toNat ++ leBytes 4 m.session.toNat ++ leBytes 8 m.seq.toNat

/-- Tag of a message under a key (R463). -/
def dapTag (key : BitVec 512) (m : DapMsg) : BitVec 512 := Config.hmac512 key (dapHeader m ++ m.body)

/-- An authenticated message of the device in a session. -/
def Session.message (x : Session) (typ : BitVec 4) (seq : Word) (body : List Byte) : DapMsg :=
  let m : DapMsg := ⟨1, typ, 0, BitVec.ofNat 16 body.length, x.id, seq, body, none⟩
  { m with tag := some (dapTag x.keyOut m) }

def State.sessionAt (s : State) (vlan : Bool) (i : Fin 4) : Option Session := if vlan then s.mgmt.vlan[i] else s.mgmt.port[i]

def State.setSession (s : State) (vlan : Bool) (i : Fin 4) (x : Option Session) : State :=
  { s with mgmt := if vlan then { s.mgmt with vlan := s.mgmt.vlan.set i.val x i.isLt }
                   else { s.mgmt with port := s.mgmt.port.set i.val x i.isLt } }

/-- The path: the management VLAN's, or the management port's. -/
def DapPeer.vlan (p : DapPeer) : Bool := p.sub.isSome

/-- The IP header of a DAP datagram to its peer: Not-ECT (R322, R468). -/
def DapPeer.ipHead (p : DapPeer) : IpHead :=
  if p.own.extractLsb' 32 96 = 0xFFFF then ip4Head p.own p.host 7 0 else ip6Head p.own p.host 7 0

/-- The frame of a data sub-port: mgmt_vid and PCP 7, to the next hop (R320, R468). -/
def State.dapLink (s : State) (p : DapPeer) (k : Fin 64) : TxHead :=
  { s.txHead k 7 (s.sub k.val).nhMac (some p.ipHead) with vid := some (s.mgmt.vid.val.setWidth 12) }

/-- Bytes of the tagged frame that carries a DAP message. -/
def dapFrame (p : DapPeer) (m : DapMsg) : Nat :=
  m.body.length + (if m.tag.isSome then 64 else 0) + (if p.ipHead.v6 then 86 else 66)

/-- The device sends to a peer: on the management port, which needs a MAC, or on the data sub-port the peer's frames come on,
which must send (R493), when its priority 7 is not paused (R321). -/
def State.sendDap (s : State) (p : DapPeer) (m : DapMsg) : State :=
  match p.sub with
  | none => if s.mgmt.mac = 0 then s else s.send (.dap p none p.ipHead s.mgmt.dapPort m)
  | some k =>
    if s.subSends k.val then
      s.transmit ⟨k, 7, some (dapFrame p m), .dap p (some (s.dapLink p k)) p.ipHead s.mgmt.dapPort m⟩
    else s

/-! ### Records (R374) -/

abbrev RecSlot := Vector (BitVec 32) 8

def slotZero : RecSlot := Vector.replicate 8 0

def RecSlot.word (w : RecSlot) (i : Nat) : BitVec 32 := vget w i 0

/-- A record's slot words. -/
def recSlot (r : Rec) (time : Nat) (repeats : Nat) : RecSlot :=
  let w0 := w32 (r.code.toNat * 65536 + r.code.toNat / 256 % 32 * 2048 + r.sev.toNat * 256 + 0xA5)
  #v[w0, r.source, w32 time, w32 (time / 2 ^ 32), r.p0, r.p1, r.p2,
     w32 ((65535 - w0.toNat % 65536) * 65536 + repeats)]

/-- The slot holds a valid record (R374). -/
def RecSlot.valid (w : RecSlot) : Bool :=
  let w0 := (RecSlot.word w 0).toNat
  w0 % 256 == 0xA5 && (RecSlot.word w 7).toNat / 65536 == 65535 - w0 % 65536

def RecSlot.sev (w : RecSlot) : Nat := (RecSlot.word w 0).toNat / 256 % 8

def RecSlot.time (w : RecSlot) : Nat := (RecSlot.word w 2).toNat + 2 ^ 32 * (RecSlot.word w 3).toNat

def RecSlot.repeats (w : RecSlot) : Nat := (RecSlot.word w 7).toNat % 65536

def slotBytes (w : RecSlot) : List Byte := (List.range 8).flatMap fun i => leBytes 4 (RecSlot.word w i).toNat

/-- Slots of the ring (R379). -/
def Recorder.slots (r : Recorder) : Nat := 2 ^ r.size.toNat / 32

def Recorder.slot (r : Recorder) (i : Nat) : RecSlot := sparseGet (fun _ => slotZero) r.ring i

def Recorder.setSlot (r : Recorder) (i : Nat) (w : RecSlot) : Recorder :=
  { r with ring := sparseSet (fun _ => slotZero) r.ring i w }

/-! ### Acceptance (R375, R371, R443, R466) -/

/-- POWER_NOTICE at each core of pwr_notice_mask that is ON and not fenced (R443). -/
def State.powerNotice (s : State) : State :=
  (List.finRange 64).foldl (fun t c =>
    if t.pow.noticeMask.getLsbD c.val && (t.core c).fenceable &&
        decide ((vget t.pow.domains c.val ⟨.off, false, false, 0, 0⟩).phase = .on) then
      t.mapCore c fun x => { x with notice := { x.notice with power := true } }
    else t) s

/-- NOTIFY to one session, at most 64 a second (R466). -/
def State.notifyOne (s : State) (vlan : Bool) (i : Fin 4) (body : List Byte) : State :=
  match s.sessionAt vlan i with
  | none => s
  | some x =>
    if !x.notify then s
    else
      let y := if x.secondAt + 100000000 ≤ s.time then { x with notified := 0, secondAt := s.time } else x
      if 64 ≤ y.notified then
        { s.setSession vlan i (some y) with
          mgmt := { (s.setSession vlan i (some y)).mgmt with notifyDrop := s.mgmt.notifyDrop + 1 } }
      else
        let z := { y with notified := y.notified + 1, devSeq := y.devSeq + 1 }
        (s.setSession vlan i (some z)).sendDap z.peer (z.message 8 z.devSeq body)

/-- NOTIFY to every session that asked for it. -/
def State.notifyAll (s : State) (body : List Byte) : State :=
  ([false, true] : List Bool).foldl (fun t v => (List.finRange 4).foldl (fun u i => u.notifyOne v i body) t) s

/-- What follows an accepted record. -/
def State.afterAccept (s : State) (r : Rec) (time : Nat) : State :=
  let s1 := if s.recd.noticeSev ≤ r.sev then s.errorNotice else s
  let s2 := if r.code.toNat / 256 = 7 ∧ 3 ≤ r.sev then s1.powerNotice else s1
  if s2.mgmt.notifySev ≤ r.sev then s2.notifyAll (slotBytes (recSlot r time 0)) else s2

/-- The tick in which the next record may be accepted: one record per tick (R375). -/
def State.freeTick (s : State) : Nat :=
  match s.recd.lastAccept with
  | none => s.time
  | some l => max s.time (l + 1)

/-- R375: one record is accepted in this tick, or dropped where the queue is full. -/
def State.acceptRec (s : State) (r : Rec) : State :=
  if 64 ≤ s.recd.queue.length ∨ (s.ledger 0x70).canTake 1 = false then
    { s with recd := { s.recd with drop := s.recd.drop + 1 } }
  else
    let t := s.time
    let s1 := s.poolTake 0x70 1
    { s1 with recd := { s1.recd with queue := s1.recd.queue ++ [(r, t)], lastAccept := some t } }.afterAccept r t

/-- The power-on reset holds the recorder cleared. -/
def State.recorderRuns (s : State) : Bool := decide (s.rst.phase ≠ .porHeld)

/-- R375: at most one record a tick; a further one waits for the next. Records of all sources come in order of entry (the
model's choice, log entry 148). -/
def execRecordAccept (s : State) : Host.Outcome State Fault Refusal :=
  match s.recd.inFlight with
  | [] => .next s
  | r :: rs =>
    if s.recorderRuns ∧ s.freeTick = s.time then .next ({ s with recd := { s.recd with inFlight := rs } }.acceptRec r) else .next s

/-! ### Writing (R376) -/

/-- The newest record says the same, and may count one more. -/
def Recorder.coalesces (x : Recorder) (r : Rec) : Bool :=
  let w := x.slot x.newest.toNat
  let n := recSlot r 0 0
  decide (x.size.toNat ≤ 16 ∧ x.newest ≠ 0xFFFFFFFF) && RecSlot.valid w && RecSlot.word w 0 == RecSlot.word n 0 &&
  RecSlot.word w 1 == RecSlot.word n 1 && RecSlot.word w 4 == RecSlot.word n 4 && RecSlot.word w 5 == RecSlot.word n 5 &&
  RecSlot.word w 6 == RecSlot.word n 6 && decide (RecSlot.repeats w < 0xFFFF)

/-- First slot from rec_next onward that a record of this severity may take. -/
def Recorder.findSlot (x : Recorder) (sev : BitVec 3) : Option Nat :=
  match (List.range x.slots).find? fun i =>
      let w := x.slot ((x.next + i) % x.slots)
      !RecSlot.valid w || decide (RecSlot.sev w ≤ sev.toNat) with
  | none => none
  | some i => some ((x.next + i) % x.slots)

/-- One record is coalesced, written or dropped. -/
def Recorder.put (x : Recorder) (r : Rec) (time : Nat) : Recorder :=
  if x.coalesces r then
    let w := x.slot x.newest.toNat
    x.setSlot x.newest.toNat (w.set 7 (RecSlot.word w 7 + 1))
  else
    match x.findSlot r.sev with
    | none => { x with drop := x.drop + 1 }
    | some i =>
      { x.setSlot i (recSlot r time 0) with newest := w32 i, next := (i + 1) % x.slots, written := x.written + 1 }

/-- The oldest accepted record goes to the ring. -/
def State.writeRec (s : State) : State :=
  match s.recd.queue with
  | [] => s
  | (r, t) :: q => ({ s with recd := ({ s.recd with queue := q } : Recorder).put r t }).poolGive 0x70 1

/-- R376. -/
def execRecordWrite (s : State) : Host.Outcome State Fault Refusal := .next s.writeRec

/-- A write of rec_sel: the slot's copy; none is RANGE (R377). -/
def State.recSelCmd (s : State) (win : Option CoreId) (v : Word) : Option State :=
  if v.toNat < s.recd.slots then
    let w := s.recd.slot v.toNat
    match win with
    | none => some { s with recd := { s.recd with sel := v.setWidth 32, snap := w } }
    | some c => some (s.mapCore c fun x => { x with win := { x.win with recSel := v.setWidth 32, recSnap := w } })
  else none

/-- A write of rec_size; none is RANGE (R379). -/
def State.recSizeCmd (s : State) (v : Word) : Option State :=
  if 12 ≤ v.toNat ∧ v.toNat ≤ 20 then
    let s1 := s.poolGive 0x70 s.recd.queue.length
    some ({ s1 with recd := { s1.recd with ring := [], queue := [], size := v.setWidth 8, next := 0, newest := 0xFFFFFFFF } }.log
      1 0x0D01 0x00010004 (v.setWidth 32) 0 0)
  else none

/-! ### The black box (R380 to R382) -/

/-- The half that is not saved. -/
def otherHalf (i : Fin 2) : Fin 2 := if i = 0 then 1 else 0

/-- Valid records of the ring, newest first (R381). -/
def Recorder.newestFirst (x : Recorder) : List RecSlot :=
  ((x.ring.filter fun e => RecSlot.valid e.2).map fun e => e.2).mergeSort fun a b => decide (RecSlot.time b ≤ RecSlot.time a)

/-- The halves of the region that bb_addr names; an unused region is erased. -/
def BlackBox.halves (b : BlackBox) : Vector BoxHalf 2 :=
  sparseGet (fun _ => Vector.replicate 2 ⟨[], []⟩) b.regions (b.addr.toNat / 65536)

def BlackBox.setHalf (b : BlackBox) (i : Fin 2) (h : BoxHalf) : BlackBox :=
  let x := b.halves.set i.val h i.isLt
  { b with regions := sparseSet (fun _ => Vector.replicate 2 ⟨[], []⟩) b.regions (b.addr.toNat / 65536) x }

/-- What a header page says: sequence number, time, records, device. -/
structure BoxHeader where
  seq : BitVec 32
  time : Nat
  count : Nat
  dev : BitVec 16
  deriving DecidableEq, Repr

/-- Bytes 0 to 19 of a header page (R381). -/
def BoxHeader.fields (x : BoxHeader) : List Byte :=
  leBytes 4 0x584F4242 ++ leBytes 4 x.seq.toNat ++ leBytes 8 x.time ++ leBytes 2 x.count ++ leBytes 2 x.dev.toNat

/-- The header page: its fields, their CRC-32C, and 0xFF to the page's end (R381). -/
def BoxHeader.page (x : BoxHeader) : List Byte := x.fields ++ leBytes 4 (crc32c x.fields).toNat ++ List.replicate 232 0xFF

/-- The header of a half; none where its page is not valid. -/
def BoxHalf.head (h : BoxHalf) : Option BoxHeader :=
  let p := h.header
  if fieldNat p 0 4 = 0x584F4242 ∧ fieldNat p 20 4 = (crc32c (p.take 20)).toNat then
    some ⟨w32 (fieldNat p 4 4), fieldNat p 8 8, fieldNat p 16 2, BitVec.ofNat 16 (fieldNat p 18 2)⟩
  else none

/-- The half with the newer valid header. -/
def BlackBox.newer (b : BlackBox) : Fin 2 :=
  match b.halves[(0 : Fin 2)].head, b.halves[(1 : Fin 2)].head with
  | _, none => 0
  | none, some _ => 1
  | some x, some y => if x.seq.toNat < y.seq.toNat then 1 else 0

/-- A box cut short: fewer records than its header counts. -/
def BoxHalf.incomplete (h : BoxHalf) : Bool :=
  match h.head with
  | none => false
  | some x => decide (h.records.length < x.count)

/-- R380 steps 1 and 2: the saved box is loaded, the erase of the other half begins. -/
def execBbEraseStart (s : State) : Host.Outcome State Fault Refusal :=
  let b := s.box
  let busy := match s.rst.commit with | none => false | some c => !c.waiting
  if s.rst.phase = .ready ∧ s.rowan.lock.getLsbD 0 ∧ b.addr ≠ 0xFFFFFFFF ∧ b.erasing = false ∧ b.readied = false ∧
      b.programming = false ∧ busy = false then
    let i := b.newer
    let h := b.halves[i]
    let s1 := { s with box := { b.setHalf (otherHalf i) ⟨[], []⟩ with
      saved := i, erasing := true, readied := true, present := h.head.isSome, incomplete := h.incomplete } }
    match h.head with
    | none => .next s1
    | some x => .next (s1.log 4 0x0D03 0x00010004 (w32 h.records.length) (w32 x.time) (w32 (bit h.incomplete)))
  else .next s

/-- R380 step 3; a commit that waited begins (R456). -/
def execBbEraseDone (s : State) : Host.Outcome State Fault Refusal :=
  if s.box.erasing then
    .next { s with box := { s.box with erasing := false, armed := s.box.readied }
                   rst := { s.rst with commit := s.rst.commit.map fun c => { c with waiting := false } } }
  else .next s

/-- A record is accepted as soon as a tick is free for it, and written (log entry 124). -/
def State.recordNow (s : State) (r : Rec) : State := ({ s with time := s.freeTick }.acceptRec r).writeRec

/-- Everything on its way to the ring is there: accepted, one in a tick, then written. -/
def State.settleRecorder (s : State) : State :=
  let s1 := s.recd.inFlight.foldl (fun t r => t.recordNow r) { s with recd := { s.recd with inFlight := [] } }
  (List.range 64).foldl (fun t _ => t.writeRec) s1

/-- R381, R456, R481: PWR_FAIL_N has been low for 2 µs. -/
def execPwrFailAssert (s : State) : Host.Outcome State Fault Refusal :=
  if s.rst.phase = .porHeld ∨ s.balls.pwrFail then .next s
  else
    let s1 := s.settleRecorder
    let valid := s1.recd.newestFirst.length
    let fresh := match s1.recd.findSlot 5 with | none => false | some i => !RecSlot.valid (s1.recd.slot i)
    let n := min 512 (valid + bit fresh)
    let s2 := s1.recordNow ⟨5, 0x0D02, 0x00010004, w32 n, 0, 0⟩
    let s3 := { s2.stopCommit with balls := { s2.balls with pwrFail := true }
                                   pow := { s2.pow with failHold := true, fCap := 400 } }
    if s3.box.armed then
      .next { s3 with box := { s3.box with
        armed := false, programming := true, snapshot := s3.recd.newestFirst.take 512, snapTime := s3.time, pagesLeft := 65 } }
    else .next s3

/-- Sequence number of a half. -/
def BoxHalf.seq (h : BoxHalf) : BitVec 32 := match h.head with | none => 0 | some x => x.seq

/-- The page being programmed is whole: the header page, then the record pages in newest-first order (R381). -/
def BlackBox.pageDone (b : BlackBox) (devId : BitVec 16) : BlackBox :=
  let i := otherHalf b.saved
  let h := b.halves[i]
  let page := 65 - b.pagesLeft
  let h1 : BoxHalf :=
    if page = 0 then { h with header := BoxHeader.page ⟨(b.halves[b.saved]).seq + 1, b.snapTime, b.snapshot.length, devId⟩ }
    else { h with records := h.records ++ (b.snapshot.drop (8 * (page - 1))).take 8 }
  { b.setHalf i h1 with pagesLeft := b.pagesLeft - 1, programming := decide (1 < b.pagesLeft) }

/-- A page of the box is programmed (R381); the last ends the hold of R481 where PWR_FAIL_N is high again. -/
def execBbPageProgrammed (s : State) : Host.Outcome State Fault Refusal :=
  let b := s.box
  if b.programming then
    .next { s with
      box := b.pageDone (s.fab.devId.val.setWidth 16)
      pow := { s.pow with failHold := s.pow.failHold && (s.balls.pwrFail || decide (1 < b.pagesLeft)) } }
  else .next s

/-- A write of bb_sel; none is RANGE. -/
def State.bbSelCmd (s : State) (v : Word) : Option State :=
  if v.toNat < 512 then
    let r := if s.box.present then (s.box.halves[s.box.saved]).records.getD v.toNat slotZero else slotZero
    some { s with box := { s.box with sel := v.setWidth 16, snap := r } }
  else none

/-- bb_state. -/
def BlackBox.state (b : BlackBox) : Nat :=
  bit b.armed + 2 * bit b.erasing + 4 * bit b.present + 8 * bit b.incomplete +
  65536 * (if b.present then (b.halves[b.saved]).records.length else 0)

end Sys2Proof.Machine
end

