-- ==== Sys2Proof/Machine/Ledgers.lean ====
section
/-!
DEFINITION. Ledger checks and write-offs (R361 to R366), fences of cores (R360, R370), link errors (R368) and
dispatch (R372, R373).
-/
namespace Sys2Proof.Machine

/-! ### Ledger check (R365) -/

/-- Every pool. -/
def poolIds : List Nat := (List.range 0x7D).filter fun i => (poolSize i).isSome

/-- First check of R365 that a ledger fails. -/
def Ledger.fails (l : Ledger) (size : Nat) : Option Nat :=
  if !l.whole then some 1
  else if l.issued.val - l.returned.val ≠ l.outstanding.val then some 2
  else if l.st = .opened ∧ l.outstanding.val.toNat + l.free.toNat ≠ size then some 3
  else if size < l.outstanding.val.toNat then some 4
  else none

/-- One pool is checked; one that failed before is closed already. -/
def State.checkPool (s : State) (id : Nat) : State :=
  let l := s.ledger id
  if l.st = .afterFault then s
  else
    match l.fails ((poolSize id).getD 0) with
    | none => s
    | some n => s.failPool id n

/-- The pairs of a ledger are checked when its entries are read (R362). -/
def State.checkPairs (s : State) (id : Nat) : State :=
  let l := s.ledger id
  if decide (l.st = .afterFault) || l.whole then s else s.failPool id 1

/-- Fabric table entries and option words in force whose halves disagree (R362). -/
def State.checkTables (s : State) : State :=
  let s1 := s.fab.table.foldl (fun t e => (t.readEntry e.1).1) s
  (s1.rst.words.map (fun e => e.1) ++ s1.rst.wordErr.map fun e => e.1).foldl (fun t n => t.checkWord n) s1

/-- R365, R362. -/
def execLedgerCheck (s : State) : Host.Outcome State Fault Refusal :=
  if s.rst.phase = .porHeld ∨ s.rst.phase = .sysHeld then .next s
  else .next (((poolIds.foldl (fun t id => t.checkPool id) s).checkCriticals).checkTables)

/-- R361: 100 µs after the fence, what is outstanding is written off. -/
def execFenceWriteoff (pool : Nat) (s : State) : Host.Outcome State Fault Refusal :=
  let l := s.ledger pool
  match l.fencedAt with
  | none => .next s
  | some t =>
    if s.time < t + 10000 then .next s
    else if !l.whole then
      let s1 := s.setLedger pool { l with fencedAt := none, wroteOff := true }
      .next (if l.st = .afterFault then s1 else s1.failPool pool 1)
    else
      let n := l.outstanding.val
      let l1 := { l with fencedAt := none, wroteOff := true, outstanding := pairOf 0, returned := pairOf (l.returned.val + n)
                         writtenOff := pairOf (l.writtenOff.val + n) }
      let s1 := s.setLedger pool l1
      if n = 0 then .next s1 else .next (s1.log 4 0x0202 (0x00050000 + w32 pool) (w32 pool) (n.setWidth 32) 0)

/-! ### Cores (R360, R370) -/

/-- A write of core_fence; none is RANGE. -/
def State.coreFenceCmd (s : State) (v : Word) : Option State :=
  if h : v.toNat < 64 then
    let c : CoreId := ⟨v.toNat, h⟩
    let x := s.core c
    if x.cond = .absent then none
    else if x.cond = .fenced then some s
    else some ((s.log 6 0x0102 (coreSource c) 0 (w32 x.items.length) 0).fenceCore c true)
  else none

/-- A core whose watchdog counts (R370). -/
def State.watched (s : State) (c : CoreId) : Bool := s.coreRuns c && decide (s.cont.wdFence ≠ 0)

/-- µs since the core's last progress. -/
def CoreState.idleUs (x : CoreState) : BitVec 32 := w32 (x.wdTicks / 100)

/-- R370. -/
def execWatchdogWarn (c : CoreId) (s : State) : Host.Outcome State Fault Refusal :=
  let x := s.core c
  if s.watched c ∧ x.wdWarned = false ∧ 100 * s.cont.wdWarn.toNat ≤ x.wdTicks then
    .next ((s.mapCore c fun y => { y with wdWarned := true, notice := { y.notice with watchdog := true } }).log 3 0x0301
      (coreSource c) x.idleUs (x.pcc.cursor.setWidth 32) 0)
  else .next s

/-- R370. -/
def execWatchdogFence (c : CoreId) (s : State) : Host.Outcome State Fault Refusal :=
  let x := s.core c
  if s.watched c ∧ 100 * s.cont.wdFence.toNat ≤ x.wdTicks then
    .next ((s.log 6 0x0302 (coreSource c) x.idleUs (x.pcc.cursor.setWidth 32) (w32 x.items.length)).fenceCore c true)
  else .next s

/-! ### Package links (R368) -/

/-- A CRC error of a link: replayed; the sixteenth failed replay in a row loses the device. A packet that fails at its first
sending starts a new row (log entry 123). -/
def execLinkCrcError (e : CrcError) (s : State) : Host.Outcome State Fault Refusal :=
  let link := e.link
  let n := if e.replay then s.cont.linkReplays[link] + 1 else 0
  let s1 := { s with cont := { s.cont with linkReplays := s.cont.linkReplays.set link.val n link.isLt } }
  if n < 16 then .next (s1.log 2 0x0601 (w32 link.val) (w32 link.val) (w32 (n + 1)) 0)
  else .next ((s1.log 7 0x0602 (w32 link.val) (w32 link.val) 0 0).deviceStop)

/-! ### Dispatch (R372, R373) -/

/-- Items a queue can hold. -/
def queueSize (q : Fin 5) : Nat := if q.val = 4 then 65536 else 4096

/-- A write of dq_post of queue q; none is RANGE. -/
def State.dqPostCmd (s : State) (q : Fin 5) (v : Word) : Option State :=
  let x := s.queue q
  if x.fenced ∨ queueSize q ≤ x.items.length ∨ v = BitVec.allOnes 64 then none
  else some (s.setQueue q { x with items := x.items ++ [v], pendingCount := x.pendingCount + 1 })

/-- Queues in the order core c looks. -/
def claimOrder (c : CoreId) : List (Fin 5) :=
  let d := c.val / 16
  [Fin.ofNat 5 d, 4, Fin.ofNat 5 ((d + 1) % 4), Fin.ofNat 5 ((d + 2) % 4), Fin.ofNat 5 ((d + 3) % 4)]

/-- A read of dq_claim by core c: the item, all ones where there is none (R372). -/
def State.dqTake (s : State) (c : CoreId) : Word × State :=
  let none_ : Word := BitVec.allOnes 64
  if 16 ≤ (s.core c).items.length then (none_, s)
  else
    match (claimOrder c).find? fun q => !(s.queue q).fenced && !(s.queue q).items.isEmpty && (s.ledger (claimPool q)).canTake 1 with
    | none => (none_, s)
    | some q =>
      match (s.queue q).items with
      | [] => (none_, s)
      | v :: vs =>
        let s1 := (s.setQueue q { s.queue q with items := vs }).poolTake (claimPool q) 1
        (v, s1.mapCore c fun x => { x with items := x.items ++ [(q, v)] })

/-- A write of dq_done by core c; none is RANGE (R373). -/
def State.dqDoneCmd (s : State) (c : CoreId) (v : Word) : Option State :=
  match (s.core c).items.find? fun e => e.2 == v with
  | none => none
  | some e =>
    let s1 := (s.mapCore c fun x => { x with items := x.items.erase e }).claimGive e.1
    let x := s1.queue e.1
    let s2 := s1.setQueue e.1 { x with pendingCount := x.pendingCount - 1 }
    some (if x.pendingCount = 1 then s2.raiseFrom (17 + e.1.val) x.irq else s2)

end Sys2Proof.Machine
end

