-- ==== Sys2Proof/Machine/Streams.lean ====
section
/-!
DEFINITION. Stream engines (chapter 9): descriptors, run-ahead, tokens, windows, tags, store streams,
fences and counters, with the stream instructions and events.
-/
namespace Sys2Proof.Machine

def State.eng (s : State) (c : CoreId) (e : Nat) : Engine := vget (s.core c).str.eng e Engine.idle

def State.setEng (s : State) (c : CoreId) (e : Nat) (x : Engine) : State :=
  s.mapCore c fun k => { k with str := { k.str with eng := vset k.str.eng e x } }

/-- Counters of an engine changed by f. -/
def Engine.count (x : Engine) (f : StreamCounters → StreamCounters) : Engine := { x with cnt := f x.cnt }

def ceilDiv (a b : Nat) : Nat := (a + b - 1) / b

/-! ### Descriptors (R231, R232) -/

/-- A descriptor from its 128 bytes. -/
def parseStream (bs : List Byte) : StreamDesc :=
  { rlen := fieldNat bs 0 4, e1 := fieldNat bs 4 4, e2 := fieldNat bs 8 4, e3 := fieldNat bs 12 4,
    e4 := fieldNat bs 16 4, s1 := w64 (fieldNat bs 24 8), s2 := w64 (fieldNat bs 32 8),
    s3 := w64 (fieldNat bs 40 8), s4 := w64 (fieldNat bs 48 8), base := w64 (fieldNat bs 56 8),
    slen := fieldNat bs 64 4, sp := fieldNat bs 68 1, pk := fieldNat bs 69 1 % 2 == 1,
    cls := fieldNat bs 69 1 / 2 % 2 == 1, wbase := fieldNat bs 72 2, wsize := fieldNat bs 74 2,
    dlim := fieldNat bs 76 4, sbase := w64 (fieldNat bs 80 8), ss1 := w64 (fieldNat bs 88 8),
    ss2 := w64 (fieldNat bs 96 8), ss3 := w64 (fieldNat bs 104 8), ss4 := w64 (fieldNat bs 112 8) }

/-- A reserved field of a descriptor is not zero. -/
def streamReserved (bs : List Byte) : Bool :=
  fieldNat bs 20 4 != 0 || fieldNat bs 69 1 / 4 != 0 || fieldNat bs 70 2 != 0 || fieldNat bs 120 8 != 0

def StreamDesc.records (d : StreamDesc) : Nat := d.e1 * d.e2 * d.e3 * d.e4
def StreamDesc.bytes (d : StreamDesc) : Nat := d.records * d.rlen

/-- Indices of record j, dimension 1 fastest. -/
def StreamDesc.indices (d : StreamDesc) (j : Nat) : Nat × Nat × Nat × Nat :=
  (j % d.e1, j / d.e1 % d.e2, j / d.e1 / d.e2 % d.e3, j / d.e1 / d.e2 / d.e3)

/-- Address of record j of a stream opened at `o` (R232). -/
def StreamDesc.recAddr (d : StreamDesc) (o : Word) (j : Nat) : Nat :=
  let (i1, i2, i3, i4) := d.indices j
  (o + d.base + w64 i1 * d.s1 + w64 i2 * d.s2 + w64 i3 * d.s3 + w64 i4 * d.s4).toNat

/-- Address of the scale record of record j. -/
def StreamDesc.scaleAddr (d : StreamDesc) (o : Word) (j : Nat) : Nat :=
  let (i1, i2, i3, i4) := d.indices j
  (o + d.sbase + w64 (i1 / 2 ^ d.sp) * d.ss1 + w64 i2 * d.ss2 + w64 i3 * d.ss3 + w64 i4 * d.ss4).toNat

/-- Bytes of the scale record that goes with record j; 0 for none. -/
def StreamDesc.scaleLen (d : StreamDesc) (j : Nat) : Nat :=
  if j % d.e1 % 2 ^ d.sp = 0 then d.slen else 0

/-- Window units of record j with its scale record, pk = 0 (R234). -/
def StreamDesc.units (d : StreamDesc) (j : Nat) : Nat := ceilDiv d.rlen 64 + ceilDiv (d.scaleLen j) 64

/-- R233 step 3 for the starting position. -/
def StreamDesc.badStart (d : StreamDesc) (g : Nat) : Bool :=
  decide (d.bytes < g) || (!d.pk && g % d.rlen != 0)

/-- R233 step 3 for the descriptor. -/
def StreamDesc.bad (d : StreamDesc) (store : Bool) : Bool :=
  d.rlen == 0 || decide (2 ^ 20 < d.rlen) || d.e1 == 0 || d.e2 == 0 || d.e3 == 0 || d.e4 == 0 ||
  decide (5 < d.sp) || decide (4096 < d.slen) || d.wsize == 0 || (store && d.dlim != 0) ||
  (!store && d.cls) || (d.pk && d.slen != 0) ||
  decide (64 * d.wsize < (if d.pk then d.rlen else 64 * (ceilDiv d.rlen 64 + ceilDiv d.slen 64)))

/-- Windows of two streams share a unit. -/
def windowsMeet (d f : StreamDesc) : Bool :=
  decide (d.wbase < f.wbase + f.wsize ∧ f.wbase < d.wbase + d.wsize)

/-- First unit of the stream area (R229). -/
def CoreState.streamArea (x : CoreState) : Nat := 256 * x.tile.tblocks.toNat

/-- R233 step 4. -/
def CoreState.badWindow (x : CoreState) (e : Nat) (d : StreamDesc) : Bool :=
  decide ((vget x.str.eng e Engine.idle).st ≠ .idle) || decide (d.wbase < x.streamArea) ||
  decide (65536 < d.wbase + d.wsize) ||
  (List.range 6).any fun o =>
    o != e && decide ((vget x.str.eng o Engine.idle).st ≠ .idle) &&
    windowsMeet d (vget x.str.eng o Engine.idle).desc

/-- Lowest and one past the highest byte of a pattern, as integers (R233 step 6). -/
def patternHull (start : Int) (len : Nat) (dims : List (Nat × Int)) : Int × Int :=
  (dims.foldl (fun a d => a + min 0 ((d.1 - 1 : Int) * d.2)) start,
   dims.foldl (fun a d => a + max 0 ((d.1 - 1 : Int) * d.2)) start + len)

/-- Causes of one hull: bounds, then mapping. FABRIC is reported at the first hub byte, or at 0 by an issue check, which is made
for no single access (R491). -/
def State.hullCauses (s : State) (k : Cap) (r : BitVec 4) (issue : Bool) (h : Int × Int) : List Cause :=
  let a := (BitVec.ofInt 64 h.1).toNat
  let len := (h.2 - h.1).toNat
  capBoundsCauses k r (w64 a) len ++
  (match s.firstUnmapped a len with | none => [] | some x => [cUNMAPPED (w64 x) r]) ++
  (if k.has permFabric then [] else
    match s.firstHub a len with | none => [] | some x => [cCAPPERM (if issue then 0 else w64 x) r])

/-- Hulls of the records and of the scale records of a store stream. -/
def State.storeHullCauses (s : State) (k : Cap) (r : BitVec 4) (o : Word) (d : StreamDesc) : List Cause :=
  s.hullCauses k r true (patternHull (o + d.base).toNat d.rlen
    [(d.e1, d.s1.toInt), (d.e2, d.s2.toInt), (d.e3, d.s3.toInt), (d.e4, d.s4.toInt)]) ++
  (if d.slen = 0 then [] else
    s.hullCauses k r true (patternHull (o + d.sbase).toNat d.slen
      [((d.e1 - 1) / 2 ^ d.sp + 1, d.ss1.toInt), (d.e2, d.ss2.toInt), (d.e3, d.ss3.toInt),
       (d.e4, d.ss4.toInt)]))

/-- The stream has delivered, or written, every byte: the engine is idle (R228). -/
def Engine.endIfDone (x : Engine) : Engine :=
  if x.st = .active ∧ x.desc.bytes ≤ x.pos ∧ x.recs = [] ∧ x.reqs = [] ∧ x.desc.records ≤ x.next then
    { x with st := .idle }
  else x

/-- A stream whose descriptor lies at `at_` begins at byte position g. -/
def Engine.opened (x : Engine) (d : StreamDesc) (at_ : Word) (k : Cap) (r : BitVec 4) (o : Word) (g : Nat) : Engine :=
  { x with st := .active, desc := d, descAt := at_, kb := k, kbNum := r, origin := o, next := g / d.rlen, pos := g,
           recs := [], partData := [], partScale := [], queue := [], ringAt := g, lost := false }

/-- A later stream or tile instruction, in or out waits for the stream fences (R246). -/
def State.fencePending (s : State) (c : CoreId) : Bool := !(s.core c).str.fence.isEmpty

/-- R233: checks in order. -/
def State.openStream (s : State) (c : CoreId) (e : Nat) (kd kb : KReg) (g : GReg) : Effect :=
  let store := decide (4 ≤ e)
  let k := s.getK c kd
  match s.checkedReadMany c k (kNum kd) [permLoad] k.cursor 128 64 with
  | (s1, .inl cause) => .trap s1 cause
  | (s1, .inr bs) =>
    let d := parseStream bs
    let b := s1.getK c kb
    let pos := (s1.getG c g).toNat
    if streamReserved bs || d.bad store || d.badStart pos then .trap s1 (cDESCRIPTOR k.cursor)
    else if (s1.core c).badWindow e d then .trap s1 (cSTREAM (s1.pc c))
    else
      match firstCause (capUseCauses b (kNum kb) [if store then permStore else permLoad] 0) with
      | some cause => .trap s1 cause
      | none =>
        s1.orTrap (if store then s1.storeHullCauses b (kNum kb) b.cursor d else [])
          (.done (s1.setEng c e (((s1.eng c e).opened d k.cursor b (kNum kb) b.cursor pos).endIfDone)))

/-- R230, R233. -/
def execSopen (c : CoreId) (e : BitVec 3) (kd kb : KReg) (g : GReg) (s : State) :
    Host.Outcome State Fault Refusal :=
  s.issue c 8 fun t =>
    if t.fencePending c then .stay t
    else if 6 ≤ e.toNat then .trap t (cILLEGAL (t.pc c))
    else t.openStream c e.toNat kd kb g

/-! ### Windows (R234, R235) -/

def Engine.hasToken (x : Engine) : Bool := x.recs.any fun r => r.token.isSome

/-- Units that the bytes from position a to b of a packed stream touch. -/
def Engine.packedUnits (x : Engine) (a b : Nat) : Nat :=
  if b ≤ a then 0 else ceilDiv (b - x.ringAt) 64 - (a - x.ringAt) / 64

/-- First position whose byte is still in the window, and the position after the last byte requested. -/
def Engine.heldFrom (x : Engine) : Nat :=
  match x.recs with
  | [] => x.pos
  | r :: _ => r.idx * x.desc.rlen + r.rel

def Engine.heldTo (x : Engine) : Nat := if x.recs.isEmpty then x.pos else x.next * x.desc.rlen

/-- Units of a record, pk = 0, that its consumer has freed: whole units only. -/
def StreamRec.freedUnits (r : StreamRec) (rlen : Nat) : Nat := if r.rel = rlen then ceilDiv rlen 64 else r.rel / 64

/-- Units of the records, pk = 0. Freed in order: only the first can be freed in part. -/
def Engine.recUnits (x : Engine) (rs : List StreamRec) : Nat :=
  (rs.map fun r => x.desc.units r.idx).sum - (match rs with | [] => 0 | r :: _ => r.freedUnits x.desc.rlen)

/-- Units of a load stream's window in use (R234). -/
def Engine.loadUnits (x : Engine) : Nat :=
  if x.desc.pk then x.packedUnits x.heldFrom x.heldTo else x.recUnits x.recs

/-- Units with the next record. An empty packed window begins afresh at a unit (log entry 125). -/
def Engine.withNext (x : Engine) (a b : Nat) : Nat :=
  if b ≤ a then ceilDiv x.desc.rlen 64 else x.packedUnits a (b + x.desc.rlen)

/-- There is window space and dlim room for the next record (R235). -/
def Engine.hasRoom (x : Engine) : Bool :=
  let used := if x.desc.pk then x.withNext x.heldFrom x.heldTo else x.loadUnits + x.desc.units x.next
  let ahead := if x.desc.pk then x.withNext x.pos x.heldTo
    else x.recUnits (x.recs.filter fun r => r.taken.isNone) + x.desc.units x.next
  decide (used ≤ x.desc.wsize) && (x.desc.dlim == 0 || decide (ahead ≤ x.desc.dlim))

/-- A load stream may begin its next record. -/
def Engine.mayBegin (x : Engine) : Bool := decide (x.next < x.desc.records) && !x.hasToken && x.hasRoom

/-- The first record with bytes still to ask for; none past a record that holds a token (R238). -/
def Engine.asking (x : Engine) : Option StreamRec :=
  x.recs.find? fun r => r.toAsk != 0 && !x.recs.any fun t => t.token.isSome && decide (t.idx < r.idx)

/-! ### Tags and bank groups (R247, R248) -/

/-- Tags that requester e of the core holds: its engines, and the tile path as number 6, whose rows take and return theirs in
one step. -/
def CoreState.tagsOf (x : CoreState) (e : Nat) : Nat := (vget x.str.eng e Engine.idle).reqs.length

/-- Requester e has a request to issue. -/
def CoreState.asks (x : CoreState) (e : Nat) : Bool :=
  let y := vget x.str.eng e Engine.idle
  if e < 4 then decide (y.st = .active) && (y.asking.isSome || y.mayBegin)
  else if e < 6 then y.asking.isSome
  else match x.tile.op with
    | some (.tld _) => true
    | _ => x.tile.waitsAt == some x.pcc.cursor

/-- Tags kept for the other requesters that have a request to issue: 16 for each. -/
def CoreState.keptTags (x : CoreState) (e : Nat) : Nat :=
  ((List.range 7).map fun o => if o ≠ e ∧ x.asks o then 16 - x.tagsOf o else 0).sum

/-- Requester e may take a tag: sure of 16 of its own, and of no more than 128. -/
def State.mayTag (s : State) (c : CoreId) (e : Nat) : Bool :=
  let x := s.core c
  let l := s.ledger c.val
  l.canTake 1 && decide (x.tagsOf e < 128) && (decide (x.tagsOf e < 16) || decide (x.keptTags e < l.free.toNat))

/-- Bank group of the block at address a; none for hub buffers, and for staging SRAM, which has no banks (R268). -/
def State.bankOf (s : State) (a : Nat) : Option Nat :=
  match s.region a with
  | .dram st l => some (64 * st.val + bankGroup l)
  | _ => none

/-- The core holds fewer than 24 tags on requests to the group. -/
def State.bankFree (s : State) (c : CoreId) (b : Option Nat) : Bool :=
  match b with
  | none => true
  | some _ =>
    decide (((List.range 6).map fun e =>
      ((s.eng c e).reqs.filter fun q => q.bank == b).length).sum < 24)

/-! ### Requests (R235 to R237) -/

/-- Bytes of record j before the stream's starting position. -/
def Engine.skipOf (x : Engine) (j : Nat) : Nat := x.pos - j * x.desc.rlen

/-- Causes of the bytes [a, a + len) for a load stream: bounds, mapping, FABRIC, each with its first
failing byte (R237). -/
def State.streamCauses (s : State) (k : Cap) (r : BitVec 4) (a len : Nat) : List Cause :=
  if len = 0 then [] else s.hullCauses k r false ((a : Int), (a : Int) + len)

/-- Record j as it is requested: its token where a check fails (R237). -/
def State.newRecord (s : State) (x : Engine) (j : Nat) : StreamRec :=
  let d := x.desc
  let skip := x.skipOf j
  let a := (d.recAddr x.origin j + skip) % 2 ^ 64
  match firstCause (s.streamCauses x.kb x.kbNum a (d.rlen - skip) ++
      s.streamCauses x.kb x.kbNum (d.scaleAddr x.origin j) (d.scaleLen j)) with
  | some k =>
    { idx := j, data := [], scale := [], toAsk := 0, toCome := 0, token := some ⟨k.code, k.addr, x.kbNum, false⟩,
      taken := none, released := false, skip := 0, rel := 0 }
  | none =>
    { idx := j, data := List.replicate d.rlen 0, scale := List.replicate (d.scaleLen j) 0,
      toAsk := d.rlen - skip + d.scaleLen j, toCome := 0, token := none, taken := none, released := false,
      skip := skip, rel := skip }

/-- The next record is requested: its space is taken (R234). -/
def Engine.begun (x : Engine) (r : StreamRec) : Engine :=
  { x with recs := x.recs ++ [r], next := x.next + 1, ringAt := if x.heldTo ≤ x.heldFrom then x.pos else x.ringAt }

/-- Where the next byte to ask of a record lies: scale?, offset, address, bytes left there. -/
def Engine.nextAsk (x : Engine) (r : StreamRec) : Bool × Nat × Nat × Nat :=
  let sl := r.scale.length
  if sl < r.toAsk then
    let off := r.data.length + sl - r.toAsk
    (false, off, (x.desc.recAddr x.origin r.idx + off) % 2 ^ 64, r.toAsk - sl)
  else
    let off := sl - r.toAsk
    (true, off, (x.desc.scaleAddr x.origin r.idx + off) % 2 ^ 64, r.toAsk)

/-- A record of the engine replaced by its index. -/
def Engine.putRec (x : Engine) (r : StreamRec) : Engine :=
  { x with recs := x.recs.map fun o => if o.idx = r.idx then r else o }

/-- Pieces of one request, all in the 2 KiB block, in record order (R236). `begin_` gives the next record
where one may begin and joins. -/
def Engine.gather (begin_ : Engine → Option StreamRec) (block : Nat) :
    Nat → Engine → List ReqPiece → Engine × List ReqPiece
  | 0, x, ps => (x, ps)
  | fuel + 1, x, ps =>
    match x.asking with
    | some r =>
      let (isScale, off, a, left) := x.nextAsk r
      if a / 2048 ≠ block then (x, ps)
      else
        let n := min left (2048 - a % 2048)
        let x1 := x.putRec { r with toAsk := r.toAsk - n, toCome := r.toCome + n }
        Engine.gather begin_ block fuel x1 (ps ++ [⟨r.idx, isScale, off, a, n⟩])
    | none =>
      match begin_ x with
      | none => (x, ps)
      | some r =>
        if r.token.isSome ∨ (x.nextAsk r).2.2.1 / 2048 ≠ block then (x, ps)
        else Engine.gather begin_ block fuel (x.begun r) ps

/-- Turns enough for one request: a packed window holds no more records than bytes, and each takes a turn to begin and one for
each of its parts. -/
def Engine.gatherFuel (x : Engine) : Nat := 4 * (64 * x.desc.wsize + x.recs.length + 1)

/-- A request leaves: it takes a tag (R247). -/
def State.sendRequest (s : State) (c : CoreId) (e : Nat) (x : Engine) (begin_ : Engine → Option StreamRec) :
    State × Bool :=
  match x.asking with
  | none => (s, false)
  | some r =>
    let a := (x.nextAsk r).2.2.1
    let b := s.bankOf a
    if s.mayTag c e && s.bankFree c b then
      let (x1, ps) := Engine.gather begin_ (a / 2048) x.gatherFuel x []
      ((s.poolTake c.val 1).setEng c e { x1 with reqs := x1.reqs ++ [⟨ps, b, (s.region a).stack?, false⟩] }, true)
    else (s, false)

/-- R235 to R238: one request, or the record whose check fails takes its token. -/
def State.streamRequest (s : State) (c : CoreId) (e : Nat) : State :=
  let x := s.eng c e
  let begin_ := fun y : Engine => if y.mayBegin then some (s.newRecord y y.next) else none
  if !s.coreRuns c || decide (x.st ≠ .active) then s
  else
    match x.asking with
    | some _ => (s.sendRequest c e x begin_).1
    | none =>
      match begin_ x with
      | none => s
      | some r =>
        let x1 := x.begun r
        if r.token.isSome then s.setEng c e x1
        else
          match s.sendRequest c e x1 begin_ with
          | (s1, true) => s1
          | (_, false) => s

/-- R235. -/
def execStreamRequest (c : CoreId) (e : Fin 4) (s : State) : Host.Outcome State Fault Refusal :=
  .next (s.streamRequest c e.val)

/-- Bytes of a list replaced from offset o. -/
def overwrite (bs : List Byte) (o : Nat) (new : List Byte) : List Byte :=
  bs.take o ++ new ++ bs.drop (o + new.length)

/-- One piece arrives: its bytes, or POISON as a token (R237, R261). -/
def State.pieceArrives (s : State) (x : Engine) (p : ReqPiece) : State × Engine :=
  let lo := p.addr / 64 * 64
  let s1 := s.settle lo (ceilDiv (p.addr + p.len) 64 * 64 - lo) 0
  match x.recs.find? fun r => r.idx == p.idx with
  | none => (s1, x)
  | some r =>
    let bs := s1.homeBytes p.addr p.len
    let r1 := { r with toCome := r.toCome - p.len,
                       data := if p.isScale then r.data else overwrite r.data p.off bs,
                       scale := if p.isScale then overwrite r.scale p.off bs else r.scale }
    match r.token, s1.firstPoison p.addr p.len with
    | none, some a => (s1, x.putRec { r1 with token := some ⟨18, w64 a, x.kbNum, false⟩ })
    | _, _ => (s1, x.putRec r1)

/-- R237, R247: the oldest request's data reaches the stream buffer and its tag returns. -/
def State.dataArrives (s : State) (c : CoreId) (e : Nat) : State :=
  let x := s.eng c e
  match x.reqs with
  | [] => s
  | q :: qs =>
    let n := (q.pieces.map fun p => p.len).sum
    let x1 := { x with reqs := qs }
    let r :=
      if q.dead ∨ (s.core c).cond = .fenced then
        (s, x1.count fun k => { k with discarded := k.discarded + w64 n })
      else q.pieces.foldl (fun a p => a.1.pieceArrives a.2 p) (s, x1)
    ((r.1.setEng c e r.2).passCredits c q.stk 1).tagsReturn c 1

/-- R237. -/
def execStreamDataArrival (c : CoreId) (e : Fin 4) (s : State) : Host.Outcome State Fault Refusal :=
  .next (s.dataArrives c e.val)

/-! ### Consumers and release (R234, R242) -/

/-- The record is whole in the stream buffer. -/
def StreamRec.whole (r : StreamRec) : Bool := r.toAsk == 0 && r.toCome == 0

/-- The first record no consumer has taken. -/
def Engine.front (x : Engine) : Option StreamRec := x.recs.find? fun r => r.taken.isNone

/-- A tile instruction takes a record (R242). -/
def Engine.take (x : Engine) (r : StreamRec) (seq : Nat) : Engine :=
  { x.putRec { r with taken := some seq } with pos := (r.idx + 1) * x.desc.rlen }

/-- Bytes moved for the record: its data from the starting position on, and its scale record. -/
def StreamRec.size (r : StreamRec) : Nat := r.data.length - r.skip + r.scale.length

/-- Bytes of a record that its release gives back. -/
def StreamRec.unreleased (r : StreamRec) : Nat := r.data.length - r.rel + r.scale.length

/-- Records that satisfy p are released by their consumer; their bytes are counted as consumed (R234, R251). -/
def Engine.release (x : Engine) (p : StreamRec → Bool) : Engine :=
  let n := ((x.recs.filter fun r => p r && !r.released).map StreamRec.unreleased).sum
  ({ x with recs := x.recs.map fun r => if p r then { r with released := true } else r } : Engine).count fun k =>
    { k with consumed := k.consumed + w64 n }

/-- Released records at the head of the ring leave it (R234). -/
def Engine.free (x : Engine) : Engine :=
  ({ x with recs := x.recs.dropWhile fun r => r.released } : Engine).endIfDone

/-- R234, R228. -/
def execStreamUnitRelease (c : CoreId) (e : Fin 4) (s : State) : Host.Outcome State Fault Refusal :=
  .next (s.setEng c e.val (s.eng c e.val).free)

/-! ### Store streams (R244, R245) -/

/-- Complete records cut from the accepted bytes; the first may begin at the stream's starting position (R244). -/
def Engine.cut : Nat → Engine → Engine
  | 0, x => x
  | fuel + 1, x =>
    let d := x.desc
    let sl := d.scaleLen x.next
    let off := x.pos - x.partData.length - x.next * d.rlen
    let need := d.rlen - off
    if x.next < d.records ∧ need ≤ x.partData.length ∧ sl ≤ x.partScale.length then
      Engine.cut fuel
        { x with recs := x.recs ++ [⟨x.next, List.replicate off 0 ++ x.partData.take need, x.partScale.take sl, need + sl, 0,
                                     none, none, false, off, off⟩]
                 next := x.next + 1, partData := x.partData.drop need,
                 partScale := x.partScale.drop sl }
    else x

/-- First position of a store stream's window. -/
def Engine.storeFrom (x : Engine) : Nat :=
  match x.recs with
  | [] => x.pos - x.partData.length
  | r :: _ => r.idx * x.desc.rlen + r.skip

/-- One past the last position in a store stream's window: a cancel gives up what follows the records it keeps (R241). -/
def Engine.storeTo (x : Engine) : Nat :=
  if x.st = .active then x.pos
  else match x.recs.getLast? with
    | none => x.storeFrom
    | some r => (r.idx + 1) * x.desc.rlen

/-- Records that have taken units and are not cut yet. -/
def Engine.openRecs (x : Engine) : Nat := if x.st = .active then ceilDiv x.pos x.desc.rlen - x.next else 0

/-- Units of a store stream's window in use: a record takes its units with its first byte (log entry 30). -/
def Engine.storeUnits (x : Engine) : Nat :=
  if x.desc.pk then x.packedUnits x.storeFrom x.storeTo
  else (x.recs.map fun r => x.desc.units r.idx).sum + ((List.range x.openRecs).map fun i => x.desc.units (x.next + i)).sum

/-- Units of the window in use (R234, R244). -/
def Engine.unitsUsed (x : Engine) (store : Bool) : Nat := if store then x.storeUnits else x.loadUnits

/-- Bytes of whole records from record j on that fit beside `used` units, pk = 0. -/
def StreamDesc.roomFrom (d : StreamDesc) : Nat → Nat → Nat → Nat
  | 0, _, _ => 0
  | fuel + 1, j, used =>
    if used + d.units j ≤ d.wsize ∧ j < d.records then d.rlen + d.roomFrom fuel (j + 1) (used + d.units j) else 0

/-- Bytes the window takes now. A packed window that holds no whole record takes the rest of its record (log entry 125). -/
def Engine.storeRoom (x : Engine) : Nat :=
  let d := x.desc
  if d.pk then
    let f := x.storeFrom
    let strict := if x.pos ≤ f then 64 * d.wsize
      else x.ringAt + (f - x.ringAt) / 64 * 64 + 64 * d.wsize - x.pos
    if x.recs.isEmpty then max strict ((x.next + 1) * d.rlen - x.pos) else strict
  else
    let open_ := ceilDiv x.pos d.rlen
    open_ * d.rlen - x.pos + d.roomFrom (d.wsize + 1) open_ x.storeUnits

/-- Waiting bytes enter the window while there is room, and are cut into records (R244). -/
def Engine.push (x : Engine) : Engine :=
  let n := min x.queue.length x.storeRoom
  let x1 := { x with pos := x.pos + n, partData := x.partData ++ x.queue.take n, queue := x.queue.drop n,
                     ringAt := if x.pos ≤ x.storeFrom then x.pos else x.ringAt }
  Engine.cut (x1.partData.length + 1) x1

/-- Scale bytes of the records before record j. -/
def StreamDesc.scaleBefore (d : StreamDesc) (j : Nat) : Nat :=
  d.slen * (j / d.e1 * ceilDiv d.e1 (2 ^ d.sp) + ceilDiv (j % d.e1) (2 ^ d.sp))

/-- Scale bytes accepted so far. -/
def Engine.scaleGot (x : Engine) : Nat := x.desc.scaleBefore x.next + x.partScale.length

/-- Requests of a store stream leave while tags and bank groups allow. -/
def State.storeIssue (s : State) (c : CoreId) (e : Nat) : Nat → State
  | 0 => s
  | fuel + 1 =>
    match s.sendRequest c e (s.eng c e) (fun _ => none) with
    | (s1, true) => s1.storeIssue c e fuel
    | (_, false) => s

/-- A producer gives data and scale bytes; what runs past the end is discarded and counted (R244). -/
def Engine.offer (x : Engine) (data scale : List Byte) : Engine :=
  let kept := data.take (x.desc.bytes - x.pos - x.queue.length)
  let keptScale := scale.take (x.desc.scaleBefore x.desc.records - x.scaleGot)
  ({ x with queue := x.queue ++ kept, partScale := x.partScale ++ keptScale } : Engine).count fun k =>
    { k with discarded := k.discarded + w64 (data.length - kept.length + (scale.length - keptScale.length)) }

/-- What the window takes of it now; the producer stalls while bytes wait (R13, R244). -/
def State.storeAccept (s : State) (c : CoreId) (e : Nat) (data scale : List Byte) : State :=
  let x := s.eng c e
  if x.st ≠ .active then
    s.setEng c e (x.count fun k => { k with discarded := k.discarded + w64 (data.length + scale.length) })
  else (s.setEng c e (x.offer data scale).push).storeIssue c e 192

/-- The producer of the engine stalls: bytes it gave still wait for the window. -/
def State.storeFull (s : State) (c : CoreId) (e : Nat) : Bool := !(s.eng c e).queue.isEmpty

/-- The bytes one piece of a store request writes. -/
def Engine.pieceBytes (x : Engine) (p : ReqPiece) : List Byte :=
  match x.recs.find? fun r => r.idx == p.idx with
  | none => []
  | some r => ((if p.isScale then r.scale else r.data).drop p.off).take p.len

/-- Bytes of [a, a + len) that a write reaches: all but those of a fenced stack whose line no L2 slice holds (R254, R278). -/
def State.reaching (s : State) (a len : Nat) : Nat :=
  if (s.homeStack a).any s.stackFenced then ((List.range len).filter fun i => s.l2Has false ((a + i) / 128)).length else len

/-- One piece is written, and its bytes counted, or discarded: by a fenced stack, and after such a discard (R245, R251,
R278). -/
def State.pieceWritten (s : State) (x : Engine) (p : ReqPiece) : State × Engine :=
  let n := if x.lost then 0 else s.reaching p.addr p.len
  let s1 := if x.lost then s else s.writeHome p.addr (x.pieceBytes p)
  let x1 := ({ x with lost := x.lost || decide (n < p.len) } : Engine).count fun k => { k with consumed := k.consumed + w64 n }
  match x.recs.find? fun r => r.idx == p.idx with
  | none => (s1, x1)
  | some r => (s1, x1.putRec { r with toCome := r.toCome - p.len })

/-- Written records leave the window. -/
def Engine.dropWritten (x : Engine) : Engine := { x with recs := x.recs.dropWhile fun r => r.whole }

/-- R245: the oldest request's write is acknowledged and its tag returns; the space it frees takes waiting bytes. -/
def State.writeAcked (s : State) (c : CoreId) (e : Nat) : State :=
  let s0 := if s.coreRuns c then s.storeIssue c e 192 else s
  let x := s0.eng c e
  match x.reqs with
  | [] => s0
  | q :: qs =>
    let r := q.pieces.foldl (fun a p => a.1.pieceWritten a.2 p) (s0, { x with reqs := qs })
    let x1 := r.2.dropWritten
    let x2 := if s.coreRuns c && decide (x1.st = .active) then x1.push else x1
    let s1 := ((r.1.setEng c e x2.endIfDone).passCredits c q.stk 1).tagsReturn c 1
    if s1.coreRuns c then s1.storeIssue c e 192 else s1

/-- R245. -/
def execStoreStreamWriteAck (c : CoreId) (e : Fin 2) (s : State) : Host.Outcome State Fault Refusal :=
  .next (s.writeAcked c (4 + e.val))

/-! ### Cancel and restart (R240, R241) -/

/-- Bytes of a record that have arrived. -/
def StreamRec.arrived (r : StreamRec) : Nat := r.size - r.toAsk - r.toCome

/-- The buffered records of a load stream go; requests in flight are dead; tokens never raised and
fetched bytes are counted as discarded, consumed ones as consumed (R240, R241, R251). -/
def Engine.discardAll (x : Engine) : Engine :=
  let lost := x.recs.filter fun r => r.taken.isNone
  let used := x.recs.filter fun r => r.taken.isSome && !r.released
  let toks := (x.recs.filter fun r => match r.token with | none => false | some t => !t.raised).length
  ({ x with recs := [], reqs := x.reqs.map fun q => { q with dead := true } } : Engine).count fun k =>
    { k with discarded := k.discarded + w64 ((lost.map fun r => r.arrived - (r.rel - r.skip)).sum),
             consumed := k.consumed + w64 ((used.map StreamRec.unreleased).sum),
             tokDiscarded := k.tokDiscarded + w32 toks }

/-- A store stream keeps the records whose first request has issued (R241). -/
def Engine.cancelStore (x : Engine) : Engine :=
  let kept := x.recs.filter fun r => decide (r.toAsk < r.size)
  let lost := x.recs.filter fun r => decide (r.size ≤ r.toAsk)
  let n := (lost.map StreamRec.size).sum + x.partData.length + x.partScale.length + x.queue.length
  ({ x with recs := kept, partData := [], partScale := [], queue := [] } : Engine).count fun k =>
    { k with discarded := k.discarded + w64 n }

/-- One engine starts to cancel; an idle one does nothing (R241). -/
def Engine.cancel (x : Engine) (store : Bool) : Engine :=
  if x.st = .idle then x
  else { (if store then x.cancelStore else x.discardAll) with st := .cancelling }

/-- Drains that deliver to a cancelled store engine give their further output to nobody (R241). -/
def Drain.unplug (d : Drain) (e : Nat) : Drain :=
  match d.dest with
  | .store f => if 4 + f.val = e then { d with dest := .dropped f } else d
  | _ => d

def State.cancelEngine (s : State) (c : CoreId) (e : Nat) : State :=
  let s1 := s.setEng c e ((s.eng c e).cancel (decide (4 ≤ e)))
  s1.mapCore c fun x => { x with tile := { x.tile with drains := x.tile.drains.map fun d => d.unplug e } }

/-- Every engine that was to be cancelled is idle. -/
def CoreState.cancelled (x : CoreState) : Bool :=
  (List.range 6).all fun e => decide ((vget x.str.eng e Engine.idle).st ≠ .cancelling)

def State.setWait (s : State) (c : CoreId) (w : StreamWait) : State :=
  s.mapCore c fun x => { x with str := { x.str with wait := w } }

/-- R241: the instruction completes when the last engine is idle. -/
def execScancel (c : CoreId) (mask : BitVec 6) (s : State) : Host.Outcome State Fault Refusal :=
  s.issue c 8 fun t =>
    let t1 := (List.range 6).foldl (fun u e => if mask.getLsbD e then u.cancelEngine c e else u) t
    if (t1.core c).cancelled then .done t1 else .stay (t1.setWait c .cancel)

/-- A waiting stream instruction completes. -/
def State.waitOver (s : State) (c : CoreId) : State :=
  (s.setWait c .none).retire c (s.pc c) 8 (s.core c).ctl.status.ss

/-- R241. -/
def execScancelComplete (c : CoreId) (e : Fin 6) (s : State) : Host.Outcome State Fault Refusal :=
  let x := s.eng c e.val
  if x.st = .cancelling ∧ x.reqs = [] ∧ x.recs = [] then
    let s1 := s.setEng c e.val { x with st := .idle }
    if (s1.core c).str.wait = .cancel ∧ (s1.core c).cancelled ∧ s1.coreRuns c then .next (s1.waitOver c)
    else .next s1
  else .next s

/-- R240: checks of srestart, DESCRIPTOR before STREAM_STATE (R108), then everything buffered goes. -/
def execSrestart (c : CoreId) (e : BitVec 3) (g : GReg) (s : State) : Host.Outcome State Fault Refusal :=
  s.issue c 8 fun t =>
    if t.fencePending c then .stay t
    else if 6 ≤ e.toNat then .trap t (cILLEGAL (t.pc c))
    else
      let x := t.eng c e.toNat
      let pos := (t.getG c g).toNat
      if x.st ≠ .idle ∧ x.desc.badStart pos then .trap t (cDESCRIPTOR x.descAt)
      else if x.st ≠ .active ∨ 4 ≤ e.toNat then .trap t (cSTREAM (t.pc c))
      else
        let x1 := { x.discardAll with st := .restarting, resume := pos }
        .stay ((t.setEng c e.toNat x1).setWait c (.restart (Fin.ofNat 4 e.toNat)))

/-- R240: the stream resumes at its new position. -/
def execSrestartComplete (c : CoreId) (e : Fin 4) (s : State) : Host.Outcome State Fault Refusal :=
  let x := s.eng c e.val
  if x.st = .restarting ∧ x.reqs = [] then
    let x1 := { x with st := .active, next := x.resume / x.desc.rlen, pos := x.resume }
    let s1 := s.setEng c e.val x1.endIfDone
    if (s1.core c).str.wait = .restart e ∧ s1.coreRuns c then .next (s1.waitOver c) else .next s1
  else .next s

/-! ### Stream fences (R246) -/

/-- Formats that have block-scaled tensors, and the elements of a block (R38, R39). -/
def blockLen : Fmt → Option Nat
  | .fp16 => some 128
  | .e4m3 | .e5m2 | .e3m2 | .e2m3 | .e2m1 | .int8 => some 32
  | _ => none

def cfgBp (cfg : BitVec 8) : Bool := cfg.getLsbD 3

/-- The format of a drain. -/
def Drain.format (d : Drain) : Fmt := (Fmt.ofCode d.fmt).getD .fp32

/-- Bytes of one output row. -/
def Drain.rowBytes (d : Drain) : Nat := d.n * d.format.bits / 8

/-- Scale bytes of one row. -/
def Drain.scaleBytes (d : Drain) : Nat := d.n / (blockLen d.format).getD 32

/-- Data and scale bytes the drains in progress still give to store engine e. -/
def CoreState.drainBytes (x : CoreState) (e : Nat) : Nat × Nat :=
  x.tile.drains.foldl (fun a d =>
    match d.dest with
    | .store f =>
      if 4 + f.val = e then
        let rows := d.m - min d.m (128 * d.done + d.row)
        (a.1 + rows * d.rowBytes, a.2 + rows * (if cfgBp d.cfg then d.scaleBytes else 0))
      else a
    | _ => a) (0, 0)

/-- Data position and scale bytes up to which engine e must have written for a fence issued now. -/
def CoreState.fenceMark (x : CoreState) (e : Nat) (named : Bool) : Nat × Nat :=
  let y := vget x.str.eng e Engine.idle
  if named ∧ y.st = .active then
    let d := x.drainBytes e
    (min y.desc.bytes (y.pos + y.queue.length + d.1), min (y.desc.scaleBefore y.desc.records) (y.scaleGot + d.2))
  else (0, 0)

/-- R246: later sopen, srestart, tld, accsave, accrestore, in and out wait; the rest, a later sfence too, issue freely. -/
def execSfence (c : CoreId) (fm : BitVec 3) (s : State) : Host.Outcome State Fault Refusal :=
  s.issue c 8 fun t =>
    .done (t.mapCore c fun x =>
      let a := x.fenceMark 4 (fm.getLsbD 0)
      let b := x.fenceMark 5 (fm.getLsbD 1)
      { x with str := { x.str with fence := x.str.fence ++ [⟨a.1, a.2, b.1, b.2⟩] } })

/-- Record below which everything of the store stream is written. -/
def Engine.writtenRec (x : Engine) : Nat :=
  match x.recs with
  | [] => x.next
  | r :: _ => r.idx

/-- Store engine e has written up to the marks, or holds no stream. -/
def Engine.reached (x : Engine) (mark scale : Nat) : Bool :=
  decide (x.st = .idle) ||
  (decide (mark ≤ x.writtenRec * x.desc.rlen) && decide (scale ≤ x.desc.scaleBefore x.writtenRec))

/-- R246: fences whose bytes are all written complete. -/
def execSfenceComplete (c : CoreId) (s : State) : Host.Outcome State Fault Refusal :=
  .next (s.mapCore c fun x => { x with str := { x.str with fence := x.str.fence.filter fun f =>
    !((s.eng c 4).reached f.pos4 f.scale4 && (s.eng c 5).reached f.pos5 f.scale5) } })

/-! ### State words and counters (R250, R251) -/

/-- The first token of an engine, with its record. -/
def Engine.tokenRec (x : Engine) : Option (StreamRec × Token) :=
  x.recs.findSome? fun r => r.token.map fun t => (r, t)

/-- Word w of engine e (R250). -/
def Engine.stateWord (x : Engine) (e : Nat) (w : BitVec 2) : Word :=
  match w.toNat with
  | 0 =>
    let st := match x.st with
      | .idle => 0
      | .active => if x.hasToken then 2 else 1
      | _ => 3
    w64 (st + 4 * bit (decide (4 ≤ e)) + 8 * (x.reqs.length % 256) + 65536 * (min (x.unitsUsed (decide (4 ≤ e))) 65535))
  | 1 => w64 x.pos
  | 2 =>
    match x.tokenRec with
    | none => BitVec.allOnes 64
    | some (r, _) => w64 (r.idx * x.desc.rlen)
  | _ =>
    match x.tokenRec with
    | none => 0
    | some (_, t) => t.addr

/-- R250. -/
def execSstat (c : CoreId) (g : GReg) (e : BitVec 3) (w : BitVec 2) (s : State) :
    Host.Outcome State Fault Refusal :=
  s.issue c 8 fun t =>
    if 6 ≤ e.toNat then .trap t (cILLEGAL (t.pc c))
    else t.doneG c g ((t.eng c e.toNat).stateWord e.toNat w)

/-- Bytes requested beyond the consumer's position; for a store engine, bytes requested and not yet written. -/
def Engine.depth (x : Engine) (store : Bool) : Nat :=
  if store then (x.recs.map fun r => r.toCome).sum
  else ((x.recs.filter fun r => r.taken.isNone).map fun r => r.size - r.toAsk - (r.rel - r.skip)).sum

/-- Depth bucket (R251). -/
def depthBucket (n : Nat) : Nat :=
  if n = 0 then 0
  else if n ≤ 16384 then 1
  else if n ≤ 65536 then 2
  else if n ≤ 131072 then 3
  else if n ≤ 262144 then 4
  else if n ≤ 524288 then 5
  else if n ≤ 1048576 then 6
  else 7

/-- R251: sampled while the engine is active. -/
def execDepthSample (c : CoreId) (e : Fin 6) (s : State) : Host.Outcome State Fault Refusal :=
  let x := s.eng c e.val
  if x.st = .active then
    let h := depthBucket (x.depth (decide (4 ≤ e.val)))
    .next (s.setEng c e.val (x.count fun k => { k with depth := vset k.depth h (vget k.depth h 0 + 1) }))
  else .next s

end Sys2Proof.Machine
end

