-- ==== Sys2Proof/Machine/CoreReset.lean ====
section
/-!
DEFINITION. Stopping a core and starting it again: the steps of R397, which a core reset and a power-down (R431)
share, Rowan's engine queue as far as a core reset reaches it (R424, R425), and the core reset commands.
-/
namespace Sys2Proof.Machine

/-! ### Rowan's engine (R424, R425, R465) -/

def State.mapRowan (s : State) (f : Rowan → Rowan) : State := { s with rowan := f s.rowan }

/-- A step of the handshake waits for the engine or runs on it. -/
def HsStage.onEngine : HsStage → Bool
  | .signing => true
  | .checking _ => true
  | .challenged _ => false

/-- The lifecycle (R407). -/
def Rowan.lifecycle (r : Rowan) : Lifecycle :=
  if r.lcBits.getLsbD 1 then .decommissioned else if r.lcBits.getLsbD 0 then .secured else .blank

/-- id_pub: the public point of the identity key; zeros where none is derived (R408, R422; log entry 99). -/
def Rowan.idPub (r : Rowan) : List Byte := match r.idKey with | none => List.replicate 133 0 | some k => Config.publicPoint k

def Lifecycle.code : Lifecycle → Nat
  | .blank => 0
  | .secured => 1
  | .decommissioned => 2

/-- Registers a mask selects, ascending. -/
def maskedRegs (mask : BitVec 8) : List (Fin 8) := (List.finRange 8).filter fun i => mask.getLsbD i.val

/-- Bytes 0 to 87 + 64 p of a quote, copied as it starts (R425). -/
def State.quoteBytes (s : State) (mask : BitVec 8) (nonce : BitVec 512) : List Byte :=
  leBytes 4 0x31544F51 ++ leBytes 2 1 ++ leBytes 2 s.fab.devId.val.toNat ++
  leBytes 1 s.rowan.lifecycle.code ++ leBytes 1 mask.toNat ++ leBytes 1 s.rowan.svn ++ leBytes 5 0 ++
  leBytes 8 s.time ++ leBytes 64 nonce.toNat ++
  (maskedRegs mask).flatMap fun i => leBytes 64 (s.rowan.meas[i]).toNat

/-- A handshake step comes before the oldest waiting quote. -/
def State.hsFirst (s : State) : Bool :=
  match s.mgmt.hs with
  | none => false
  | some h => h.stage.onEngine && h.ahead == 0

/-- The engine takes the oldest waiting quote where it is free (R424, R425, R465). -/
def State.startQuote (s : State) : State :=
  match s.rowan.signing, s.rowan.quotes with
  | none, (w, mask, nonce) :: qs =>
    if s.hsFirst then s
    else
      let s1 := s.mapRowan fun r => { r with quotes := qs, signing := some (w, s.quoteBytes mask nonce) }
      { s1 with mgmt := { s1.mgmt with hs := s1.mgmt.hs.map fun h => { h with ahead := h.ahead - 1 } } }
  | _, _ => s

/-- Quotes of core c that wait or are signed are discarded by its reset (R425). -/
def State.dropQuotes (s : State) (c : CoreId) : State :=
  let before := (s.rowan.quotes.take (match s.mgmt.hs with | none => 0 | some h => h.ahead)).filter
    fun q => decide (q.1 ≠ some c)
  let s1 := s.mapRowan fun r =>
    { r with quotes := r.quotes.filter fun q => decide (q.1 ≠ some c),
             signing := match r.signing with
                        | none => none
                        | some q => if q.1 = some c then none else some q }
  let s2 : State := { s1 with mgmt := { s1.mgmt with hs := s1.mgmt.hs.map fun h => { h with ahead := before.length } } }
  s2.startQuote

/-! ### Stopping (R397 steps 1, 3, 4, 5) -/

/-- Engines of core c that hold a stream. -/
def CoreState.openStreams (x : CoreState) : Nat :=
  ((List.range 6).filter fun e => decide ((vget x.str.eng e Engine.idle).st ≠ .idle)).length

/-- R397 steps 3 and 4 begin: streams are cancelled, items requeued; the mark of a collective wait goes (R442). -/
def State.quietCore (s : State) (c : CoreId) : State :=
  (((List.range 6).foldl (fun u e => u.cancelEngine c e) s).requeueItems c).mapCore c fun x =>
    { x with wdTicks := 0, wdWarned := false, pow := { x.pow with mark := false } }

/-- What a cancelled store stream still writes is written. -/
def State.finishStore (s : State) (c : CoreId) (e : Nat) : Nat → State
  | 0 => s
  | fuel + 1 =>
    let s1 := s.storeIssue c e 192
    if (s1.eng c e).reqs.isEmpty then s1 else (s1.writeAcked c e).finishStore c e fuel

/-- Tags that the load engines of core c hold. -/
def CoreState.loadTags (x : CoreState) : Nat := ((List.range 4).map fun e => x.tagsOf e).sum

/-- Dirty lines of core c go home (R397 step 5). -/
def State.flushL1 (s : State) (c : CoreId) : State :=
  let k := (s.core c).cache
  (k.l1 ++ k.victim ++ k.miss.toList).foldl (fun t l => if l.dirty then t.writeBack l.addr l.line else t) s

/-- R397 steps 3 and 5 end: no stream, no tag held, no dirty line. -/
def State.settleCore (s : State) (c : CoreId) : State :=
  let s1 := (s.tagsReturn c (s.core c).loadTags).mapCore c fun x =>
    { x with str := { x.str with eng := x.str.eng.mapFinIdx fun e k _ => if e < 4 then { k with reqs := [], recs := [] } else k } }
  ((s1.finishStore c 4 8200).finishStore c 5 8200).flushL1 c

/-! ### Starting (R397 steps 6 to 8, R96, R396) -/

/-- Counters of an engine outlive a core reset (R251). -/
def Engine.resetKeep (x : Engine) : Engine := { Engine.idle with cnt := x.cnt }

/-- Windows of core c after its reset: the "After CORE" columns. -/
def Windows.coreReset (w : Windows) : Windows :=
  { w with recSel := 0, recSnap := Vector.replicate 8 0, att := AttWindow.reset, descSel := 0 }

/-- Registers, accumulators and buffers at their reset values, fetch at boot_addr. -/
def CoreState.coreReset (x : CoreState) : CoreState :=
  { CoreState.reset x.phys with
    pcc := capRoot x.win.bootAddr
    tile := { Tiles.reset with qc := x.tile.qc }
    str := { Streams.reset with eng := vmap x.str.eng Engine.resetKeep }
    cond := .running, ownFault := x.ownFault, win := x.win.coreReset
    pow := { x.pow with mark := false } }

/-- R397 steps 6 to 8. -/
def State.restartCore (s : State) (c : CoreId) : State :=
  (s.mapCore c CoreState.coreReset).dropQuotes c

/-! ### The core reset commands -/

/-- The domain of core c is ON; that of a fenced or absent core is LOCKED_OFF (R430). -/
def State.coreOn (s : State) (c : CoreId) : Bool :=
  decide ((vget s.pow.domains c.val ⟨.off, false, false, 0, 0⟩).phase = .on) && (s.core c).fenceable

/-- A write of core_rst; none is RANGE (R394, R395, R397, R431). The record is written at the start. -/
def State.coreRstCmd (s : State) (c : CoreId) (v : Nat) : Option State :=
  let x := s.core c
  if v = 0 then some s
  else if v ≠ 1 ∨ x.cond = .fenced ∨ x.cond = .held ∨ s.coreOn c = false then none
  else if x.cond = .resetting then some s
  else
    let s1 := s.setTarget c.val { s.targetBlock c.val with pending := [], inService := [], thresh := 0 }
    let s2 := (s1.quietCore c).mapCore c fun y => { y with cond := .resetting }
    some (s2.log 1 0x0803 (coreSource c) (w32 c.val) (w32 x.items.length) (w32 x.openStreams))

/-- R397: the reset ends, and fetch begins at boot_addr. -/
def execCoreResetDone (c : CoreId) (s : State) : Host.Outcome State Fault Refusal :=
  if (s.core c).cond = .resetting ∧ s.coreOn c ∧ s.rst.phase = .ready then
    let s1 := s.settleCore c
    .next (if (s1.core c).cond = .resetting then s1.restartCore c else s1)
  else .next s

/-- core_state (R383). -/
def State.coreStateCode (s : State) (c : CoreId) : Nat :=
  match (s.core c).cond with
  | .absent => 3
  | .fenced => 2
  | .running => if s.coreOn c then 0 else 1
  | _ => 1

end Sys2Proof.Machine
end

