-- ==== Sys2Proof/Machine/Reset.lean ====
section
/-!
DEFINITION. Power-on and system resets, spare mapping and option loading (chapter 14, R10, R11, R399 to R403, R454).
-/
namespace Sys2Proof.Machine

/-! ### Fuses and sessions through a reset -/

/-- A fuse program that a reset cuts: the counter stands anywhere from its old value to the goal (R419). -/
def State.cutFuse (s : State) : State :=
  match s.rowan.fuse with
  | none => s
  | some p =>
    let f := s.takeFree
    f.2.mapRowan fun r => { r with fuse := none, svn := p.old + f.1.toNat % (p.goal - p.old + 1) }

/-- A session ends; reason 0 CLOSE, 1 idle, 2 reset, 3 trust change (R465, R469). -/
def State.endSession (s : State) (vlan : Bool) (i : Fin 4) (reason : Nat) : State :=
  match s.sessionAt vlan i with
  | none => s
  | some x => (s.setSession vlan i none).log 1 0x0A02 (w32 (bit vlan)) x.id (w32 reason) 0

/-- A system reset ends every session of the management VLAN path (R468). -/
def State.endVlanSessions (s : State) : State := (List.finRange 4).foldl (fun t i => t.endSession true i 2) s

/-! ### What a system reset leaves (R396) -/

/-- Fences are lifted; a number that is absent stays so until the mapping (R10, R11, R389). -/
def CoreState.sysReset (x : CoreState) : CoreState :=
  { CoreState.reset x.phys with
    cond := if x.cond = .absent then .absent else .held
    ownFault := x.ownFault, pow := { CorePower.reset with temp := x.pow.temp } }

def Recorder.sysReset (r : Recorder) : Recorder :=
  { r with noticeSev := 4, noticeMask := BitVec.allOnes 64, sel := 0, snap := Vector.replicate 8 0 }

/-- The saved box is looked for again once stage 1 is done (R380); an erase in progress has run to its end (R400). -/
def BlackBox.sysReset (b : BlackBox) : BlackBox :=
  { b with armed := false, readied := false, erasing := false, present := false, incomplete := false, sel := 0,
           snap := Vector.replicate 8 0 }

def Stack.sysReset (k : Stack) : Stack :=
  { Stack.reset with spared := k.spared, temp := k.temp, hot := k.hot, halved := k.halved, spareMap := k.spareMap,
                     spareUsed := k.spareUsed, sparesOut := k.sparesOut }

def Rowan.sysReset (r : Rowan) : Rowan :=
  { Rowan.reset with keys := r.keys, revoked := r.revoked, svn := r.svn, lcBits := r.lcBits, seed := r.seed, idKey := r.idKey }

def Mgmt.sysReset (m : Mgmt) : Mgmt :=
  { m with
    vid := pairOf 0xFFFF
    hs := match m.hs with
          | none => none
          | some h => if h.peer.vlan then none else some { h with ahead := 0 }
    hsWait := m.hsWait.filter fun e => !e.1.vlan }

/-- Critical entries 12 to 19 keep their marks; a system reset sets the others (R383). -/
def sysCrit (v : Vector Bool 20) : Vector Bool 20 := v.mapFinIdx fun i b _ => if i < 12 then false else b

/-- R396, column SYS. -/
def State.sysReset (s : State) : State :=
  let t := (s.cutFuse.endVlanSessions).settleRecorder
  { t with
    cores := vmap t.cores CoreState.sysReset
    mem := Mem.reset
    stks := vmap t.stks Stack.sysReset
    scfg := { StackCfg.reset with ilvNext := t.rst.ilvTaken }
    train := Training.reset
    fab := { Fabric.reset with tx := t.fab.tx }
    cont := { Containment.reset with crit := sysCrit t.cont.crit }
    recd := t.recd.sysReset
    box := t.box.sysReset
    int := Interrupts.reset
    rst := { t.rst with phase := .sysHeld, staged := none, words := [], wordErr := [], wordFrom := [], commit := none, commitAgain := false }
    balls := { t.balls with txIdle := true }
    rowan := t.rowan.sysReset
    pow := { Power.reset with tHot := t.pow.tHot }
    mgmt := t.mgmt.sysReset
    inject := ⟨0, false, false, 0, 0⟩ }

/-! ### Requests (R394, R395, R398, R400) -/

/-- A restart of the option-loading phase is counted and recorded; the word reached is open (log entry 36). -/
def State.optRestart (s : State) : State :=
  let f := s.takeFree
  let n := stopAtMax s.rst.optRestarts
  { f.2 with rst := { f.2.rst with optRestarts := n, staged := none } }.log 1 0x0804 0 (w32 (f.1.toNat % 512))
    (n.setWidth 32) 0

/-- A commit that a system reset cuts (R456). -/
def State.cutCommitRec (s : State) : State :=
  match s.cutCommit with
  | (t, none) => t
  | (t, some n) => t.log 4 0x0A06 2 (w32 n) 0 0

/-- Channels that are sent BYE. -/
def State.byeCount (s : State) : Nat :=
  if (List.range 64).any fun k => s.subSends k then (s.fab.chans.filter fun e => decide (e.2.st = .opened)).length else 0

/-- RESET_SYS, with the new count, and the ilv_next held at acceptance (R258). -/
def State.sysAccepted (s : State) (cause : BitVec 4) : State :=
  let n := stopAtMax s.rst.sysCount
  { s with rst := { s.rst with last := cause, sysCount := n, optRestarts := 0, ilvTaken := s.scfg.ilvNext } }.log 1 0x0802 0 (w32 cause.toNat)
    (n.setWidth 32) (w32 s.byeCount)

/-- A system reset is accepted during the option-loading phase or its hold: nothing is there to quiesce, and the phase starts
again at the release (R395, R400; log entry 91). -/
def State.sysRestart (s : State) (cause : BitVec 4) : State :=
  let n := s.rst.optRestarts
  let t := s.cutCommitRec.sysAccepted cause
  let u := { t with rst := { t.rst with optRestarts := n }, balls := { t.balls with bootCsHigh := true } }
  u.optRestart.sysReset

/-- A system reset is requested: 0x3 RST_SYS_N, 0x4 sys_rst, 0x5 JTAG. -/
def State.sysRequest (s : State) (cause : BitVec 4) : State :=
  match s.rst.phase with
  | .porHeld => s
  | .sysHeld => s
  | .quiescing => s
  | .loading | .optHold => s.sysRestart cause
  | _ =>
    let t := (s.cutCommitRec.sysAccepted cause).sendByes
    { t with rst := { t.rst with phase := .quiescing } }

/-- RST_SYS_N is accepted low; ignored while a power-on reset is in progress (R403). -/
def execRstSysNAssert (s : State) : Host.Outcome State Fault Refusal :=
  if s.rst.phase = .porHeld then .next s
  else
    let t := s.sysRequest 3
    .next { t with rst := { t.rst with rstSysLow := true } }

/-- Quiescing ends (R398). -/
def execSystemResetQuiesced (s : State) : Host.Outcome State Fault Refusal :=
  if s.rst.phase = .quiescing then .next s.sysReset else .next s

/-- A core through a power-on reset: with the supply kept, spare mapping and faults of its own are remembered until
the mapping at the release (R10; log entry 37). -/
def CoreState.porReset (x : CoreState) (supply : Bool) (i : Nat) : CoreState :=
  if supply then CoreState.reset (BitVec.ofNat 5 (i % 16))
  else { CoreState.reset x.phys with cond := if x.cond = .absent then .absent else .held, ownFault := x.ownFault }

/-- What outlives a power-on reset: fuses, flash, and the model's own fields (R396, column POR). Where the supply stands, the
page program in progress runs to its end (R400; log entry 140). -/
def State.porReset (s : State) (supply : Bool) : State :=
  let t := (if supply then s.stopCommit else s.cutCommit.1).cutFuse
  { State.reset with
    cores := Vector.ofFn fun c : Fin 64 => (t.core c).porReset supply c.val
    spares := if supply then Vector.replicate 4 none else t.spares
    fab := { Fabric.reset with tx := t.fab.tx }
    recd := { Recorder.reset with inFlight := [⟨1, 0x0801, 0, if supply then 2 else 1, 0, 0⟩] }
    box := { BlackBox.reset with regions :=
      (if t.box.programming ∧ supply = false then t.box.pageDone (t.fab.devId.val.setWidth 16) else t.box).regions }
    rst := { Resets.reset with last := if supply then 2 else 1, fuses := t.rst.fuses, flash := t.rst.flash,
                               refclk := t.rst.refclk }
    rowan := { Rowan.reset with
      keys := t.rowan.keys, revoked := t.rowan.revoked, svn := t.rowan.svn, lcBits := t.rowan.lcBits
      seed := t.rowan.seed
      idKey := if t.rowan.lifecycle = .decommissioned then none else some (Config.deriveKey t.rowan.seed) }
    free := t.free, pending := t.pending }

/-- R394: RST_POR_N, a PWRGD input, or the supply monitor. While one is in progress another merges with it (R395); during
option loading it restarts the phase (R400). -/
def execPowerOnReset (supply : Bool) (s : State) : Host.Outcome State Fault Refusal :=
  let t := s.porReset supply
  if s.rst.phase = .porHeld then .next s
  else if s.rst.phase = .loading ∨ s.rst.phase = .optHold then
    .next { t with rst := { t.rst with optRestarts := s.rst.optRestarts } }.optRestart
  else .next t

/-- A filtered pulse that is recorded: a low one on RST_POR_N (0) or RST_SYS_N (1). One on RST_SYS_N while it is low is a high
pulse, and the PWRGD inputs and the supply monitor are not named (R403, R475; log entry 140). -/
def State.glitchBall (s : State) : ResetInput → Option Nat
  | .porN => some 0
  | .sysN => if s.rst.rstSysLow then none else some 1
  | .pwrgd _ => none
  | .monitor => none

/-- R403: the filter ignores a short pulse and counts it. -/
def execResetGlitch (ball : ResetInput) (width : BitVec 32) (s : State) : Host.Outcome State Fault Refusal :=
  let t := { s with rst := { s.rst with glitches := stopAtMax s.rst.glitches } }
  match s.glitchBall ball with
  | none => .next t
  | some b => .next (if s.recorderRuns then t.log 2 0x0805 0 (w32 b) width 0 else t)

/-! ### Release: spares (R10, R11), then option loading -/

/-- A core fenced for a fault of its own is replaced by its die's spare, or its number stays absent. -/
def State.replaceCore (s : State) (c : CoreId) (spareFail : BitVec 4) : State :=
  let x := s.core c
  let d := c.val / 16
  if x.ownFault = false ∨ x.cond = .absent then s
  else if (vget s.spares d none).isNone && !spareFail.getLsbD d then
    { s.setCore c { x with phys := 16, ownFault := false } with spares := vset s.spares d (some c) }.log 4 0x0103
      (coreSource c) (w32 c.val) (w32 d) 0
  else
    (s.setCore c { x with cond := .absent }).log 4 0x0104 (coreSource c) (w32 c.val)
      (w32 (bit ((vget s.spares d none).isNone && spareFail.getLsbD d))) 0

/-- The domain of an absent number is LOCKED_OFF (R430). -/
def State.lockAbsent (s : State) : State :=
  { s with pow := { s.pow with domains := s.pow.domains.mapFinIdx fun i d _ =>
      if h : i < 64 then (if (s.core ⟨i, h⟩).cond = .absent then ⟨.off, false, true, 0, 0⟩ else d) else d } }

def State.mapSpares (s : State) (spareFail : BitVec 4) : State :=
  ((List.finRange 64).foldl (fun t c => t.replaceCore c spareFail) s).lockAbsent

/-- Option loading begins (R399); the epoch halves of channels start from the local time (R344). -/
def State.startLoading (s : State) (spareFail : BitVec 4) : State :=
  let t := s.mapSpares spareFail
  { t with
    rst := { t.rst with phase := .loading, spareFail := spareFail, rstSysLow := false, staged := none }
    rowan := { t.rowan with revokedBoot := t.rowan.revoked }
    fab := { t.fab with halfCounter := BitVec.ofNat 16 t.time }
    balls := { t.balls with bootCsHigh := false, bootIoDriven := true } }

/-- An accepted release (R399, R403). -/
def execResetRelease (sysLow : Bool) (spareFail : BitVec 4) (s : State) : Host.Outcome State Fault Refusal :=
  match s.rst.phase with
  | .porHeld =>
    if sysLow then
      let t := s.sysAccepted 3
      .next { t with rst := { t.rst with phase := .sysHeld, rstSysLow := true } }
    else .next (s.startLoading spareFail)
  | .sysHeld => .next (s.startLoading spareFail)
  | _ => .next s

/-! ### Option loading (R399, R401, R454, R455) -/

/-- The value a word takes, and where damage was found: 0 fuse pair, 1 flash pair. -/
def State.loadWord (s : State) (n : Nat) : BitVec 32 × Option Nat :=
  let f := s.fuseWord n
  let k := s.flashWord n
  if !intact f then (romWord n, some 0)
  else if n < 128 ∨ k = ⟨0xFFFFFFFF, 0xFFFFFFFF⟩ then (f.val, none)
  else if intact k then (k.val, none)
  else (f.val, some 1)

/-- The word is taken from the flash option block. -/
def State.fromFlash (s : State) (n : Nat) : Bool :=
  let k := s.flashWord n
  intact (s.fuseWord n) && decide (128 ≤ n) && decide (k ≠ ⟨0xFFFFFFFF, 0xFFFFFFFF⟩) && intact k

/-- One word is loaded and written, with its complement, to what it configures. ilv_next comes with word 128 where a
power-on reset owes it, and else stands at the value the system reset was accepted with (R454). -/
def State.takeWord (s : State) (n : Nat) : State :=
  let r := s.loadWord n
  let t := ({ s with rst := { s.rst with words := sparseSet fusePair s.rst.words n (pairOf r.1) } }.applyWord
    s.rst.ilvOwed n r.1).wordTaken n (if s.fromFlash n then 1 else 0)
  match r.2 with
  | none => t
  | some k => t.log 4 0x0205 0x00010005 (w32 n) (w32 k) 0

/-- Sub-ports of port p as its mode presents them: DOWN, or absent (R318). -/
def State.presentSubs (s : State) (p : Nat) (mode : BitVec 8) : State :=
  (List.range 8).foldl (fun t j =>
    t.mapSub (8 * p + j) fun x => { x with st := if j < modeSubs mode then .down else .absent }) s

/-- The port's domain follows its mode, and its sub-ports (R430, R433). -/
def State.startPort (s : State) (p : Nat) : State :=
  let mode := (vget s.fab.ports p ⟨0xFF, 0, 0⟩).mode
  let d : Domain := if mode = 0xFF then ⟨.off, false, false, 0, 0⟩ else ⟨.on, true, false, 0, 0⟩
  { s.presentSubs p mode with pow := { s.pow with domains := vset s.pow.domains (84 + p) d } }

/-- A staged write of bb_addr replaces the loaded word (R401); the word is then a written one (R362). -/
def State.placeStaged (s : State) : State :=
  match s.rst.staged with
  | none => s
  | some v => { s with box := { s.box with addr := v } }.wordWritten 139

/-- The phase ends: staged writes replace loaded words, training begins (R401, R479). -/
def State.endLoading (s : State) : State :=
  let t := s.placeStaged
  { t with rst := { t.rst with phase := .training, staged := none }, balls := { t.balls with alert := true } }

/-- R399: every word is loaded; with opt_hold the device stops here (R401). REFCLK must be good (R484), and the flash free of
the black box's programs (R400). -/
def execOptionLoadDone (s : State) : Host.Outcome State Fault Refusal :=
  if s.rst.phase = .loading ∧ s.rst.refclk ∧ s.box.programming = false then
    let t := (List.range 512).foldl (fun t n => t.takeWord n) s
    let u := (List.range 8).foldl (fun t p => t.startPort p) t
    let u := if u.nominal = nominalMHz.toNat then u else
      { u with cores := vmap u.cores fun x => { x with pow := { x.pow with fSet := BitVec.ofNat 16 u.nominal, fNow := BitVec.ofNat 16 u.nominal } } }
    let v := { u with
      pow := { u.pow with capApplied := u.pow.cap.val }
      rst := { u.rst with ilvOwed := false, ilvTaken := if s.rst.ilvOwed then u.scfg.ilvNext else u.rst.ilvTaken }
      balls := { u.balls with bootCsHigh := true, mgmtTx := true } }
    .next (if v.rst.optHold then { v with rst := { v.rst with phase := .optHold } } else v.endLoading)
  else .next s

/-- A write of opt_go (R401); none is RANGE. -/
def State.optGoCmd (s : State) (v : Nat) : Option State :=
  if 2 ≤ v then none else if v = 1 ∧ s.rst.phase = .optHold then some s.endLoading else some s

/-- A write of sys_rst (R398); none is RANGE. -/
def State.sysRstCmd (s : State) (v : Nat) : Option State :=
  if 2 ≤ v then none else if v = 1 then some (s.sysRequest 4) else some s

/-- A write of bb_addr while it is allowed (R401, R402, R410); none is RANGE. -/
def State.bbAddrCmd (s : State) (v : Nat) : Option State :=
  if boxPlace v then some { s with rst := { s.rst with staged := some (w32 v) } } else none

/-- RW-at-reset entries can be written now (R401). -/
def State.resetWritable (s : State) : Bool := decide (s.rst.phase = .loading ∨ s.rst.phase = .optHold)

end Sys2Proof.Machine
end

