-- ==== Sys2Proof/Machine/Power.lean ====
section
/-!
DEFINITION. Power domains (R427 to R433), clocks (R434 to R437, R476), thermal control (R438, R439), capping (R440,
R441, R481), criticality (R442) and the reference clock (R484).
-/
namespace Sys2Proof.Machine

/-! ### Domains -/

def State.mapPow (s : State) (f : Power → Power) : State := { s with pow := f s.pow }

def domainOff : Domain := ⟨.off, false, false, 0, 0⟩

def State.domain (s : State) (d : Nat) : Domain := vget s.pow.domains d domainOff

def State.setDomain (s : State) (d : Nat) (x : Domain) : State :=
  s.mapPow fun p => { p with domains := vset p.domains d x }

def State.domainOn (s : State) (d : Nat) : Bool := decide ((s.domain d).phase = .on)

/-- The unit of domain d is lost until the next reset: a fenced or absent core, a fenced or excluded stack. -/
def State.unitLost (s : State) (d : Nat) : Bool :=
  if h : d < 64 then (decide ((s.core ⟨d, h⟩).cond = .fenced) || decide ((s.core ⟨d, h⟩).cond = .absent))
  else if 68 ≤ d ∧ d < 84 then
    decide ((s.stack (Fin.ofNat 16 (d - 68))).st = .fenced) || decide ((s.stack (Fin.ofNat 16 (d - 68))).st = .excluded)
  else false

/-- LOCKED_OFF (R428, R430): also the domain of a core that is fenced while ON; a transition runs to its end first (R431). -/
def State.lockedOff (s : State) (d : Nat) : Bool :=
  let x := s.domain d
  (decide (x.phase = .off) && (x.locked || s.unitLost d)) || (decide (x.phase = .waiting) && s.unitLost d) ||
    (decide (x.phase = .on ∧ d < 64) && s.unitLost d)

/-- pd_state (R428). -/
def State.pdState (s : State) (d : Nat) : Nat :=
  let x := s.domain d
  let want := x.want && !s.unitLost d
  if s.lockedOff d then 5
  else
    match x.phase with
    | .off => 0
    | .waiting => if want then 1 else 4
    | .ramping => if want then 1 else 4
    | .on => 2
    | .shutting => if want then 4 else 3

/-- Die of a core or stack domain, whose power-up waits for a ramp slot; true: a stack's (R432, R8). -/
def rampSlot (d : Nat) : Option (Nat × Bool) :=
  if d < 64 then some (d / 16, false)
  else if 68 ≤ d ∧ d < 84 then some ((d - 68) / 4, true)
  else none

/-- A power-up begins, or waits for its ramp slot. -/
def State.beginUp (s : State) (d : Nat) : State :=
  let x := s.domain d
  match rampSlot d with
  | some _ => s.setDomain d { x with phase := .waiting, want := true, wait := s.time }
  | none => s.setDomain d { x with phase := .ramping, want := true, wait := 0 }

/-- A shutdown begins; a core's runs the first steps of R397 (R431). -/
def State.beginDown (s : State) (d : Nat) : State :=
  let t := s.setDomain d { s.domain d with phase := .shutting, want := false }
  if h : d < 64 then
    let u := t.quietCore ⟨d, h⟩
    if (u.core ⟨d, h⟩).cond = .resetting then u.mapCore ⟨d, h⟩ fun x => { x with cond := .running } else u
  else t

/-- No stack's ring holds a command. -/
def State.ringsEmpty (s : State) : Bool :=
  (List.finRange 16).all fun st => (s.stack st).ringHead == (s.stack st).ringTail && (s.stack st).engEnd.isNone

/-- The domain is off, for good or not. -/
def State.isOff (s : State) (d : Nat) : Bool := s.pdState d == 0 || s.pdState d == 5

/-- Refused requests (R430); a port's domain follows its mode entry. -/
def State.pdRefused (s : State) (d : Nat) (on : Bool) : Bool :=
  if s.lockedOff d then true
  else if on then s.unitLost d || decide (84 ≤ d ∧ d < 92)
  else if d < 64 then false
  else if d < 68 then
    !((List.range 16).all (fun i => s.isOff (16 * (d - 64) + i)) && (List.range 4).all fun i => s.isOff (68 + 4 * (d - 64) + i))
  else if d < 84 then !s.unitLost d
  else if d < 92 then true
  else if d = 92 then
    !(s.allClosed && (s.fab.qps.all fun e => decide (e.2.st = .reset)) && s.isOff 93)
  else if d = 93 then s.train.snap.toList.any fun x => decide (x ≠ .free)
  else if d = 94 then !(s.isOff 92 && s.ringsEmpty)
  else false

/-- A request: the target is set, and a domain at rest starts (R428, R429). -/
def State.pdRequest (s : State) (d : Nat) (on : Bool) : State :=
  let x := s.domain d
  match x.phase with
  | .off => if on then s.beginUp d else s
  | .on => if on then s else s.beginDown d
  | _ => s.setDomain d { x with want := on }

/-- A write of pd_cmd; none is RANGE (R430). -/
def State.pdCmd (s : State) (d : Nat) (v : Nat) : Option State :=
  if 2 ≤ v ∨ s.pdRefused d (v == 1) then none else some (s.pdRequest d (v == 1))

/-- Domains that share a ramp slot, in PD order. -/
def slotDomains (die : Nat) (stack : Bool) : List Nat :=
  if stack then (List.range 4).map fun i => 68 + 4 * die + i else (List.range 16).map fun i => 16 * die + i

/-- Ticks of a ramp: 12 µs of a core, 25 µs of a stack interface (R427). What follows it needs no slot (R432). -/
def rampTicks (stack : Bool) : Nat := if stack then 2500 else 1200

/-- A domain of the slot ramps. -/
def State.slotBusy (s : State) (die : Nat) (stack : Bool) : Bool :=
  (slotDomains die stack).any fun d => decide ((s.domain d).phase = .ramping ∧ s.time < (s.domain d).ramp + rampTicks stack)

/-- R432: the first waiting domain ramps; one whose unit was lost meanwhile is dropped (R431). -/
def execRampSlotGrant (die : Fin 4) (stack : Bool) (s : State) : Host.Outcome State Fault Refusal :=
  let ds := slotDomains die.val stack
  if s.slotBusy die.val stack then .next s
  else
    match ds.find? fun d => decide ((s.domain d).phase = .waiting) && !s.unitLost d with
    | none => .next s
    | some d =>
      let x := s.domain d
      .next (s.setDomain d { x with phase := .ramping, wait := (s.time - x.wait) / 100, ramp := s.time })

/-- R428, R431: a power-up ends; a core starts as after a core reset; the opposite transition follows at once. -/
def execDomainPowerupDone (d : Fin 96) (s : State) : Host.Outcome State Fault Refusal :=
  let x := s.domain d.val
  if x.phase = .ramping then
    let s1 := (s.setDomain d.val { x with phase := .on }).log 0 0x0702 (w32 d.val) (w32 d.val) (w32 x.wait) 0
    let s2 :=
      if h : d.val < 64 then
        if (s1.core ⟨d.val, h⟩).cond = .running then s1.restartCore ⟨d.val, h⟩ else s1
      else s1
    .next (if x.want && !s.unitLost d.val then s2 else s2.beginDown d.val)
  else .next s

/-- R428, R430, R431: a shutdown ends; the power-up follows at once where the target is on. -/
def execDomainShutdownDone (d : Fin 96) (s : State) : Host.Outcome State Fault Refusal :=
  let x := s.domain d.val
  if x.phase = .shutting then
    let s1 := if h : d.val < 64 then s.settleCore ⟨d.val, h⟩ else s
    let lost := s1.unitLost d.val
    let again := x.want && !lost
    let s2 := (s1.setDomain d.val { x with phase := .off, want := false, locked := x.locked || lost }).log 0 0x0701
      (w32 d.val) (w32 d.val) (w32 (bit again)) 0
    let s3 := if h : d.val < 64 then
        s2.mapCore ⟨d.val, h⟩ fun y => { y with cache := Caches.reset, tile := { Tiles.reset with qc := y.tile.qc } }
      else s2
    .next (if again then s3.beginUp d.val else s3)
  else .next s

/-! ### Port modes (R318, R430) -/

/-- Sub-port j of port p leaves UP or DOWN for what the mode gives it; FENCED stays (R351). -/
def State.modeSub (s : State) (p j : Nat) (mode : BitVec 8) : State :=
  let k := 8 * p + j
  let new : SubState := if j < modeSubs mode then .down else .absent
  if (s.sub k).st = .fenced then s
  else
    let was := s.subUp k
    let r := s.leaveUp k new
    let t := r.1.mapSub k fun x => { x with link := false }
    if was then t.log 3 0x0C01 (subSource k) 0 (w32 r.2) 0 else t

/-- A write of a port's mode; none is RANGE. -/
def State.portModeCmd (s : State) (p : Nat) (v : Nat) : Option State :=
  if v < 4 ∨ v = 0xFF then
    let q := vget s.fab.ports p ⟨0xFF, 0, 0⟩
    let m := BitVec.ofNat 8 v
    let t := s.mapFab fun f => { f with ports := vset f.ports p { q with mode := m } }
    some (((List.range 8).foldl (fun u j => u.modeSub p j m) t).pdRequest (84 + p) (decide (v ≠ 0xFF)))
  else none

/-! ### Clocks (R434 to R437) -/

/-- Physical core that holds global number c, as the fuses number it. -/
def CoreState.fuseIndex (x : CoreState) (c : CoreId) : Nat := 17 * (c.val / 16) + x.phys.toNat

/-- f_fuse of core c, held in a fuse-only word (R436); the ROM's 1,600 MHz where its fuse pair is damaged (R399, R493). -/
def State.fFuse (s : State) (c : CoreId) : Nat :=
  let i := (s.core c).fuseIndex c
  let w := s.fuseWord (Config.fuseWordOf i).val
  if intact w then (Config.fuseMax i w.val).toNat else 1600

/-- The fused maximum less the derating. -/
def State.fDerated (s : State) (c : CoreId) : Nat := s.fFuse c - 25 * (s.core c).pow.derate.toNat

/-- The five values of R434, in the order of f_limit. -/
def State.fLimits (s : State) (c : CoreId) : List Nat :=
  let x := (s.core c).pow
  [x.fSet.toNat, s.fDerated c, s.pow.fCap.toNat, x.fTherm.toNat, (vget s.pow.dieCeil (c.val / 16) 2000).toNat]

/-- What f_now is to be (R434). -/
def State.fTarget (s : State) (c : CoreId) : Nat := max 400 ((s.fLimits c).foldl min 2000)

def CoreState.setFNow (x : CoreState) (f : Nat) : CoreState := { x with pow := { x.pow with fNow := BitVec.ofNat 16 f } }

/-- What the rail of die d needs where core c runs at f and the others of the die as they do (R435). -/
def State.railNeed (s : State) (c : CoreId) (f : Nat) : Nat :=
  let d := c.val / 16
  ((List.finRange 64).map fun a =>
    if a.val / 16 = d ∧ (a = c ∨ s.coreOn a) then Config.railMv d (if a = c then f else (s.core a).pow.fNow.toNat) else 0).foldl max 0

def State.rail (s : State) (d : Nat) : Rail := vget s.pow.rails d ⟨750, 750, 0⟩

def State.setRail (s : State) (d : Nat) (r : Rail) : State := s.mapPow fun p => { p with rails := vset p.rails d r }

/-- A voltage write where the target changes, then a voltage read that returns `mv` (R476). -/
def State.railSteer (s : State) (d need mv : Nat) : State :=
  let r := s.rail d
  s.setRail d (if r.target = need then { r with read := mv } else ⟨need, mv, s.time⟩)

/-- The value read is within 5 mV of the target (R476). -/
def Rail.reached (r : Rail) : Bool := decide (r.read ≤ r.target + 5 ∧ r.target ≤ r.read + 5)

/-- R435, R476: a fall takes effect at once and the rail follows; a rise waits until the voltage read returns the target
within 5 mV. `mv`: what the read returns. A rise that was abandoned is not begun again while its frequency is asked for. -/
def execFrequencyChange (c : CoreId) (mv : BitVec 16) (s : State) : Host.Outcome State Fault Refusal :=
  let f := s.fTarget c
  let d := c.val / 16
  let x := (s.core c).pow
  if x.fNow.toNat < f then
    if x.noRise.toNat = f then .next s
    else
      let t := s.railSteer d (s.railNeed c f) mv.toNat
      .next (if (t.rail d).reached then t.mapCore c fun y => { y.setFNow f with pow := { (y.setFNow f).pow with noRise := 0 } } else t)
  else
    let t := s.mapCore c fun y => { y.setFNow f with pow := { (y.setFNow f).pow with noRise := 0 } }
    .next (t.railSteer d (t.railNeed c f) mv.toNat)

/-- R476: a rise that no read has confirmed 200 µs after the voltage write of `target` is abandoned. `mv`: the last value read.
Of another write than the rail's last it says nothing. -/
def execVregTimeout (c : CoreId) (target mv : BitVec 16) (s : State) : Host.Outcome State Fault Refusal :=
  let f := s.fTarget c
  let d := c.val / 16
  let x := (s.core c).pow
  let r := { s.rail d with read := mv.toNat }
  if x.fNow.toNat < f ∧ x.noRise.toNat ≠ f ∧ r.target = target.toNat ∧ r.target = s.railNeed c f ∧ r.written + 20000 ≤ s.time ∧ r.reached = false then
    .next (((s.setRail d r).mapCore c fun y => { y with pow := { y.pow with noRise := BitVec.ofNat 16 f } }).log 3 0x070A 0
      (w32 d) (w32 r.target) (w32 r.read))
  else .next s

/-- f_limit (R434). -/
def State.fLimitBits (s : State) (c : CoreId) : Nat :=
  (((List.range 5).zip (s.fLimits c)).map fun p => if p.2 = (s.core c).pow.fNow.toNat then 2 ^ p.1 else 0).sum

/-- derate takes a higher value: committed (R456), and FMAX_LOW where the ceiling falls below the nominal clock (R436). -/
def State.raiseDerate (s : State) (c : CoreId) (v : BitVec 8) : State :=
  let t := (s.mapCore c fun x => { x with pow := { x.pow with derate := v } }).startCommit
  if t.fDerated c < t.nominal ∧ t.nominal ≤ s.fDerated c then
    t.log 4 0x0707 (coreSource c) (w32 (t.fDerated c)) (w32 t.nominal) 0
  else t

/-- A write of derate; none is RANGE. -/
def State.derateCmd (s : State) (c : CoreId) (v : Nat) : Option State :=
  let old := (s.core c).pow.derate.toNat
  if v < old then none else if v = old then some s else some (s.raiseDerate c (BitVec.ofNat 8 v))

/-- R436: `below`: the slack is below the fused guard. -/
def execMarginMonitor (c : CoreId) (slackPs : BitVec 32) (below : Bool) (s : State) : Host.Outcome State Fault Refusal :=
  let x := s.core c
  if below && s.coreOn c && decide (x.pow.derate ≠ 0xFF) then
    let d := x.pow.derate + 1
    .next ((s.log 2 0x0706 (coreSource c) (d.setWidth 32) slackPs 0).raiseDerate c d)
  else .next s

/-- R437. -/
def execDroopDetect (c : CoreId) (s : State) : Host.Outcome State Fault Refusal :=
  if s.coreOn c ∧ (s.core c).pow.droop = false then
    .next (s.mapCore c fun x => { x with pow := { x.pow with droop := true, droopCnt := x.pow.droopCnt + 1 } })
  else .next s

/-- R437. -/
def execDroopEnd (c : CoreId) (s : State) : Host.Outcome State Fault Refusal :=
  .next (s.mapCore c fun x => { x with pow := { x.pow with droop := false } })

/-- A write of f_set; none is RANGE. -/
def State.fSetCmd (s : State) (c : CoreId) (v : Nat) : Option State :=
  if 400 ≤ v ∧ v ≤ 2000 ∧ v % 25 = 0 then
    some (s.mapCore c fun x => { x with pow := { x.pow with fSet := BitVec.ofNat 16 v } })
  else none

/-! ### Thermal control (R438, R439) -/

/-- The hottest reading of a unit, the first where several are equal. -/
def hottest (rs : List SensorReading) : Option SensorReading :=
  rs.foldl (fun b r => match b with
    | none => some r
    | some x => if x.temp < r.temp then some r else some x) none

def ofUnit (rs : List SensorReading) (u : Nat) : List SensorReading := rs.filter fun r => r.unit.val == u

/-- A sensor as the records name it. -/
def sensorWord (r : SensorReading) : BitVec 32 := w32 (256 * r.unit.val + r.idx.val)

/-- A ceiling after one sample, with its count of cool samples. -/
def nextCeil (ceil : BitVec 16) (cool : Nat) (limit : Int) (temp : Int) : BitVec 16 × Nat :=
  if limit ≤ temp then (BitVec.ofNat 16 (max 400 (ceil.toNat - 25)), 0)
  else if temp < limit - 30 then
    if cool + 1 < 10 then (ceil, cool + 1) else (BitVec.ofNat 16 (min 2000 (ceil.toNat + 25)), 0)
  else (ceil, 0)

/-- THERM_THROTTLE at the first fall of a ceiling below the nominal clock. -/
def State.noteFall (s : State) (r : SensorReading) (old new : BitVec 16) : State :=
  if new.toNat < old.toNat ∧ new.toNat < s.nominal ∧ s.pow.throttled = false then
    (s.mapPow fun p => { p with throttled := true }).log 3 0x0703 0 (sensorWord r) (BitVec.ofInt 32 r.temp) (new.setWidth 32)
  else s

/-- One core's sample. -/
def State.sampleCore (s : State) (rs : List SensorReading) (c : CoreId) : State :=
  match hottest (ofUnit rs c.val) with
  | none => s
  | some r =>
    let x := (s.core c).pow
    let n := nextCeil x.fTherm x.coolSamples (10 * s.pow.tThrottle.toNat) r.temp
    (s.mapCore c fun y => { y with pow := { y.pow with temp := r.temp, fTherm := n.1, coolSamples := n.2 } }).noteFall r
      x.fTherm n.1

/-- One die uncore's sample. -/
def State.sampleDie (s : State) (rs : List SensorReading) (d : Fin 4) : State :=
  match hottest (ofUnit rs (64 + d.val)) with
  | none => s
  | some r =>
    let old := s.pow.dieCeil[d]
    let n := nextCeil old (s.pow.dieCool[d]) (10 * s.pow.tThrottle.toNat) r.temp
    (s.mapPow fun p => { p with dieCeil := p.dieCeil.set d.val n.1 d.isLt, dieCool := p.dieCool.set d.val n.2 d.isLt }).noteFall
      r old n.1

/-- Every ceiling is at or above the nominal clock. -/
def State.ceilingsBack (s : State) : Bool :=
  (s.cores.toList.all fun x => decide (s.nominal ≤ x.pow.fTherm.toNat)) &&
    s.pow.dieCeil.toList.all fun x => decide (s.nominal ≤ x.toNat)

/-- R439: THERMTRIP_N, the record, and the stop, which ends every core's clock; the ball stays low over a system reset. -/
def State.thermTrip (s : State) (r : SensorReading) : State :=
  if s.balls.thermtrip ∧ s.cont.stopped then s
  else
    ({ s with balls := { s.balls with thermtrip := true } }.log 7 0x0708 0 (sensorWord r) (BitVec.ofInt 32 r.temp) 0).deviceStop

/-- R438, R439: the sensors are read. -/
def execSensorSample (readings : List SensorReading) (s : State) : Host.Outcome State Fault Refusal :=
  match hottest readings with
  | none => .next s
  | some h =>
    let s1 := (List.finRange 64).foldl (fun t c => t.sampleCore readings c) s
    let s2 := (List.finRange 4).foldl (fun t d => t.sampleDie readings d) s1
    let hub := match hottest (ofUnit readings 68) with
      | none => s.pow.hubHot
      | some r => decide ((10 * s.pow.tThrottle.toNat : Int) ≤ r.temp)
    let s3 := s2.mapPow fun p => { p with hubHot := hub, tHot := h.temp }
    let s4 := if s3.pow.throttled && s3.ceilingsBack then
        (s3.mapPow fun p => { p with throttled := false }).log 1 0x0704 0 (BitVec.ofInt 32 h.temp) 0 0
      else s3
    .next (if 1150 ≤ h.temp then s4.thermTrip h else s4)

/-- R266, R438: the hottest DRAM die of a stack. -/
def execStackTemperatureChange (st : StackId) (temp : Int) (s : State) : Host.Outcome State Fault Refusal :=
  .next (s.mapStack st fun k =>
    { k with temp := temp, hot := decide (850 < temp)
             halved := decide (950 < temp) || (k.halved && decide (920 ≤ temp)) })

/-! ### Capping (R440, R441, R481) -/

/-- f_cap after one interval, with the count of intervals whose mean was low: it falls where the interval exceeded the cap,
and rises after each 1 ms in which the mean stayed more than 3 % below it (R440). -/
def Power.steer (p : Power) (watts mean : Nat) : BitVec 16 × Nat :=
  let cap := p.cap.val.toNat
  let low := if 100 * mean < 97 * cap then p.lowFor + 1 else 0
  let f := if cap < watts then max 400 (p.fCap.toNat - 25) else p.fCap.toNat
  if p.failHold then (400, 0)
  else if low < 10 then (BitVec.ofNat 16 f, low)
  else (BitVec.ofNat 16 (if p.hubHot then f else min 2000 (f + 25)), 0)

/-- Power after a measurement: the mean of the last 1 ms, f_cap and cap_applied. -/
def Power.measured (p : Power) (watts : BitVec 16) : Power :=
  let ws := (watts :: p.samples).take 10
  let mean := (ws.map BitVec.toNat).sum / ws.length
  let n := p.steer watts.toNat mean
  let met := if mean ≤ p.cap.val.toNat then p.metFor + 1 else 0
  { p with samples := ws, now := BitVec.ofNat 16 mean, fCap := n.1, lowFor := n.2
           metFor := min met 10, capApplied := if 10 ≤ met then p.cap.val else p.capApplied }

/-- R440, R441: `watts` over the last 100 µs. -/
def execPowerMeasure (watts : BitVec 16) (s : State) : Host.Outcome State Fault Refusal :=
  let t := s.mapPow fun p => p.measured watts
  let above := decide (t.pow.cap.val.toNat < watts.toNat ∧ s.pow.fCap = 400)
  let u := t.mapPow fun p => { p with unmet := above }
  .next (if above && !s.pow.unmet then u.log 3 0x0705 0 (u.pow.cap.val.setWidth 32) (u.pow.now.setWidth 32) 0 else u)

/-- A write of pwr_cap by `who` (a core's number, or 64); none is RANGE (R440, R441). -/
def State.pwrCapCmd (s : State) (who v : Nat) : Option State :=
  if 900 ≤ v ∧ v ≤ 2600 then
    let t := s.mapPow fun p => { p with cap := pairOf (BitVec.ofNat 16 v), metFor := 0 }
    some ((t.clearCrit 10).log 1 0x0709 0 (s.pow.cap.val.setWidth 32) (w32 v) (w32 who))
  else none

/-- R481: PWR_FAIL_N has been high for 1 ms; the hold ends once the black box is complete. -/
def execPwrFailNRelease (s : State) : Host.Outcome State Fault Refusal :=
  if s.balls.pwrFail then
    .next { s with balls := { s.balls with pwrFail := false }
                   pow := { s.pow with failHold := s.pow.failHold && s.box.programming } }
  else .next s

/-! ### Criticality (R442) -/

/-- A write of coll_mark; none is RANGE. -/
def State.collMarkCmd (s : State) (c : CoreId) (v : Nat) : Option State :=
  if 2 ≤ v then none else some (s.mapCore c fun x => { x with pow := { x.pow with mark := v == 1 } })

/-- Marked over counted, scaled to 0 to 65,535 (R442). -/
def scaledShare (marked counted : Nat) : Nat := if counted = 0 then 0 else min 65535 (marked * 65536 / counted)

/-- R442. -/
def execCritWindowEnd (s : State) : Host.Outcome State Fault Refusal :=
  .next (s.mapPow fun p =>
    { p with criticality := BitVec.ofNat 16 (scaledShare p.marked p.counted), marked := 0, counted := 0 })

/-! ### The reference clock (R484) -/

/-- REFCLK is lost for 10 µs: device loss while the device runs. -/
def execRefclkLost (s : State) : Host.Outcome State Fault Refusal :=
  let t := { s with rst := { s.rst with refclk := false } }
  if s.rst.refclk = false ∨ s.rst.phase = .porHeld ∨ s.rst.phase = .sysHeld ∨ s.rst.phase = .loading then .next t
  else .next ((t.log 7 0x070B 0 0 0 0).deviceStop)

/-- REFCLK is present and in range: a release that waited for it goes on. -/
def execRefclkGood (s : State) : Host.Outcome State Fault Refusal :=
  .next { s with rst := { s.rst with refclk := true } }

end Sys2Proof.Machine
end

