-- ==== Sys2Proof/Machine/Boot.lean ====
section
/-!
DEFINITION. Rowan (chapter 15): image verification and the boot chain, rollback and keys, measurements, quotes; the
TAP (R485, R486).
-/
namespace Sys2Proof.Machine

/-! ### Bytes -/

/-- Big-endian value of n bytes at offset o. -/
def fieldBe (bs : List Byte) (o n : Nat) : Nat := leNat (sliceBytes bs o n).reverse

/-- A digest as its 64 bytes. -/
def digestBytes (d : BitVec 512) : List Byte := leBytes 64 d.toNat

def fieldDigest (bs : List Byte) (o : Nat) : BitVec 512 := BitVec.ofNat 512 (fieldNat bs o 64)

/-! ### Fuses (R407, R409, R419, R420) -/

/-- Slot k is programmed and none of the given revoke bits revokes it. -/
def Rowan.keyValid (r : Rowan) (revoked : BitVec 4) (k : Fin 4) : Bool := r.keys[k] != 0 && !revoked.getLsbD k.val

/-- The private JTAG instructions are refused (R409). -/
def State.debugLocked (s : State) : Bool := decide (s.rowan.lifecycle = .secured) && (s.optionWord 127).getLsbD 0

/-- key_state. -/
def Rowan.keyState (r : Rowan) : Nat :=
  ((List.finRange 4).map fun k => if r.keys[k] = 0 then 0 else 2 ^ k.val).sum + 16 * r.revoked.toNat

/-- How many images run, by the stage reached (R414); where the chain stopped, those before the stage that failed (R417). -/
def Rowan.images (r : Rowan) : Nat := if r.stage = 7 then r.lastReject.toNat else r.stage.toNat

def Rowan.running (r : Rowan) : List Nat := r.runSvn.toList.take r.images

/-- Lowest svn among the running images. -/
def Rowan.lowestSvn (r : Rowan) : Nat :=
  match r.running with
  | [] => 0
  | x :: xs => xs.foldl min x

/-- A write of svn_commit; none is RANGE (R419). -/
def State.svnCommitCmd (s : State) (n : Nat) : Option State :=
  let r := s.rowan
  if n < r.svn ∨ r.lowestSvn < n ∨ 128 < n ∨ r.fuse.isSome then none
  else if n = r.svn then some s
  else some (s.mapRowan fun x => { x with fuse := some ⟨r.svn, n⟩ })

/-- The programming ends (R419). -/
def execFuseProgramDone (s : State) : Host.Outcome State Fault Refusal :=
  match s.rowan.fuse with
  | none => .next s
  | some p => .next ((s.mapRowan fun r => { r with fuse := none, svn := p.goal }).log 4 0x0904 3 (w32 p.old) (w32 p.goal) 0)

/-- A write of key_revoke; none is RANGE (R420). -/
def State.keyRevokeCmd (s : State) (v : Nat) : Option State :=
  if h : v < 4 then
    let k : Fin 4 := ⟨v, h⟩
    let r := s.rowan
    if r.bootKey = some k ∨ ((List.finRange 4).any fun j => decide (j ≠ k) && r.keyValid r.revoked j) = false then none
    else
      some ((s.mapRowan fun x => { x with revoked := x.revoked ||| BitVec.ofNat 4 (2 ^ v) }).log 4 0x0905 3 (w32 v) 0 0)
  else none

/-! ### Measurements (R421) -/

/-- M i := SHA-512(M i ‖ x). `who`: the requester, a core's number or 64; `src`: the stage. -/
def State.extend (s : State) (i : Fin 8) (x : BitVec 512) (src who : Nat) : State :=
  (s.mapRowan fun r =>
    { r with meas := r.meas.set i.val (Config.sha512 (digestBytes r.meas[i] ++ digestBytes x)) i.isLt }).log 0 0x0907
    (w32 src) (w32 i.val) (w32 who) 0

/-! ### Images (R411 to R413) -/

/-- The kinds of image: type number, largest body, stage that verifies it, and instruction store's end for type 3. -/
structure ImageKind where
  typ : Nat
  slot : Nat
  stage : Nat
  deriving DecidableEq, Repr

def stage1Image : ImageKind := ⟨1, 0x100000, 0⟩
def hubImage : ImageKind := ⟨2, 0x400000, 1⟩
def coreImage : ImageKind := ⟨3, 0x800000, 2⟩

/-- Body length, place and entry of a header. -/
def headerSvn (h : List Byte) : Nat := fieldNat h 8 4
def headerLen (h : List Byte) : Nat := fieldNat h 12 4
def headerLoad (h : List Byte) : Nat := fieldNat h 16 8
def headerEntry (h : List Byte) : Nat := fieldNat h 24 8

/-- The header's magic, version, type, blen, load and reserved fields are right. -/
def headerOk (k : ImageKind) (istore : Nat) (h : List Byte) : Bool :=
  fieldNat h 0 4 == 0x314D4749 && fieldNat h 4 2 == 1 && fieldNat h 6 1 == k.typ && fieldNat h 7 1 == 0 &&
  headerLen h % 64 == 0 && decide (headerLen h ≤ k.slot - 512) &&
  (if k.typ = 3 then headerLoad h % 128 == 0 && decide (headerLoad h + headerLen h ≤ istore) else headerLoad h == 0) &&
  fieldNat h 229 3 == 0 && fieldNat h 364 148 == 0

/-- Key slot that verifies a header's key, by the revoke bits this boot goes by. -/
def Rowan.keySlot (r : Rowan) (h : List Byte) : Option (Fin 4) :=
  (List.finRange 4).find? fun k =>
    r.keyValid r.revokedBoot k && decide (r.keys[k] = Config.sha512 (sliceBytes h 96 133))

/-- R412: the reason code of the first check that fails; none: accepted. -/
def State.verifyImage (s : State) (k : ImageKind) (img : FlashImage) : Option Nat :=
  let h := img.header
  let checked := decide (s.rowan.lifecycle ≠ .blank)
  if !img.readOk then some 6
  else if !headerOk k (istoreEnd s.scfg.ilvActive) h then some 1
  else if checked && (s.rowan.keySlot h).isNone then some 2
  else if checked && !Config.ecdsaVerify (sliceBytes h 96 133) (Config.sha512 (sliceBytes h 0 232))
      (BitVec.ofNat 528 (fieldBe h 232 66)) (BitVec.ofNat 528 (fieldBe h 298 66)) then some 3
  else if checked && decide (headerSvn h < s.rowan.svn) then some 4
  else if Config.sha512 (sliceBytes img.body 0 (headerLen h)) ≠ fieldDigest h 32 then some 5
  else none

/-- Bytes of a body. -/
def imageBody (img : FlashImage) : List Byte := sliceBytes img.body 0 (headerLen img.header)

/-- The body lies where its stage runs it from (R414): hub buffers, the firmware window of the stacks, or instruction store.
Whole words lose their poison, and a fenced stack discards (R262, R278). -/
def State.placeImage (s : State) (k : ImageKind) (img : FlashImage) : State :=
  let body := imageBody img
  match k.typ with
  | 1 => s.setMem { s.mem with data := cellsSet s.mem.data 0x018004000000 body }
  | 2 => s.writeHome (dramEnd s.scfg.ilvActive - 0x4000000) body
  | _ => s.writeInstFrom (body.length / 128 + 1) (headerLoad img.header / 128) body

/-- IMAGE_REJECT, and boot_state's last reject; a body copied to its place and then rejected by its digest is overwritten
with zeros (R413). -/
def State.rejectImage (s : State) (k : ImageKind) (slot why : Nat) (img : FlashImage) : State :=
  ((if why = 5 then s.placeImage k { img with body := [] } else s).mapRowan fun r =>
    { r with lastReason := BitVec.ofNat 4 why, lastReject := BitVec.ofNat 4 k.stage }).log 4 0x0902
    (w32 k.stage) (w32 k.typ) (w32 slot) (w32 why)

/-- An accepted image: placed, BOOT_STAGE, its svn, whether slot B was used. -/
def State.acceptImage (s : State) (k : ImageKind) (slot : Nat) (img : FlashImage) : State :=
  let i : Fin 3 := Fin.ofNat 3 (k.typ - 1)
  ((s.placeImage k img).mapRowan fun r =>
    { r with runSvn := r.runSvn.set i.val (headerSvn img.header) i.isLt
             slotB := if slot = 1 then r.slotB ||| BitVec.ofNat 3 (2 ^ i.val) else r.slotB }).log 1 0x0901 (w32 k.stage)
    (w32 k.typ) (w32 slot) (w32 (headerSvn img.header))

/-- Slot A, then slot B (R414): the slot and image accepted; where both are rejected, the chain stops (R417). -/
def State.tryImages (s : State) (k : ImageKind) (a b : FlashImage) : State × Option (Nat × FlashImage) :=
  match s.verifyImage k a with
  | none => (s.acceptImage k 0 a, some (0, a))
  | some x =>
    let s1 := s.rejectImage k 0 x a
    match s1.verifyImage k b with
    | none => (s1.acceptImage k 1 b, some (1, b))
    | some y =>
      let s2 := (s1.rejectImage k 1 y b).mapRowan fun r => { r with stage := 7 }
      ({ s2 with balls := { s2.balls with alert := true } }.log 7 0x0903 (w32 k.stage) (w32 k.typ) (w32 y) 0, none)

/-! ### The chain (R414 to R418) -/

/-- Option loading has ended and the device can leave reset. -/
def State.bootable (s : State) : Bool :=
  decide (s.rst.phase = .training ∨ s.rst.phase = .initialising ∨ s.rst.phase = .ready)

/-- Option words 0 to 127 in force. -/
def State.fuseOnlyWords (s : State) : List (BitVec 32) := (List.range 128).map s.optionWord

/-- What the ROM extends (R421), and the hand-over to stage 1. -/
def State.romHandover (s : State) (slot : Nat) (img : FlashImage) : State :=
  let r := s.rowan
  let facts := Config.bootFacts r.lcBits r.svn (BitVec.ofNat 8 r.keyState) slot (s.optionWord 127)
    (Config.sha512 (Config.optionBytes s.fuseOnlyWords))
  let s1 := ((s.extend 0 (fieldDigest img.header 32) 0 64).extend 0 (Config.sha512 (sliceBytes img.header 0 512)) 0 64).extend 1
    (Config.sha512 facts) 0 64
  s1.mapRowan fun x =>
    { x with stage := 1, bootKey := if x.lifecycle = .blank then none else x.keySlot img.header }

/-- R414: the ROM verifies stage 1. -/
def execRomBoot (a b : FlashImage) (s : State) : Host.Outcome State Fault Refusal :=
  if s.bootable ∧ s.rowan.stage = 0 then
    match s.tryImages stage1Image a b with
    | (t, none) => .next t
    | (t, some (slot, img)) => .next (t.romHandover slot img)
  else .next s

/-- The identity certificate as hub firmware reads it (R423). -/
def State.readCert (s : State) : State :=
  if Config.certPub = s.rowan.idPub then s.mapRowan fun r => { r with idCert := Config.identityCert }
  else (s.mapRowan fun r => { r with idCert := [] }).log 4 0x0906 2 0 0 0

/-- R414, R421, R423: stage 1 verifies hub firmware once the stacks are initialised; M0 to M3 lock. -/
def execStage1Boot (a b : FlashImage) (s : State) : Host.Outcome State Fault Refusal :=
  if s.rst.phase = .ready ∧ s.rowan.stage = 1 then
    match s.tryImages hubImage a b with
    | (t, none) => .next t
    | (t, some (_, img)) =>
      let words := t.fuseOnlyWords ++ t.wordsInForce
      let u := ((t.extend 2 (fieldDigest img.header 32) 1 64).extend 2 (Config.sha512 (sliceBytes img.header 0 512)) 1 64).extend 3
        (Config.sha512 (Config.optionBytes words)) 1 64
      .next (u.mapRowan fun r => { r with stage := 2, lock := r.lock ||| 0x0F }).readCert
  else .next s

/-- R414, R421: hub firmware verifies core firmware; `config`: the digest of the configuration it applied. -/
def execHubFwBoot (a b : FlashImage) (config : BitVec 512) (s : State) : Host.Outcome State Fault Refusal :=
  if s.rst.phase = .ready ∧ s.rowan.stage = 2 ∧ s.rowan.coreReady = false then
    match s.tryImages coreImage a b with
    | (t, none) => .next t
    | (t, some (_, img)) =>
      let u := ((t.extend 4 (fieldDigest img.header 32) 2 64).extend 4 (Config.sha512 (sliceBytes img.header 0 512)) 2 64).extend 5
        config 2 64
      .next (u.mapRowan fun r =>
        { r with coreReady := true, coreEntry := w64 (headerLoad img.header + headerEntry img.header) })
  else .next s

/-- Core c is released (R416): boot_addr of every core that is not absent (R414), and its domain is switched on (R433). -/
def State.releaseCore (s : State) (c : CoreId) : State :=
  let s := if (s.core c).cond = .absent then s else s.mapCore c fun x => { x with win := { x.win with bootAddr := s.rowan.coreEntry } }
  if (s.core c).cond = .held then
    let t := s.mapCore c fun x => { x with cond := .running }
    if t.coreOn c then t.restartCore c else t.pdRequest c.val true
  else s

/-- The fabric descriptor-queue region holds zeros (R416). -/
def State.zeroQueues (s : State) : State :=
  s.setMem { s.mem with data := s.mem.data.filter fun e => !decide (0x018004000000 ≤ e.1 ∧ e.1 < 0x018004100000) }

/-- R416, R421. -/
def execCoreRelease (s : State) : Host.Outcome State Fault Refusal :=
  if s.rst.phase = .ready ∧ s.rowan.coreReady ∧ s.rowan.stage = 2 then
    let t := (List.finRange 64).foldl (fun u c => u.releaseCore c) s.zeroQueues
    .next { t with rowan := { t.rowan with stage := 3, coreReady := false, lock := t.rowan.lock ||| 0x30 }
                   balls := { t.balls with alert := false } }
  else .next s

/-! ### Quotes and extensions by software (R421, R424, R425) -/

def State.attWindow (s : State) (w : WinId) : AttWindow :=
  match w with
  | none => s.rowan.mgmtWin
  | some c => (s.core c).win.att

def State.setAtt (s : State) (w : WinId) (x : AttWindow) : State :=
  match w with
  | none => s.mapRowan fun r => { r with mgmtWin := x }
  | some c => s.mapCore c fun y => { y with win := { y.win with att := x } }

/-- A write of q_cmd; none is RANGE. A mask of 0 queues nothing. -/
def State.quoteCmd (s : State) (w : WinId) (v : Nat) : Option State :=
  let x := s.attWindow w
  if s.rowan.lifecycle = .decommissioned ∨ x.qState = 1 then none
  else if v = 0 then some s
  else
    let t := s.setAtt w { x with qState := 1 }
    some (t.mapRowan fun r => { r with quotes := r.quotes ++ [(w, BitVec.ofNat 8 v, x.nonce)] }).startQuote

/-- A signature as the device writes it: r then s, 66 bytes each. -/
def sigBytes (x : BitVec 528 × BitVec 528) : List Byte := beBytes 66 x.1.toNat ++ beBytes 66 x.2.toNat

/-- A signature by the identity key over bytes. -/
def State.signIdentity (s : State) (bs : List Byte) : State × List Byte :=
  let f := s.takeFree
  (f.2, sigBytes (Config.ecdsaSign (s.rowan.idKey.getD 0) (Config.sha512 bs) f.1))

/-- R425: the quote is signed; the next one starts. -/
def execQuoteDone (s : State) : Host.Outcome State Fault Refusal :=
  match s.rowan.signing with
  | none => .next s
  | some (w, bs) =>
    let q := s.signIdentity bs
    let t := q.1.setAtt w { q.1.attWindow w with qState := 2, qOut := bs ++ q.2 }
    .next (t.mapRowan fun r => { r with signing := none }).startQuote

/-- A write of ext_go by `who`; none is RANGE (R421). -/
def State.extGoCmd (s : State) (w : WinId) (who v : Nat) : Option State :=
  if v = 6 ∨ v = 7 then some (s.extend (Fin.ofNat 8 v) (s.attWindow w).extData 3 who) else none

/-- boot_state. -/
def Rowan.bootState (r : Rowan) : Nat :=
  r.stage.toNat + 8 * r.slotB.toNat + 256 * r.lastReason.toNat + 4096 * r.lastReject.toNat + 65536 * (r.lowestSvn % 256)

/-! ### JTAG (R485, R486) -/

/-- The instruction register holds an opcode; the TAP is out of Test-Logic-Reset. -/
def State.loadIr (s : State) (op : BitVec 8) : State :=
  { s with jtag := { s.jtag with ir := op, testLogicReset := false, extest := op == 0 } }

/-! ### The balls (R404, R405, R485, R486) -/

/-- Cells of the boundary register, one for each VIO CMOS ball but the TAP's, in the order of the ball table (log entry 112):
RST_POR_N, RST_SYS_N, PWR_FAIL_N, ALERT_N, THERMTRIP_N, PWRGD0 to 6, BOOT_SCK, BOOT_CS_N, BOOT_IO0 to 3, AVS_CLK, AVS_MDATA, AVS_SDATA. -/
def cellAlert : Nat := 3
def cellThermtrip : Nat := 4
def cellBootSck : Nat := 12
def cellBootCs : Nat := 13

/-- The static output balls as the board sees them: EXTEST drives them from the boundary register, through system and core
resets alike (R405); else the units that drive them do. A cell of 0 drives low; the open-drain balls are released by 1. -/
def State.pads (s : State) : Balls :=
  if s.jtag.extest then
    let c := fun (n : Nat) => s.jtag.boundary.getLsbD n
    { s.balls with alert := !c cellAlert, thermtrip := !c cellThermtrip, bootSck := c cellBootSck, bootCsHigh := c cellBootCs
                   bootIoDriven := true }
  else s.balls

/-- A cell of an output ball samples what the device drives there; the other cells sample what the board does. -/
def State.sampleCells (s : State) (x : BitVec 21) : BitVec 21 :=
  let p := s.pads
  let put := fun (y : BitVec 21) (n : Nat) (b : Bool) => if b then y ||| BitVec.ofNat 21 (2 ^ n) else y &&& ~~~BitVec.ofNat 21 (2 ^ n)
  let low := fun (y : BitVec 21) (n : Nat) (b : Bool) => if b then put y n false else y
  put (put (low (low x cellAlert p.alert) cellThermtrip p.thermtrip) cellBootSck p.bootSck) cellBootCs p.bootCsHigh

/-- EXTEST: the balls follow the boundary register. -/
def execExtest (s : State) : Host.Outcome State Fault Refusal := .next (s.loadIr 0x00)

/-- SAMPLE/PRELOAD. `sampled`: what the board drives on the balls. -/
def execSamplePreload (sampled : BitVec 21) (preload : Option (BitVec 21)) (s : State) :
    Host.Outcome State Fault Refusal :=
  let t := s.loadIr 0x01
  .next { t with jtag := { t.jtag with sampled := s.sampleCells sampled, boundary := preload.getD t.jtag.boundary } }

/-- IDCODE. -/
def execIdcode (s : State) : Host.Outcome State Fault Refusal := .next (s.loadIr 0x02)

/-- BYPASS. -/
def execBypass (s : State) : Host.Outcome State Fault Refusal := .next (s.loadIr 0xFF)

/-- Test-Logic-Reset loads IDCODE. -/
def execTestLogicReset (s : State) : Host.Outcome State Fault Refusal :=
  .next { s with jtag := { s.jtag with ir := 0x02, testLogicReset := true, extest := false } }

/-- SYSRESET: a system reset at the next entry to Run-Test/Idle. -/
def execSysreset (s : State) : Host.Outcome State Fault Refusal := .next ((s.loadIr 0x10).sysRequest 5)

/-- RECOVER: a stage-1 image for a ROM that rejected both slots (R417). -/
def execRecover (img : FlashImage) (s : State) : Host.Outcome State Fault Refusal :=
  let t := s.loadIr 0x11
  if t.bootable ∧ t.rowan.stage = 7 ∧ t.rowan.lastReject = 0 then
    match t.verifyImage stage1Image img with
    | none => .next ((t.acceptImage stage1Image 2 img).romHandover 2 img)
    | some why => .next (t.rejectImage stage1Image 2 why img)
  else .next t

/-- KEYPROG: into a blank slot, never in DECOMMISSIONED (R407); refused under the debug lock (R409); it lies in PD95 (R427;
log entry 113). -/
def execKeyprog (slot : Fin 4) (hash : BitVec 512) (s : State) : Host.Outcome State Fault Refusal :=
  let t := s.loadIr 0x12
  if t.domainOn 95 = false ∨ t.debugLocked ∨ t.rowan.lifecycle = .decommissioned ∨ t.rowan.keys[slot] ≠ 0 then .next t
  else .next (t.mapRowan fun r => { r with keys := r.keys.set slot.val hash slot.isLt })

/-- LCADV: to SECURED only with a valid slot (R407); refused under the debug lock (R409); it lies in PD95 (R427). -/
def execLcadv (s : State) : Host.Outcome State Fault Refusal :=
  let t := s.loadIr 0x13
  let r := t.rowan
  if t.domainOn 95 = false ∨ t.debugLocked then .next t
  else
    match r.lifecycle with
    | .blank =>
      if (List.finRange 4).any fun k => r.keyValid r.revoked k then .next (t.mapRowan fun x => { x with lcBits := 1 })
      else .next t
    | .secured => .next (t.mapRowan fun x => { x with lcBits := 3 })
    | .decommissioned => .next t

/-- Debug instructions (R485): with PD95 off or under the debug lock, and for opcodes not listed, the bypass register and no
other effect. Elsewhere the instruction is loaded and selects its debug register; the accesses that are shifted through it
afterwards are no row of the table, and no rule gives their form (log entry 112). -/
def execJtagDebug (opcode : BitVec 8) (s : State) : Host.Outcome State Fault Refusal := .next (s.loadIr opcode)

/-- The identification register (R486). -/
def idRegister : BitVec 32 := (Config.stepping ++ 0x6400#16 ++ 0x4E7#11 ++ 1#1 : BitVec 32)

/-- Data registers of the TAP. -/
inductive TapRegister where
  | boundary
  | identification
  | bypass
  | debug
  deriving DecidableEq, Repr

/-- Data register the instruction selects (R485); KEYPROG, RECOVER and their like, whose data come with the command, are not
told apart from BYPASS. -/
def State.tapSelects (s : State) : TapRegister :=
  let op := s.jtag.ir
  if op = 0x00 ∨ op = 0x01 then .boundary
  else if op = 0x02 then .identification
  else if 0x20 ≤ op.toNat ∧ op.toNat < 0x40 ∧ s.domainOn 95 ∧ s.debugLocked = false then .debug
  else .bypass

/-- States of the TAP controller (IEEE 1149.1) in which commands find and leave it, and those in which a register is shifted. -/
inductive TapState where
  | testLogicReset
  | runTestIdle
  | shiftDr
  | shiftIr
  deriving DecidableEq, Repr

/-- TDO is driven only in Shift-DR and Shift-IR (R404). -/
def TapState.drivesTdo : TapState → Bool
  | .shiftDr => true
  | .shiftIr => true
  | _ => false

/-- Between commands: each is a whole scan that ends in Run-Test/Idle (log entry 112). -/
def Jtag.state (j : Jtag) : TapState := if j.testLogicReset then .testLogicReset else .runTestIdle

/-- TDO, through every reset level: no level but the power-on reset touches the TAP (R404, R405). -/
def State.tdoDriven (s : State) : Bool := s.jtag.state.drivesTdo
end Sys2Proof.Machine
end

