-- ==== Sys2Proof/Machine/Chain.lean ====
section
/-!
DEFINITION. The stages of the Bramble chain on one element, and the lane reduce (R194 to R205): shared
by register forms, tensor forms and drains.
-/
namespace Sys2Proof.Machine

/-- A value in the working format: float or integer (R196). -/
inductive Work where
  | f (v : FVal)
  | i (n : Int)
  deriving DecidableEq, Repr

def Work.float : Work → FVal
  | .f v => v
  | .i n => FVal.ofInt n

def Work.int : Work → Int
  | .i n => n
  | .f _ => 0

/-- What one instruction configures, its scalars and formats taken at issue (R83, R198). -/
structure Chain where
  op : BitVec 5
  func : BitVec 3
  sfmt : Fmt
  dfmt : Fmt
  rm : RMode
  ctl : FmtCtl
  raw : Word
  s0 : Work
  s1 : FVal
  deriving DecidableEq, Repr

def Chain.wide (k : Chain) : Bool := k.sfmt.workWide
def Chain.isInt (k : Chain) : Bool := k.sfmt.isInt
def Chain.width (k : Chain) : Nat := if k.wide then 64 else 32

/-! ### Operations (R199) -/

def opCeq : BitVec 5 := 0x18
def opDrop : BitVec 5 := 0x1C
def opRandu : BitVec 5 := 0x1D
def opRandb : BitVec 5 := 0x1E

def opKnown (op : BitVec 5) : Bool := op.toNat ≤ 0x15 || (0x18 ≤ op.toNat && op.toNat ≤ 0x1E)

/-- The Uses vs2 column. -/
def opUsesB (op : BitVec 5) : Bool :=
  (1 ≤ op.toNat && op.toNat ≤ 7) || op.toNat == 0xB || op.toNat == 0xC ||
  (0x10 ≤ op.toNat && op.toNat ≤ 0x12) || (0x18 ≤ op.toNat && op.toNat ≤ 0x1B)

/-- Comparisons (R200). -/
def opCompares (op : BitVec 5) : Bool := 0x18 ≤ op.toNat && op.toNat ≤ 0x1B

/-- No vector source is read (R201). -/
def opReadsA (op : BitVec 5) : Bool := op != opRandu && op != opRandb

/-- The Kind column admits the working kind. -/
def opKind (op : BitVec 5) (isInt : Bool) : Bool :=
  if isInt then
    op.toNat ≤ 3 || op.toNat == 8 || op.toNat == 9 || (0xB ≤ op.toNat && op.toNat ≤ 0x15) ||
    opCompares op || op == opRandb
  else op.toNat ≤ 0xF || opCompares op || op == opDrop || op == opRandu

/-- An integer result saturates at the working width (R197). -/
def satWork (w : Nat) (i : Int) : Work × BitVec 6 :=
  let (j, cut) := clampInt w i
  (.i j, flagIf cut fSAT)

/-- Bits of an integer at the working width, and back. -/
def bitsOf (w : Nat) (i : Int) : BitVec w := BitVec.ofInt w i

/-- An integer operation (R197, R199). -/
def intOp (op : BitVec 5) (w : Nat) (a b s0 : Int) : Work × BitVec 6 :=
  let n := min (s0 % 64).toNat w
  match op.toNat with
  | 0x01 => satWork w (a + b)
  | 0x02 => satWork w (a - b)
  | 0x03 => satWork w (a * b)
  | 0x08 => satWork w (a + s0)
  | 0x09 => satWork w (a * s0)
  | 0x0B => (.i (min a b), 0)
  | 0x0C => (.i (max a b), 0)
  | 0x0D => satWork w a.natAbs
  | 0x0E => satWork w (-a)
  | 0x0F => (.i (max a s0), 0)
  | 0x10 => (.i (bitsOf w a &&& bitsOf w b).toInt, 0)
  | 0x11 => (.i (bitsOf w a ||| bitsOf w b).toInt, 0)
  | 0x12 => (.i (bitsOf w a ^^^ bitsOf w b).toInt, 0)
  | 0x13 => (.i (bitsOf w a <<< n).toInt, 0)
  | 0x14 => (.i ((bitsOf w a).sshiftRight n).toInt, 0)
  | 0x15 => (.i (bitsOf w a >>> n).toInt, 0)
  | _ => (.i a, 0)

/-- abs and neg never set NV; a NaN operand gives the NaN of R33 with its sign cleared or turned. -/
def signOp (v : FVal) (neg : Bool) : FVal :=
  match v with
  | .nan _ p w _ => .nan neg (Nat.lor p (2 ^ (w - 1))) w true
  | x => x.withSign neg

/-- A float operation with its rounding to the working format (R195, R199, R201). DESIGN CHOICE (log entry 130): the operand order of
R33 is a, s0, b in `fmab` and in `fnmab`, and a, b, s0 in `fma` and `fms`. -/
def floatOp (k : Chain) (a b : FVal) (d : BitVec 128) : FVal × BitVec 6 :=
  let s0 := k.s0.float
  let r := rounded k.wide
  match k.op.toNat with
  | 0x01 => r (fAdd a b)
  | 0x02 => r (fSub a b)
  | 0x03 => r (fMul a b)
  | 0x04 => r (fFma a b s0)
  | 0x05 => r (fFma a b s0.negated)
  | 0x06 => r (fFma a s0 b)
  | 0x07 => r (fFma a.negated s0 b)
  | 0x08 => r (fAdd a s0)
  | 0x09 => r (fMul a s0)
  | 0x0A =>
    let t := r (fAdd a k.s1)
    let u := r (fMul t.1 s0)
    (u.1, t.2 ||| u.2)
  | 0x0B => fMin a b
  | 0x0C => fMax a b
  | 0x0D => (signOp a false, 0)
  | 0x0E => (signOp a (!a.sign), 0)
  | 0x0F => fMax a s0
  | 0x1C =>
    if drawField d 1 < (k.raw.extractLsb' 0 16).toNat then (.zero false, 0)
    else r (fMul a (decodeFloat .fp32 (k.raw.extractLsb' 32 32).toNat))
  | 0x1D => (.num false (2 * (d.extractLsb' 41 23).toNat + 1) (-24), 0)
  | _ => (a, 0)

/-- Stage 3 (R199). -/
def arithStage (k : Chain) (a b : Work) (d : BitVec 128) : Work × BitVec 6 :=
  if k.isInt then intOp k.op k.width a.int b.int k.s0.int
  else
    let r := floatOp k a.float b.float d
    (.f r.1, r.2)

/-- Stage 4 (R204). -/
def funcStage (k : Chain) (v : Work) : Work × BitVec 6 :=
  match v with
  | .i n => (.i n, 0)
  | .f x =>
    let r := functionStage k.wide k.func x
    (.f r.1, r.2)

/-- Stage 1 of an element that no block scale governs: exact (R194, R196). -/
def unpackElem (f : Fmt) (raw : Nat) : Work :=
  if f.isInt then .i (BitVec.ofNat f.bits raw).toInt else .f (decodeElem f raw)

/-- Stage 2 with a power of two (R195, R197, R198). -/
def scaleStage (k : Chain) (sexp : Int) (v : Work) : Work × BitVec 6 :=
  if sexp = 0 then (v, 0)
  else
    match v with
    | .i n => if 0 < sexp then satWork k.width (n * 2 ^ sexp.toNat) else (.i (n / 2 ^ (-sexp).toNat), 0)
    | .f x =>
      let r := roundWork k.wide (x.scaled sexp)
      (.f r.1, r.2)

/-- Stage 6 (R205): raw bits of the element and flags. DESIGN CHOICE (log entry 131): an integer value beyond the largest finite value
of a floating-point destination takes the finite-overflow row of R42, `fmtctl.sat` included. -/
def packStage (k : Chain) (v : Work) (r : Nat) : Nat × BitVec 6 :=
  encodeElem k.dfmt v.float k.rm k.ctl k.isInt r

/-- randb: the raw bits of the element (R201). -/
def randBits (f : Fmt) (d : BitVec 128) : Nat := (d.extractLsb' 32 64).toNat % 2 ^ f.bits

/-- Stages 3 to 6 of one element whose inputs are unpacked and scaled: the value stage 5 sees, the raw
result, flags. -/
def chainElem (k : Chain) (a b : Work) (d : BitVec 128) : Work × Nat × BitVec 6 :=
  if k.op = opRandb then
    let raw := randBits k.dfmt d
    (.i (BitVec.ofNat k.dfmt.bits raw).toInt, raw, 0)
  else
    let x := arithStage k a b d
    let y := funcStage k x.1
    let z := packStage k y.1 (drawField d 0)
    (y.1, z.1, x.2 ||| y.2 ||| z.2)

/-! ### Scalars (R198) -/

/-- s0, s1 and flags from the register; `raw` is 0 where skind is 0. -/
def chainScalars (sfmt : Fmt) (op : BitVec 5) (skind : BitVec 2) (srcp : Bool) (raw : Word) :
    Work × FVal × BitVec 6 :=
  let wide := sfmt.workWide
  if sfmt.isInt then
    (.i (if skind = 2 then (if wide then raw.toInt else (raw.setWidth 32).toInt) else 0), .zero false, 0)
  else if skind = 1 then
    let s0 := if wide then decodeFloat .fp64 raw.toNat else decodeFloat .fp32 (raw.setWidth 32).toNat
    let s1 := if wide then .zero false else decodeFloat .fp32 (raw.extractLsb' 32 32).toNat
    let r := if srcp then functionStage wide 3 s0 else (s0, 0)
    (.f r.1, s1, r.2)
  else if skind = 2 ∧ op ≠ opDrop then
    let r := roundWork wide (FVal.ofInt (if wide then raw.toInt else (raw.setWidth 32).toInt))
    (.f r.1, .zero false, r.2)
  else (.f (.zero false), .zero false, 0)

/-! ### Lane reduce (R202, R203) -/

/-- One addition of the reduce, rounded to the working format. -/
def reduceAdd (wide : Bool) (a b : Work) : Work × BitVec 6 :=
  match a, b with
  | .i x, .i y => satWork (if wide then 64 else 32) (x + y)
  | _, _ =>
    let r := rounded wide (fAdd a.float b.float)
    (.f r.1, r.2)

/-- Addition of two places of the tree, of which either may hold no active element. -/
def reducePair (wide : Bool) (x y : Option Work × BitVec 6) : Option Work × BitVec 6 :=
  match x.1, y.1 with
  | some a, some b =>
    let r := reduceAdd wide a b
    (some r.1, x.2 ||| y.2 ||| r.2)
  | some a, none => (some a, x.2 ||| y.2)
  | none, b => (b, x.2 ||| y.2)

/-- One level of the tree. -/
def treeLevel (wide : Bool) : List (Option Work × BitVec 6) → List (Option Work × BitVec 6)
  | x :: y :: xs => reducePair wide x y :: treeLevel wide xs
  | xs => xs

/-- A balanced binary tree in lane order. -/
def treeSum (wide : Bool) : Nat → List (Option Work × BitVec 6) → Option Work × BitVec 6
  | 0, xs => xs.headD (none, 0)
  | n + 1, xs => treeSum wide n (treeLevel wide xs)

/-- Active element at index i of a list of (index, value). -/
def laneAt (vs : List (Nat × Work)) (i : Nat) : Option Work :=
  match vs.find? fun e => e.1 == i with
  | none => none
  | some e => some e.2

/-- Sum of the beat that holds `per` elements from index `first` (R203; log entry 29). -/
def beatSum (wide : Bool) (vs : List (Nat × Work)) (first per : Nat) : Option Work × BitVec 6 :=
  treeSum wide (Nat.log2 per) ((List.range per).map fun j => (laneAt vs (first + j), 0))

/-- The beat sums added in beat order; +0 where no element is active (R203). -/
def reduceSum (wide isInt : Bool) (per : Nat) (vs : List (Nat × Work)) : Work × BitVec 6 :=
  let beats := ((vs.map fun e => e.1 / per).eraseDups)
  let r := beats.foldl (fun acc b =>
    reducePair wide acc (beatSum wide (vs.filter fun e => e.1 / per == b) (b * per) per)) (none, 0)
  match r.1 with
  | none => (if isInt then .i 0 else .f (.zero false), r.2)
  | some v => (v, r.2)

/-- The first NaN among the active values. -/
def firstNanAt : List (Nat × Work) → Option (Nat × FVal)
  | [] => none
  | (i, .f v) :: vs => if v.isNan then some (i, v) else firstNanAt vs
  | _ :: vs => firstNanAt vs

/-- x wins over y as a maximum (or minimum); an equal one does not (R203). -/
def beats (isMax : Bool) (x y : Work) : Bool :=
  match x, y with
  | .i a, .i b => if isMax then decide (b < a) else decide (a < b)
  | _, _ => if isMax then y.float.ltZ x.float else x.float.ltZ y.float

/-- Maximum or minimum with the index of the winner (R203). -/
def reduceExt (isMax wide isInt : Bool) (vs : List (Nat × Work)) : Work × Word × BitVec 6 :=
  match firstNanAt vs with
  | some (i, v) =>
    let fl := nanFlags (vs.map fun e => e.2.float)
    (.f ((firstNan [v]).getD v), w64 i, fl)
  | none =>
    match vs with
    | [] =>
      let w := if wide then 64 else 32
      (if isInt then .i (if isMax then intMin w else intMax w) else .f (.inf isMax), BitVec.allOnes 64, 0)
    | (i, v) :: rest =>
      let best := rest.foldl (fun b e => if beats isMax e.2 b.2 then e else b) (i, v)
      (best.2, w64 best.1, 0)

/-- Reduction of the active values: value, index for a maximum or minimum, flags. `red`: 1 sum, 2 maximum,
3 minimum. -/
def laneReduce (red : BitVec 2) (wide isInt : Bool) (per : Nat) (vs : List (Nat × Work)) :
    Work × Option Word × BitVec 6 :=
  if red = 1 then
    let r := reduceSum wide isInt per vs
    (r.1, none, r.2)
  else
    let r := reduceExt (red == 2) wide isInt vs
    (r.1, some r.2.1, r.2.2)

end Sys2Proof.Machine
end

