-- ==== Sys2Proof/Machine/Vector.lean ====
section
/-!
DEFINITION. Vector registers, masks and groups (R112 to R120), the mask operations (R121) and the
permutations and moves (R132, R133).
-/
namespace Sys2Proof.Machine

/-! ### Elements and masks -/

/-- Element i, of w lane bytes, of the group at register r (R112, R113). -/
def Vectors.elem (x : Vectors) (r i w : Nat) : Nat := leNat (cellsGet x.v (2048 * r + w * i) w)

/-- The element written: every byte of its lanes (R115). -/
def Vectors.setElem (x : Vectors) (r i w raw : Nat) : Vectors :=
  { x with v := cellsSet x.v (2048 * r + w * i) (leBytes w raw) }

/-- Governing bit of element i under mask m (R120). -/
def Vectors.maskBit (x : Vectors) (m i w : Nat) : Bool := flagGet x.m (16384 * m + w * i)

/-- n mask bits from bit b upward. -/
def setMaskBits (m : Sparse Bool) (v : Bool) : Nat → Nat → Sparse Bool
  | _, 0 => m
  | b, n + 1 => setMaskBits (flagSet m b v) v (b + 1) n

/-- All w bits of element i of mask m (R120). -/
def Vectors.setMaskElem (x : Vectors) (m i w : Nat) (v : Bool) : Vectors :=
  { x with m := setMaskBits x.m v (16384 * m + w * i) w }

/-- Element i is active: me = 0, or its governing bit is 1 (R118). -/
def Vectors.active (x : Vectors) (me : Bool) (ms i w : Nat) : Bool := !me || x.maskBit ms i w

/-- Registers of a group field (R113). -/
def groupSize (grp : BitVec 2) : Nat := 2 ^ grp.toNat

/-- Elements a group holds (R117). -/
def capacity (g w : Nat) : Nat := 2048 * g / w

/-- Register ranges [a, a + m) and [b, b + n) share a register. -/
def groupsOverlap (a m b n : Nat) : Bool := decide (a < b + n ∧ b < a + m)

/-- What an element of a destination becomes: kept, or written with a raw value. -/
abbrev ElemWrite := Option Nat

/-- Elements start to stop − 1 in order: an active one takes `value`, a masked-off one zero where zm = 1.
Every value is read from the registers as they were at issue (log entry 28). -/
def elemWrites (x : Vectors) (me zm : Bool) (ms w start stop : Nat) (value : Nat → ElemWrite) :
    List (Nat × Nat) :=
  (List.range stop).filterMap fun i =>
    if i < start then none
    else if x.active me ms i w then (value i).map fun v => (i, v)
    else if zm then some (i, 0)
    else none

/-- The writes made in order to a group. -/
def Vectors.writeElems (x : Vectors) (r w : Nat) (ws : List (Nat × Nat)) : Vectors :=
  ws.foldl (fun y e => y.setElem r e.1 w e.2) x

/-- The writes made in order to a mask. -/
def Vectors.writeMask (x : Vectors) (m w : Nat) (ws : List (Nat × Nat)) : Vectors :=
  ws.foldl (fun y e => y.setMaskElem m e.1 w (e.2 != 0)) x

def State.vec (s : State) (c : CoreId) : Vectors := (s.core c).vec

def State.setVec (s : State) (c : CoreId) (x : Vectors) : State := s.mapCore c fun y => { y with vec := x }

/-- Completion writes 0 to vresume (R111). -/
def State.clearResume (s : State) (c : CoreId) : State := s.mapCtl c fun t => { t with vresume := 0 }

/-- vl and vresume at issue. -/
def State.vlen (s : State) (c : CoreId) : Nat := (s.core c).ctl.vl.toNat
def State.vstart (s : State) (c : CoreId) : Nat := (s.core c).ctl.vresume.toNat

/-- vxf.oor is sticky (R119). -/
def State.setOor (s : State) (c : CoreId) (b : Bool) : State :=
  if b then s.mapCtl c fun t => { t with oor := true } else s

/-! ### Issue checks (R113, R114, R117, R121, R132) -/

/-- cfg and rm are reserved in permutation and mask forms; code 0xF is reserved (R114, R122). -/
def vrBadHead (f : VrFields) : Bool := f.cfg != 0 || f.rm != 0 || f.fmt == 15

/-- Width of the element type in fmt. -/
def vrWidth (f : VrFields) : Nat :=
  match Fmt.ofCode f.fmt with
  | none => 1
  | some t => t.lanes

def vrGroup (f : VrFields) : Nat := groupSize f.grp

/-- A mask register field: its upper two bits are reserved (R121). -/
def badMaskField (v : Fin 32) : Bool := decide (8 ≤ v.val)

/-- VLEN: vl above the capacity (R117). -/
def State.vlenCauses (s : State) (c : CoreId) (g w : Nat) : List Cause :=
  failIf (decide (capacity g w < s.vlen c)) (cVLEN (s.pc c))

/-- Issue checks of a mask form: `maskFields` are its mask register fields. DEDUCED: sfmt, and the vector fields a mask form does
not use, are not checked, since R122 names only cfg and rm as reserved there (log entry 127). -/
def State.maskCauses (s : State) (c : CoreId) (f : VrFields) (maskFields : List (Fin 32)) : List Cause :=
  failIf (vrBadHead f || maskFields.any badMaskField) (cILLEGAL (s.pc c)) ++
  s.vlenCauses c (vrGroup f) (vrWidth f)

/-- Issue checks of a permutation form other than vperm: `bad` is its own ILLEGAL condition, `regs` its
vector operands, `apart` the pair that must not overlap. DEDUCED: vector fields the form does not use are not checked (log
entry 127). -/
def State.permCauses (s : State) (c : CoreId) (f : VrFields) (bad : Bool) (regs : List (Fin 32))
    (apart : Bool) : List Cause :=
  let g := (vrGroup f)
  failIf (vrBadHead f || f.sfmt == 15 || bad) (cILLEGAL (s.pc c)) ++
  failIf (regs.any (fun r => r.val % g != 0) || (apart && groupsOverlap f.vd.val g f.vs1.val g))
    (cVGROUP (s.pc c)) ++
  failIf (f.sfmt != f.fmt) (cVFORMAT (s.pc c)) ++
  s.vlenCauses c g (vrWidth f)

/-! ### Shapes of meaning -/

/-- R117: with vl = 0 a form that passed its checks writes nothing but vresume. -/
def State.unlessEmpty (s : State) (c : CoreId) (e : Effect) : Effect :=
  if s.vlen c = 0 then .done (s.clearResume c) else e

/-- R131: with vresume at or above vl it processes no element and writes nothing but vresume. -/
def State.unlessDone (s : State) (c : CoreId) (e : Effect) : Effect :=
  if s.vlen c ≤ s.vstart c then .done (s.clearResume c) else e

/-- A register form that writes elements of vd. -/
def State.vectorWrite (s : State) (c : CoreId) (f : VrFields) (value : Nat → ElemWrite) : State :=
  let x := s.vec c
  let ws := elemWrites x f.me f.zm f.ms.val (vrWidth f) (s.vstart c) (s.vlen c) value
  (s.setVec c (x.writeElems f.vd.val (vrWidth f) ws)).clearResume c

/-- A mask operation that writes elements of md. -/
def State.maskWrite (s : State) (c : CoreId) (f : VrFields) (value : Nat → Bool) : State :=
  let x := s.vec c
  let ws := elemWrites x f.me f.zm f.ms.val (vrWidth f) (s.vstart c) (s.vlen c) fun i => some (bit (value i))
  (s.setVec c (x.writeMask f.vd.val (vrWidth f) ws)).clearResume c

/-- Two-source, one-source and no-source mask operations: checks, then the bits. -/
def State.maskOp (s : State) (c : CoreId) (f : VrFields) (fields : List (Fin 32))
    (op : Bool → Bool → Bool) : Host.Outcome State Fault Refusal :=
  s.issueVector c 8 fun t =>
    t.orTrap (t.maskCauses c f fields)
      (.done (t.maskWrite c f fun i =>
        op ((t.vec c).maskBit f.vs1.val i (vrWidth f)) ((t.vec c).maskBit f.vs2.val i (vrWidth f))))

/-- Active elements from the starting index whose governing bit under vs1 is 1 (R121). -/
def State.maskHits (s : State) (c : CoreId) (f : VrFields) : List Nat :=
  let x := s.vec c
  (List.range (s.vlen c)).filter fun i =>
    decide (s.vstart c ≤ i) && x.active f.me f.ms.val i (vrWidth f) && x.maskBit f.vs1.val i (vrWidth f)

/-! ### Mask operations (R121) -/

/-- R121. -/
def execMand (c : CoreId) (f : VrFields) (s : State) : Host.Outcome State Fault Refusal :=
  s.maskOp c f [f.vd, f.vs1, f.vs2] fun a b => a && b

/-- R121. -/
def execMor (c : CoreId) (f : VrFields) (s : State) : Host.Outcome State Fault Refusal :=
  s.maskOp c f [f.vd, f.vs1, f.vs2] fun a b => a || b

/-- R121. -/
def execMxor (c : CoreId) (f : VrFields) (s : State) : Host.Outcome State Fault Refusal :=
  s.maskOp c f [f.vd, f.vs1, f.vs2] fun a b => a != b

/-- R121. -/
def execMandn (c : CoreId) (f : VrFields) (s : State) : Host.Outcome State Fault Refusal :=
  s.maskOp c f [f.vd, f.vs1, f.vs2] fun a b => a && !b

/-- R121. -/
def execMnot (c : CoreId) (f : VrFields) (s : State) : Host.Outcome State Fault Refusal :=
  s.maskOp c f [f.vd, f.vs1] fun a _ => !a

/-- R121. -/
def execMset (c : CoreId) (f : VrFields) (s : State) : Host.Outcome State Fault Refusal :=
  s.maskOp c f [f.vd] fun _ _ => true

/-- R121. -/
def execMpopc (c : CoreId) (f : VrFields) (s : State) : Host.Outcome State Fault Refusal :=
  s.issueVector c 8 fun t =>
    t.orTrap (t.maskCauses c f [f.vs1])
      (t.unlessEmpty c (.done ((t.setG c f.vd (w64 (t.maskHits c f).length)).clearResume c)))

/-- R121: the index is counted from element 0. -/
def execMfirst (c : CoreId) (f : VrFields) (s : State) : Host.Outcome State Fault Refusal :=
  s.issueVector c 8 fun t =>
    t.orTrap (t.maskCauses c f [f.vs1])
      (t.unlessEmpty c (.done ((t.setG c f.vd (match (t.maskHits c f).head? with
                              | none => BitVec.allOnes 64
                              | some i => w64 i)).clearResume c)))

/-- Byte j of mask m as a register lane holds it. -/
def Vectors.maskByte (x : Vectors) (m j : Nat) : Byte :=
  BitVec.ofNat 8 ((List.range 8).foldl (fun n b => n + bit (flagGet x.m (16384 * m + 8 * j + b)) * 2 ^ b) 0)

/-- R121: whatever vl, grp, mask and vresume. -/
def execMtov (c : CoreId) (f : VrFields) (s : State) : Host.Outcome State Fault Refusal :=
  s.issueVector c 8 fun t =>
    t.orTrap (failIf (vrBadHead f || badMaskField f.vs1) (cILLEGAL (t.pc c)))
      (let x := t.vec c
       let bs := (List.range 2048).map fun j => x.maskByte f.vs1.val j
       .done (t.setVec c { x with v := cellsSet x.v (2048 * f.vd.val) bs }))

/-- All 16,384 bits of a mask from a register's bytes. -/
def Vectors.maskFrom (x : Vectors) (m r : Nat) : Vectors :=
  (List.range 2048).foldl (fun y j =>
    (List.range 8).foldl (fun z b =>
      { z with m := flagSet z.m (16384 * m + 8 * j + b) ((cellGet x.v (2048 * r + j)).getLsbD b) }) y) x

/-- R121: whatever vl, grp, mask and vresume. -/
def execVtom (c : CoreId) (f : VrFields) (s : State) : Host.Outcome State Fault Refusal :=
  s.issueVector c 8 fun t =>
    t.orTrap (failIf (vrBadHead f || badMaskField f.vd) (cILLEGAL (t.pc c)))
      (.done (t.setVec c ((t.vec c).maskFrom f.vd.val f.vs1.val)))

/-- R117: vl := min(gs, capacity), gd := the new vl. -/
def execVsetvl (c : CoreId) (f : VrFields) (s : State) : Host.Outcome State Fault Refusal :=
  s.issueVector c 8 fun t =>
    t.orTrap (failIf (vrBadHead f) (cILLEGAL (t.pc c)))
      (let n := min (t.getG c f.vs3).toNat (capacity (vrGroup f) (vrWidth f))
       .done ((t.mapCtl c fun k => { k with vl := BitVec.ofNat 15 n }).setG c f.vd (w64 n)))

/-! ### Permutations and moves (R132, R133) -/

/-- The low w bytes of a register. -/
def lowBytes (v : Word) (w : Nat) : Nat := v.toNat % 256 ^ w

/-- R132. -/
def execVmv (c : CoreId) (f : VrFields) (s : State) : Host.Outcome State Fault Refusal :=
  s.issueVector c 8 fun t =>
    t.orTrap (t.permCauses c f false [f.vd, f.vs1] false)
      (.done (t.vectorWrite c f fun i => some ((t.vec c).elem f.vs1.val i (vrWidth f))))

/-- R132. DEDUCED: the lane takes the low w bytes of g with no bits formed above a narrower element (log entry 126). -/
def execVbcast (c : CoreId) (f : VrFields) (s : State) : Host.Outcome State Fault Refusal :=
  s.issueVector c 8 fun t =>
    t.orTrap (t.permCauses c f false [f.vd] false)
      (.done (t.vectorWrite c f fun _ => some (lowBytes (t.getG c f.vs3) (vrWidth f))))

/-- Index width of vperm: I16 or I32 (R132). -/
def permIndexBytes (sfmt : BitVec 4) : Option Nat :=
  if sfmt = 12 then some 2 else if sfmt = 13 then some 4 else none

/-- Registers an index group spans (R126, R132). -/
def indexSpan (g wi w : Nat) : Nat := max 1 (g * wi / w)

/-- Issue checks of vperm. -/
def State.vpermCauses (s : State) (c : CoreId) (f : VrFields) : List Cause :=
  let g := (vrGroup f)
  let span := match permIndexBytes f.sfmt with
    | none => 1
    | some wi => indexSpan g wi (vrWidth f)
  failIf (vrBadHead f || f.sfmt == 15) (cILLEGAL (s.pc c)) ++
  failIf (f.vd.val % g != 0 || f.vs1.val % g != 0 || decide (8 < span) || f.vs2.val % span != 0 ||
      groupsOverlap f.vd.val g f.vs1.val g || groupsOverlap f.vd.val g f.vs2.val span) (cVGROUP (s.pc c)) ++
  failIf (permIndexBytes f.sfmt).isNone (cVFORMAT (s.pc c)) ++
  s.vlenCauses c g (vrWidth f)

/-- R132, R133: an index at or beyond vl gives 0 and sets vxf.oor. -/
def execVperm (c : CoreId) (f : VrFields) (s : State) : Host.Outcome State Fault Refusal :=
  s.issueVector c 8 fun t =>
    t.orTrap (t.vpermCauses c f)
      (let x := t.vec c
       let n := t.vlen c
       let idx := fun i => x.elem f.vs2.val i ((permIndexBytes f.sfmt).getD 2)
       let out := (List.range n).any fun i =>
         decide (t.vstart c ≤ i) && x.active f.me f.ms.val i (vrWidth f) && decide (n ≤ idx i)
       .done ((t.vectorWrite c f fun i =>
         some (if idx i < n then x.elem f.vs1.val (idx i) (vrWidth f) else 0)).setOor c out))

/-- R132: elements below n are unchanged. -/
def execVslideup (c : CoreId) (f : VrFields) (s : State) : Host.Outcome State Fault Refusal :=
  s.issueVector c 8 fun t =>
    t.orTrap (t.permCauses c f false [f.vd, f.vs1] true)
      (let x := t.vec c
       let n := (t.getG c f.vs3).toNat
       let ws := elemWrites x f.me f.zm f.ms.val (vrWidth f) (max (t.vstart c) n) (t.vlen c) fun i =>
         some (x.elem f.vs1.val (i - n) (vrWidth f))
       .done ((t.setVec c (x.writeElems f.vd.val (vrWidth f) ws)).clearResume c))

/-- R132. -/
def execVslidedown (c : CoreId) (f : VrFields) (s : State) : Host.Outcome State Fault Refusal :=
  s.issueVector c 8 fun t =>
    t.orTrap (t.permCauses c f false [f.vd, f.vs1] true)
      (let x := t.vec c
       let n := (t.getG c f.vs3).toNat
       .done (t.vectorWrite c f fun i =>
         some (if i + n < t.vlen c then x.elem f.vs1.val (i + n) (vrWidth f) else 0)))

/-- Active elements below vl, counted from element 0 (R131). -/
def State.activeElems (s : State) (c : CoreId) (f : VrFields) : List Nat :=
  (List.range (s.vlen c)).filter fun i => (s.vec c).active f.me f.ms.val i (vrWidth f)

/-- R132: active elements of vs1, in order, go to vd[0] and onward. -/
def execVcompress (c : CoreId) (f : VrFields) (s : State) : Host.Outcome State Fault Refusal :=
  s.issueVector c 8 fun t =>
    t.orTrap (t.permCauses c f (!f.me) [f.vd, f.vs1] true)
      (let x := t.vec c
       let ws := ((t.activeElems c f).zipIdx.filter fun e => decide (t.vstart c ≤ e.1)).map fun e =>
         (e.2, x.elem f.vs1.val e.1 (vrWidth f))
       .done ((t.setVec c (x.writeElems f.vd.val (vrWidth f) ws)).clearResume c))

/-- R132: the k-th active element takes vs1[k]; inactive elements follow zm. -/
def execVexpand (c : CoreId) (f : VrFields) (s : State) : Host.Outcome State Fault Refusal :=
  s.issueVector c 8 fun t =>
    t.orTrap (t.permCauses c f (!f.me) [f.vd, f.vs1] true)
      (let x := t.vec c
       let acts := t.activeElems c f
       .done (t.vectorWrite c f fun i =>
         some (x.elem f.vs1.val (acts.filter fun j => decide (j < i)).length (vrWidth f))))

/-- R132: reads its element whatever the mask; me, ms and zm are reserved. DEDUCED: gd takes the whole lane of an element narrower
than a byte ("moves copy the raw lane bits"; log entry 126), and below vl element and vxf.oor do not depend on vresume (log entry 128). -/
def execVext (c : CoreId) (f : VrFields) (s : State) : Host.Outcome State Fault Refusal :=
  s.issueVector c 8 fun t =>
    t.orTrap (t.permCauses c f (f.me || f.zm || f.ms != 0) [f.vs1] false)
      (let n := (t.getG c f.vs3).toNat
       let inside := decide (n < t.vlen c)
       t.unlessDone c (.done
         (((t.setG c f.vd (if inside then w64 ((t.vec c).elem f.vs1.val n (vrWidth f)) else 0)).setOor c
           (!inside)).clearResume c)))

/-- R132: element g1 is written as an element under the mask. DEDUCED: the lane takes the low w bytes of g2 with no bits formed above
a narrower element (log entry 126); below vl vxf.oor does not depend on vresume (log entry 128). -/
def execVins (c : CoreId) (f : VrFields) (s : State) : Host.Outcome State Fault Refusal :=
  s.issueVector c 8 fun t =>
    t.orTrap (t.permCauses c f false [f.vd] false)
      (let g1 := (t.getG c f.vs1).toNat
       let x := t.vec c
       t.unlessDone c (if g1 < t.vlen c then
         let ws :=
           if g1 < t.vstart c then []
           else if x.active f.me f.ms.val g1 (vrWidth f) then [(g1, lowBytes (t.getG c f.vs3) (vrWidth f))]
           else if f.zm then [(g1, 0)] else []
         .done ((t.setVec c (x.writeElems f.vd.val (vrWidth f) ws)).clearResume c)
       else .done ((t.setOor c true).clearResume c)))

end Sys2Proof.Machine
end

