-- ==== Sys2Proof/Machine/Bramble.lean ====
section
/-!
DEFINITION. Register forms of the Bramble chain (R196 to R205).
-/
namespace Sys2Proof.Machine

/-- The scale exponent of a register form, −16 to 15 (R198). -/
def vrSexp (f : VrFields) : Int := (f.cfg.extractLsb' 3 5).toInt
def vrSkind (f : VrFields) : BitVec 2 := f.cfg.extractLsb' 0 2
def vrSrcp (f : VrFields) : Bool := f.cfg.getLsbD 2

/-- Lane width of the instruction (R196). -/
def chainLanes (sf df : Fmt) : Nat := max (max sf.lanes df.lanes) sf.workLanes

/-- Group size of an operand of ew lane bytes (R196). -/
def operandGroup (g ew w : Nat) : Nat := max 1 (g * ew / w)

/-- ILLEGAL conditions that register and tensor forms share (R44, R198, R199, R201, R202). -/
def chainIllegal (op : BitVec 5) (red : BitVec 2) (skind : BitVec 2) (srcp : Bool)
    (rm : Option RMode) : Bool :=
  !opKnown op || rm.isNone || skind == 3 || (srcp && skind != 1) || (op == opDrop && skind != 2) ||
  (red != 0 && opUsesB op)

/-- VFORMAT conditions that register and tensor forms share (R198 to R201). -/
def chainFormat (op : BitVec 5) (func : BitVec 3) (skind : BitVec 2) (sf df : Fmt) : Bool :=
  !opKind op sf.isInt || (sf.isInt && (func != 0 || skind == 1)) || (op == 0x0A && sf.workWide) ||
  (op == opRandb && !df.isInt)

/-- Issue checks of a register form. -/
def State.vcCauses (s : State) (c : CoreId) (op : BitVec 5) (func : BitVec 3) (red : BitVec 2)
    (f : VrFields) (sf df : Fmt) : List Cause :=
  let w := chainLanes sf df
  let gs := operandGroup (vrGroup f) sf.lanes w
  let gd := operandGroup (vrGroup f) df.lanes w
  let cmp := opCompares op
  let rm := RMode.ofField f.rm (s.core c).ctl.rm
  failIf (chainIllegal op red (vrSkind f) (vrSrcp f) rm ||
      (cmp && (func != 0 || red != 0 || badMaskField f.vd)) ||
      (decide (2 ≤ red.toNat) && f.vs2 == 31) || (!opReadsA op && f.vs1 != 0)) (cILLEGAL (s.pc c)) ++
  failIf ((opReadsA op && f.vs1.val % gs != 0) || (opUsesB op && f.vs2.val % gs != 0) ||
      (!cmp && f.vd.val % gd != 0)) (cVGROUP (s.pc c)) ++
  failIf (chainFormat op func (vrSkind f) sf df || (cmp && decide (sf ≠ df))) (cVFORMAT (s.pc c)) ++
  s.vlenCauses c (vrGroup f) w

/-- What one active element gives: index, the value stage 5 sees, what is written, flags. -/
structure ElemResult where
  idx : Nat
  value : Work
  raw : Nat
  flags : BitVec 6
  deriving DecidableEq, Repr

/-- One active element of a register form: stages 1 to 6, or the comparison. -/
def registerElem (k : Chain) (f : VrFields) (x : Vectors) (d : DrawCtx) (i : Nat) : ElemResult :=
  let a := if opReadsA k.op then unpackElem k.sfmt (x.elem f.vs1.val i k.sfmt.lanes)
           else if k.isInt then .i 0 else .f (.zero false)
  let b := if opUsesB k.op then unpackElem k.sfmt (x.elem f.vs2.val i k.sfmt.lanes)
           else if k.isInt then .i 0 else .f (.zero false)
  let u := scaleStage k (vrSexp f) a
  if opCompares k.op then
    let cond := k.op.extractLsb' 0 2
    if k.isInt then ⟨i, u.1, bit (iCompare cond u.1.int b.int), u.2⟩
    else
      let r := fCompare cond u.1.float b.float
      ⟨i, u.1, bit r.1, u.2 ||| r.2⟩
  else
    let r := chainElem k u.1 b (d.draw i)
    ⟨i, r.1, r.2.1, u.2 ||| r.2.2⟩

/-- The results written to vd or to the mask, masked-off elements as zm says (R118, R120). -/
def Vectors.writeResults (x : Vectors) (k : Chain) (f : VrFields) (start stop : Nat)
    (rs : List ElemResult) : Vectors :=
  let e := k.dfmt.lanes
  let ws := elemWrites x f.me f.zm f.ms.val e start stop fun i =>
    (rs.find? fun r => r.idx == i).map fun r => if opCompares k.op then r.raw else laneOf k.dfmt r.raw
  if opCompares k.op then x.writeMask f.vd.val e ws else x.writeElems f.vd.val e ws

/-- The reduction of a register form written to its g registers (R202). -/
def State.writeReduction (s : State) (c : CoreId) (k : Chain) (red : BitVec 2) (f : VrFields)
    (d : DrawCtx) (rs : List ElemResult) : State :=
  if red = 0 then s
  else
    let per := 512 / chainLanes k.sfmt k.dfmt
    let r := laneReduce red k.wide k.isInt per (rs.map fun e => (e.idx, e.value))
    let p := packStage k r.1 (drawField (d.draw 0) 7)
    let s1 := s.raiseFlags c (r.2.2 ||| p.2)
    if f.vs2 = 0 then s1
    else
      let s2 := s1.setG c f.vs2 (w64 p.1)
      match r.2.1 with
      | none => s2
      | some i => s2.setG c (f.vs2 + 1) i

/-- The configuration an instruction takes at issue (R83). -/
def State.chainOf (s : State) (c : CoreId) (op : BitVec 5) (func : BitVec 3) (f : VrFields) (sf df : Fmt)
    (rm : RMode) : Chain × BitVec 6 :=
  let t := (s.core c).ctl
  let raw := if vrSkind f = 0 then 0 else s.getG c f.vs3
  let r := chainScalars sf op (vrSkind f) (vrSrcp f) raw
  (⟨op, func, sf, df, rm, ⟨t.fmtSat, t.fmtDnan⟩, raw, r.1, r.2.1⟩, r.2.2)

/-- The effect of a register form that passed its checks: elements, reduction, flags, rngctr + vl,
vresume := 0 (R48, R52, R111, R202). -/
def State.runRegisterForm (s : State) (c : CoreId) (red : BitVec 2) (f : VrFields) (k : Chain)
    (fl0 : BitVec 6) : State :=
  let x := s.vec c
  let d := s.vectorDraws c
  let vl := s.vlen c
  let rs := ((List.range vl).filter fun i =>
      decide (s.vstart c ≤ i) && x.active f.me f.ms.val i k.dfmt.lanes).map fun i => registerElem k f x d i
  let s1 := s.setVec c (x.writeResults k f (s.vstart c) vl rs)
  let s2 := s1.raiseFlags c (rs.foldl (fun a r => a ||| r.flags) fl0)
  (s2.writeReduction c k red f d rs).mapCtl c fun t =>
    { t with rngctr := t.rngctr + w64 vl, vresume := 0 }

/-- A chain configuration in register form (R198). -/
def State.registerForm (s : State) (c : CoreId) (op : BitVec 5) (func : BitVec 3) (red : BitVec 2)
    (f : VrFields) : Host.Outcome State Fault Refusal :=
  s.issueVector c 8 fun t =>
    match Fmt.ofCode f.sfmt, Fmt.ofCode f.fmt with
    | some sf, some df =>
      t.orTrap (t.vcCauses c op func red f sf df)
        (let k := t.chainOf c op func f sf df ((RMode.ofField f.rm (t.core c).ctl.rm).getD .rne)
         t.unlessEmpty c (.done (t.runRegisterForm c red f k.1 k.2)))
    | _, _ => .trap t (cILLEGAL (t.pc c))

/-- R198, R199. -/
def execVc (c : CoreId) (op : BitVec 5) (func : BitVec 3) (red : BitVec 2) (f : VrFields) (s : State) :
    Host.Outcome State Fault Refusal := s.registerForm c op func red f

/-- R200: cond 0 ceq, 1 clt, 2 cle, 3 cne. -/
def execVcCompare (c : CoreId) (cond : BitVec 2) (func : BitVec 3) (red : BitVec 2) (f : VrFields)
    (s : State) : Host.Outcome State Fault Refusal :=
  s.registerForm c (opCeq + cond.setWidth 5) func red f

/-- R201. -/
def execVcDrop (c : CoreId) (func : BitVec 3) (red : BitVec 2) (f : VrFields) (s : State) :
    Host.Outcome State Fault Refusal := s.registerForm c opDrop func red f

/-- R201. -/
def execVcRandu (c : CoreId) (func : BitVec 3) (red : BitVec 2) (f : VrFields) (s : State) :
    Host.Outcome State Fault Refusal := s.registerForm c opRandu func red f

/-- R201. -/
def execVcRandb (c : CoreId) (func : BitVec 3) (red : BitVec 2) (f : VrFields) (s : State) :
    Host.Outcome State Fault Refusal := s.registerForm c opRandb func red f

end Sys2Proof.Machine
end

