-- ==== Sys2Proof/Machine/Branch.lean ====
section
/-!
DEFINITION. Control transfer (R64) and the hardware loops (R78 to R81).
-/
namespace Sys2Proof.Machine

/-- Checks of a branch or jump target: within the bounds of pcc, 4-byte aligned (R64). -/
def targetCauses (k : Cap) (t : Word) : List Cause :=
  failIf (k.firstOutside t.toNat 1).isSome (cTARGETBOUNDS t) ++ failIf (t.toNat % 4 != 0) (cTARGETALIGN t)

/-- A conditional branch: taken, its target is checked at the branch (R64). -/
def branch (c : CoreId) (rs1 rs2 : GReg) (off12 : BitVec 12) (cond : Word → Word → Bool) (s : State) :
    Host.Outcome State Fault Refusal :=
  s.issueTransfer c 4 fun t =>
    if cond (t.getG c rs1) (t.getG c rs2) then
      let k := (t.core c).pcc
      let g := wordTarget k.cursor off12
      t.orTrap (targetCauses k g) (.jump t (k.setCursor g))
    else .done t

/-- A jump that links: a bad target leaves rd and pcc unchanged (R64). -/
def jumpLink (c : CoreId) (rd : GReg) (g : State → Word) (s : State) : Host.Outcome State Fault Refusal :=
  s.issueTransfer c 4 fun t =>
    let k := (t.core c).pcc
    t.orTrap (targetCauses k (g t)) (.jump (t.setG c rd (k.cursor + 4)) (k.setCursor (g t)))

/-- R64. -/
def execBeq (c : CoreId) (rs1 rs2 : GReg) (off12 : BitVec 12) (s : State) : Host.Outcome State Fault Refusal :=
  branch c rs1 rs2 off12 (fun a b => a == b) s

/-- R64. -/
def execBne (c : CoreId) (rs1 rs2 : GReg) (off12 : BitVec 12) (s : State) : Host.Outcome State Fault Refusal :=
  branch c rs1 rs2 off12 (fun a b => a != b) s

/-- R64. -/
def execBlt (c : CoreId) (rs1 rs2 : GReg) (off12 : BitVec 12) (s : State) : Host.Outcome State Fault Refusal :=
  branch c rs1 rs2 off12 (fun a b => a.slt b) s

/-- R64. -/
def execBge (c : CoreId) (rs1 rs2 : GReg) (off12 : BitVec 12) (s : State) : Host.Outcome State Fault Refusal :=
  branch c rs1 rs2 off12 (fun a b => !a.slt b) s

/-- R64. -/
def execBltu (c : CoreId) (rs1 rs2 : GReg) (off12 : BitVec 12) (s : State) : Host.Outcome State Fault Refusal :=
  branch c rs1 rs2 off12 (fun a b => a.ult b) s

/-- R64. -/
def execBgeu (c : CoreId) (rs1 rs2 : GReg) (off12 : BitVec 12) (s : State) : Host.Outcome State Fault Refusal :=
  branch c rs1 rs2 off12 (fun a b => !a.ult b) s

/-- R64. -/
def execJal (c : CoreId) (rd : GReg) (off20 : BitVec 20) (s : State) : Host.Outcome State Fault Refusal :=
  jumpLink c rd (fun t => wordTarget (t.pc c) off20) s

/-- R64: rs1 is read before rd is written. -/
def execJalr (c : CoreId) (rd rs1 : GReg) (imm12 : BitVec 12) (s : State) : Host.Outcome State Fault Refusal :=
  jumpLink c rd (fun t => t.getG c rs1 + sext imm12) s

/-- Length in bytes of the instruction at instruction-space address a: bit 6 of its first byte, as the core's instruction cache
or the store holds it (R57). The device reads it so without a fetch of its own: no bounds, no poison, no line brought in
(log entry 115). -/
def State.lengthAt (s : State) (c : CoreId) (a : Word) : Nat :=
  if (s.instByte c a.toNat).getLsbD 6 then 8 else 4

/-- The level a loop instruction takes; none raises LOOP_NEST (R78). The end addresses of the two levels must differ at
whichever level is taken (log entry 116). -/
def Control.loopLevel (t : Control) (start last : Word) : Option (Fin 2) :=
  if t.lc0 = 0 then (if t.le1 = last then none else some 0)
  else if t.lc1 ≠ 0 then none
  else if start.toNat < t.ls0.toNat ∨ t.le0.toNat < last.toNat ∨ last = t.le0 then none
  else some 1

/-- Loop registers of level n set (R78). -/
def Control.setLoop (t : Control) (n : Fin 2) (count start last : Word) : Control :=
  if n = 0 then { t with lc0 := count, ls0 := start, le0 := last, status := { t.status with lm := true } }
  else { t with lc1 := count, ls1 := start, le1 := last, status := { t.status with lm := true } }

/-- R78: eoff = 0 is reserved, and so is imm10 with im = 0 and gc with im = 1 (R59); a count of 0 continues after the
instruction at the loop's end. -/
def execLoop (c : CoreId) (im : Bool) (gc : GReg) (imm10 : BitVec 10) (eoff : BitVec 9) (s : State) : Host.Outcome State Fault Refusal :=
  s.issueTransfer c 4 fun t =>
    let x := t.core c
    let pc := x.pcc.cursor
    let last := pc + 4 * eoff.setWidth 64
    if eoff = 0 ∨ (im = false ∧ imm10 ≠ 0) ∨ (im = true ∧ gc ≠ 0) then .trap t (cILLEGAL pc)
    else
      match x.ctl.loopLevel (pc + 4) last with
      | none => .trap t (cLOOPNEST pc)
      | some n =>
        let count := if im then imm10.setWidth 64 else x.getG gc
        let t1 := t.mapCtl c fun k => k.setLoop n count (pc + 4) last
        if count = 0 then .jump t1 (x.pcc.setCursor (last + w64 (t.lengthAt c last))) else .done t1

/-- The end address of the innermost active level while lm = 1, and the registers with it ended (R81). -/
def Control.endInner (t : Control) : Option (Control × Word) :=
  if t.status.lm = false then none
  else if t.lc1 ≠ 0 then some ({ t with lc1 := 0 }, t.le1)
  else if t.lc0 ≠ 0 then some ({ t with lc0 := 0 }, t.le0)
  else none

/-- R81. -/
def execEndloop (c : CoreId) (s : State) : Host.Outcome State Fault Refusal :=
  s.issueTransfer c 4 fun t =>
    match (t.core c).ctl.endInner with
    | none => .done t
    | some (k, last) =>
      let t1 := t.mapCtl c fun _ => k
      .jump t1 ((t.core c).pcc.setCursor (last + w64 (t.lengthAt c last)))

end Sys2Proof.Machine
end

