-- ==== Sys2Proof/Machine/Capability.lean ====
section
/-!
DEFINITION. Capability instructions (R97 to R99), the shadow bank (R103 to R105), exception return,
ECALL, BRK and the entry of an asynchronous event (R98, R101, R106).
-/
namespace Sys2Proof.Machine

/-- The operand is tagged and unsealed; checked for no single access, so xaddr is 0 (R491). -/
def plainCauses (k : Cap) (r : KReg) : List Cause := capUseCauses k (kNum r) [] 0

/-- A derivation of kd from a tagged, unsealed ks1 (R98). -/
def derive (c : CoreId) (kd ks1 : KReg) (f : State → Cap → Cap) (s : State) :
    Host.Outcome State Fault Refusal :=
  s.issue c 4 fun t =>
    let k := t.getK c ks1
    t.orTrap (plainCauses k ks1) (.done (t.setK c kd (f t k)))

/-- R98: copied with its tag, whatever it is. -/
def execKmov (c : CoreId) (kd ks1 : KReg) (s : State) : Host.Outcome State Fault Refusal :=
  s.issue c 4 fun t => .done (t.setK c kd (t.getK c ks1))

/-- Field f of a capability (R98). -/
def Cap.field (k : Cap) (f : Nat) : Word :=
  match f with
  | 0 => k.cursor
  | 1 => w64 k.base
  | 2 => if 2 ^ 64 ≤ k.top - k.base then BitVec.allOnes 64 else w64 (k.top - k.base)
  | 3 => k.perms.setWidth 64
  | 4 => k.otype.setWidth 64
  | 5 => bitWord k.isSealed
  | _ => bitWord k.tag

/-- R98: f above 6 is illegal. Bounds that R90 never decodes (untagged data) are free values. -/
def execKread (c : CoreId) (gd : GReg) (ks1 : KReg) (f : BitVec 5) (s : State) :
    Host.Outcome State Fault Refusal :=
  s.issue c 4 fun t =>
    let k := t.getK c ks1
    if 6 < f.toNat then .trap t (cILLEGAL (t.pc c))
    else if k.boundsGiven = false ∧ (f = 1 ∨ f = 2) then t.takeFree.2.doneG c gd t.takeFree.1
    else t.doneG c gd (k.field f.toNat)

/-- R98, R91. -/
def execKstep (c : CoreId) (kd ks1 : KReg) (g : GReg) (s : State) : Host.Outcome State Fault Refusal :=
  derive c kd ks1 (fun t k => k.setCursor (k.cursor + t.getG c g)) s

/-- R98, R91. -/
def execKpoint (c : CoreId) (kd ks1 : KReg) (g : GReg) (s : State) : Host.Outcome State Fault Refusal :=
  derive c kd ks1 (fun t k => k.setCursor (t.getG c g)) s

/-- R92: bounds narrowed, or CAP_MONO with the requested base. -/
def narrowing (c : CoreId) (kd ks1 : KReg) (g : GReg) (exact : Bool) (s : State) :
    Host.Outcome State Fault Refusal :=
  s.issue c 4 fun t =>
    let k := t.getK c ks1
    match k.narrow (t.getG c g).toNat exact with
    | none => t.orTrap (plainCauses k ks1) (.trap t (cCAPMONO k.cursor (kNum ks1)))
    | some k' => t.orTrap (plainCauses k ks1) (.done (t.setK c kd k'))

/-- R92. -/
def execKnarrow (c : CoreId) (kd ks1 : KReg) (g : GReg) (s : State) : Host.Outcome State Fault Refusal :=
  narrowing c kd ks1 g false s

/-- R92. -/
def execKnarrowx (c : CoreId) (kd ks1 : KReg) (g : GReg) (s : State) : Host.Outcome State Fault Refusal :=
  narrowing c kd ks1 g true s

/-- R98. -/
def execKperm (c : CoreId) (kd ks1 : KReg) (g : GReg) (s : State) : Host.Outcome State Fault Refusal :=
  derive c kd ks1 (fun t k => k.setPerms (k.perms &&& (t.getG c g).setWidth 16)) s

/-- ks2 of klock or kunlock: tagged, unsealed, holding the permission, cursor within bounds (R98). -/
def sealerCauses (k : Cap) (r : KReg) (perm : Nat) : List Cause :=
  capUseCauses k (kNum r) [perm] 0 ++ capBoundsCauses k (kNum r) k.cursor 1

/-- klock seals to software and fabric types, the gate and the return type only (R89, R98). -/
def sealableType (v : Word) : Bool := decide (v ≠ 0 ∧ v.toNat ≤ 0x7F ∧ ¬(0x60 ≤ v.toNat ∧ v.toNat ≤ 0x7D))

/-- R98. -/
def execKlock (c : CoreId) (kd ks1 ks2 : KReg) (s : State) : Host.Outcome State Fault Refusal :=
  s.issue c 4 fun t =>
    let k := t.getK c ks1
    let j := t.getK c ks2
    t.orTrap (plainCauses k ks1 ++ sealerCauses j ks2 permSeal ++
        failIf (!sealableType j.cursor) (cCAPTYPE (kNum ks2)))
      (.done (t.setK c kd (k.sealAs (j.cursor.setWidth 7))))

/-- R98. -/
def execKunlock (c : CoreId) (kd ks1 ks2 : KReg) (s : State) : Host.Outcome State Fault Refusal :=
  s.issue c 4 fun t =>
    let k := t.getK c ks1
    let j := t.getK c ks2
    t.orTrap (failIf (!k.tag) (cCAPTAG 0 (kNum ks1)) ++ sealerCauses j ks2 permUnseal ++
        failIf (!k.isSealed || k.otype.setWidth 64 != j.cursor) (cCAPTYPE (kNum ks1)))
      (.done (t.setK c kd k.unseal))

/-- R98. -/
def execKwithin (c : CoreId) (gd : GReg) (ks1 ks2 : KReg) (s : State) : Host.Outcome State Fault Refusal :=
  s.issue c 4 fun t =>
    let k := t.getK c ks1
    let j := t.getK c ks2
    t.doneG c gd (bitWord (k.tag && j.tag && k.within j))

/-- R98. -/
def execKstrip (c : CoreId) (kd ks1 : KReg) (s : State) : Host.Outcome State Fault Refusal :=
  s.issue c 4 fun t => .done (t.setK c kd (t.getK c ks1).strip)

/-- Cursor that kgo jumps to (R99). -/
def kgoTarget (k : Cap) (offset : Word) : Word := if k.isSealed then k.cursor else k.cursor + offset

/-- Checks of kgo in the order tag, seal, permission, type, target (R98, R99). -/
def kgoCauses (k : Cap) (r : KReg) (g : GReg) (offset : Word) : List Cause :=
  let gate := k.isSealed && k.otype == otypeGate
  let v := kgoTarget k offset
  failIf (!k.tag) (cCAPTAG 0 (kNum r)) ++ failIf (gate && g != 0) (cCAPSEALED 0 (kNum r)) ++
  failIf (!k.has permExec) (cCAPPERM 0 (kNum r)) ++ failIf (k.isSealed && !gate) (cCAPTYPE (kNum r)) ++
  failIf (!k.representable v || !(k.setCursor v).cursorInside)
    { cTARGETBOUNDS v with creg := kNum r, cpcc := false } ++
  failIf (v.toNat % 4 != 0) { cTARGETALIGN v with creg := kNum r, cpcc := false }

/-- R99: kd takes the old pcc at the next instruction, sealed as a gate; ks1 is read first. -/
def execKgo (c : CoreId) (kd ks1 : KReg) (g : GReg) (s : State) : Host.Outcome State Fault Refusal :=
  s.issueTransfer c 4 fun t =>
    let k := t.getK c ks1
    let pcc := (t.core c).pcc
    let link := (pcc.setCursor (pcc.cursor + 4)).sealAs otypeGate
    t.orTrap (kgoCauses k ks1 g (t.getG c g))
      (.jump (t.setK c kd link) (k.setCursor (kgoTarget k (t.getG c g))).unseal)

/-- R98: pcc with cursor + g. -/
def execKpc (c : CoreId) (kd : KReg) (g : GReg) (s : State) : Host.Outcome State Fault Refusal :=
  s.issue c 4 fun t =>
    let pcc := (t.core c).pcc
    .done (t.setK c kd (pcc.setCursor (pcc.cursor + t.getG c g)))

/-- An instruction that needs a permission of pcc (R88, R491). -/
def State.needPcc (s : State) (c : CoreId) (perm : Nat) : List Cause :=
  failIf (!(s.core c).pcc.has perm) cPCCPERM

/-- R97. -/
def execKmfc (c : CoreId) (kd : KReg) (cc : BitVec 5) (s : State) : Host.Outcome State Fault Refusal :=
  s.issue c 4 fun t =>
    let x := t.core c
    t.orTrap (failIf (decide (1 < cc.toNat)) (cILLEGAL (t.pc c)) ++ t.needPcc c permMask)
      (.done (t.setK c kd (if cc = 0 then x.xvcc else x.xdcc)))

/-- R97. -/
def execKmtc (c : CoreId) (cc : BitVec 5) (ks1 : KReg) (s : State) : Host.Outcome State Fault Refusal :=
  s.issue c 4 fun t =>
    let k := t.getK c ks1
    t.orTrap (failIf (decide (1 < cc.toNat)) (cILLEGAL (t.pc c)) ++ t.needPcc c permMask)
      (t.doneCore c fun x => if cc = 0 then { x with xvcc := k } else { x with xdcc := k })

/-! ### Shadow bank -/

/-- The granules of the save area, in order: sixteen bytes and whether they carry a tag (R103). -/
def Shadow.granules (h : Shadow) : List (List Byte × Bool) :=
  let g (n : Nat) : List Byte := leBytes 8 (vget h.g n 0).toNat
  let plain := (List.range 15).map fun i => (g (2 * i + 1) ++ g (2 * i + 2), false)
  let last := [(g 31 ++ leBytes 8 h.status.toWord.toNat, false)]
  let caps := (h.k.toList ++ [h.pcc]).map fun k => (leBytes 16 k.bits.toNat, k.tag)
  plain ++ last ++ caps ++ List.replicate 7 (leBytes 16 0, false)

/-- Granules written from a upward. -/
def State.writeGranules (s : State) (c : CoreId) (a : Nat) : List (List Byte × Bool) → State
  | [] => s
  | (bs, tag) :: gs => (s.scalarWrite c a bs tag).writeGranules c (a + 16) gs

/-- n granules read from a upward; the first poisoned one stops the read, and its own address is given. DESIGN CHOICE (log entry 132):
the POISON of `shload` gives that 16-byte address in xaddr. -/
def State.readGranules (s : State) (c : CoreId) (a : Nat) : Nat → State × (Nat ⊕ List (List Byte × Bool))
  | 0 => (s, .inr [])
  | n + 1 =>
    let (s1, v) := s.scalarRead c a 16
    if v.poison then (s1, .inl a)
    else
      match s1.readGranules c (a + 16) n with
      | (s2, .inl x) => (s2, .inl x)
      | (s2, .inr gs) => (s2, .inr ((v.bytes, v.tag) :: gs))

/-- Checks of the 640-byte area (R103). -/
def State.areaCauses (s : State) (k : Cap) (r : KReg) (needs : List Nat) : List Cause :=
  s.accessCauses k (kNum r) needs k.cursor 640 16

/-- R103, R104. -/
def execShsave (c : CoreId) (ks1 : KReg) (s : State) : Host.Outcome State Fault Refusal :=
  s.issue c 4 fun t =>
    let k := t.getK c ks1
    let h := (t.core c).shadow
    let a := k.cursor.toNat
    t.orTrap (t.areaCauses k ks1 [permStore, permStoreCap] ++
        failIf ((h.k.toList.any (fun j => j.tag) || h.pcc.tag) && (t.firstHub a 640).isSome)
          (cTAGUNSUPPORTED k.cursor (kNum ks1)))
      (.done ((t.writeGranules c a h.granules).mapCtl c fun x => { x with status := { x.status with sb := false } }))

/-- A capability of the save area. -/
def areaCap (gs : List (List Byte × Bool)) (i : Nat) (keep : Bool) : Cap :=
  let e := gs.getD i ([], false)
  ⟨BitVec.ofNat 128 (leNat e.1), e.2 && keep⟩

/-- The shadow bank that a save area holds (R103). -/
def shadowOf (gs : List (List Byte × Bool)) (keep : Bool) : Shadow :=
  let word (n : Nat) : Word := w64 (fieldNat ((gs.getD (n / 2) ([], false)).1) (8 * (n % 2)) 8)
  let st := word 31
  { g := Vector.ofFn fun i : Fin 32 => if i = 0 then 0 else word (i.val - 1)
    k := Vector.ofFn fun i : Fin 16 => areaCap gs (16 + i.val) keep
    pcc := areaCap gs 32 keep
    status := ⟨st.getLsbD 0, st.getLsbD 1, st.getLsbD 2, st.getLsbD 3⟩ }

/-- R103, R104. -/
def execShload (c : CoreId) (ks1 : KReg) (s : State) : Host.Outcome State Fault Refusal :=
  s.issue c 4 fun t =>
    let k := t.getK c ks1
    match firstCause (t.areaCauses k ks1 [permLoad]) with
    | some e => .trap t e
    | none =>
      match t.readGranules c k.cursor.toNat 33 with
      | (t1, .inl a) => .trap t1 (cPOISON (w64 a) (kNum ks1))
      | (t1, .inr gs) =>
        t1.doneCore c fun x =>
          { x with shadow := shadowOf gs (k.has permLoadCap),
                   ctl := { x.ctl with status := { x.ctl.status with sb := true } } }

/-- R103: n from 1 to 31. -/
def execMfsg (c : CoreId) (gd : GReg) (n : BitVec 5) (s : State) : Host.Outcome State Fault Refusal :=
  s.issue c 4 fun t =>
    if n = 0 then .trap t (cILLEGAL (t.pc c)) else t.doneG c gd (vget (t.core c).shadow.g n.toNat 0)

/-- R103: n from 1 to 31. -/
def execMtsg (c : CoreId) (n : BitVec 5) (g : GReg) (s : State) : Host.Outcome State Fault Refusal :=
  s.issue c 4 fun t =>
    if n = 0 then .trap t (cILLEGAL (t.pc c))
    else t.doneCore c fun x => { x with shadow := { x.shadow with g := vset x.shadow.g n.toNat (x.getG g) } }

/-- R103: n from 0 to 15, or 16 for the shadow pcc. -/
def execMfsk (c : CoreId) (kd : KReg) (n : BitVec 5) (s : State) : Host.Outcome State Fault Refusal :=
  s.issue c 4 fun t =>
    let h := (t.core c).shadow
    if 16 < n.toNat then .trap t (cILLEGAL (t.pc c))
    else .done (t.setK c kd (if n.toNat = 16 then h.pcc else vget h.k n.toNat capNull))

/-- R103. -/
def execMtsk (c : CoreId) (n : BitVec 5) (ks1 : KReg) (s : State) : Host.Outcome State Fault Refusal :=
  s.issue c 4 fun t =>
    if 16 < n.toNat then .trap t (cILLEGAL (t.pc c))
    else t.doneCore c fun x =>
      let k := x.getK ks1
      if n.toNat = 16 then { x with shadow := { x.shadow with pcc := k } }
      else { x with shadow := { x.shadow with k := vset x.shadow.k n.toNat k } }

/-- R103. -/
def execMfss (c : CoreId) (gd : GReg) (s : State) : Host.Outcome State Fault Refusal :=
  s.issue c 4 fun t => t.doneG c gd (t.core c).shadow.status.toWord

/-- R103: all of the shadow status but sb. -/
def execMtss (c : CoreId) (g : GReg) (s : State) : Host.Outcome State Fault Refusal :=
  s.issue c 4 fun t => t.doneCore c fun x =>
    let v := x.getG g
    { x with shadow := { x.shadow with
        status := ⟨v.getLsbD 0, v.getLsbD 1, x.shadow.status.sb, v.getLsbD 3⟩ } }

/-- R103: the seal is kept. -/
def execXadv (c : CoreId) (n : BitVec 5) (s : State) : Host.Outcome State Fault Refusal :=
  s.issue c 4 fun t => t.doneCore c fun x =>
    let p := x.shadow.pcc
    { x with shadow := { x.shadow with pcc := p.setCursor (p.cursor + 4 * sext n) } }

/-! ### Return, traps and events -/

/-- R106: a failed check is reported in place and execution continues in the handler; the instruction retires, so SINGLE_STEP
may follow (the model's choice, log entry 149). -/
def execXret (c : CoreId) (s : State) : Host.Outcome State Fault Refusal :=
  s.issueTransfer c 4 fun t =>
    match (t.core c).xretFails with
    | some k => .done (t.mapCtl c fun x =>
        { x with xcause := xcauseWord k.code false false 0 k.cpcc 0, xaddr := k.addr })
    | none => .jump (t.mapCore c fun x => x.returned) (t.core c).shadow.pcc.unseal

/-- R98. -/
def execEcall (c : CoreId) (s : State) : Host.Outcome State Fault Refusal :=
  s.issue c 4 fun t => .trap t (cECALL (t.pc c))

/-- R98. -/
def execBrk (c : CoreId) (s : State) : Host.Outcome State Fault Refusal :=
  s.issue c 4 fun t => .trap t (cBRK (t.pc c))

/-- An event is taken at an instruction boundary, or between the rows of a tile load (R101, R110). -/
def CoreState.atBoundary (x : CoreState) : Bool :=
  (match x.tile.op with | none => true | some (.tld _) => true | _ => false) && decide (x.str.wait = .none)

/-- The core's own fetch at pcc: a fetch cause, or ILLEGAL where the word there spells no instruction, is taken (R57, R59).
A word that spells one has no effect here: its command executes it (log entry 21). -/
def State.fetchWord (s : State) (c : CoreId) : State :=
  let pc := s.pc c
  let len := s.lengthAt c pc
  match s.fetch c len with
  | (s1, some k) => s1.takeCause c k pc
  | (s1, none) =>
    match decodeLanhibin c (BitVec.ofNat 64 (s1.instNat c pc.toNat len)) with
    | some _ => s
    | none => s1.takeCause c (cILLEGAL pc) pc

/-- R101, R107, R108: the event of lowest priority number is taken; a tile load in progress stops. With no event deliverable, what
the fetch of the next instruction raises is taken. -/
def execExceptionEntry (c : CoreId) (s : State) : Host.Outcome State Fault Refusal :=
  match s.deliverableEvent c with
  | none => .next (if s.canIssue c then s.fetchWord c else s)
  | some code =>
    if s.coreRuns c && (s.core c).atBoundary then
      .next ((s.mapCore c fun x =>
        { x with notice := x.notice.taken code, tile := { x.tile with op := none } }).takeEvent c code)
    else .next s

end Sys2Proof.Machine
end

