-- ==== Sys2Proof/Machine/ControlRegs.lean ====
section
/-!
DEFINITION. The control registers as mfc and mtc see them (R56, R51, R83, R84, R107, R109, R119, R193).
-/
namespace Sys2Proof.Machine

/-- xcause, fflags and the others as 64-bit words; none for a number that is not assigned (R56). -/
def CoreState.readCtl (x : CoreState) (c : CoreId) (n : Nat) : Option Word :=
  let t := x.ctl
  match n with
  | 0x00 => some t.status.toWord
  | 0x01 => some (t.xcause.setWidth 64)
  | 0x02 => some t.xaddr
  | 0x03 => some (t.vresume.setWidth 64)
  | 0x04 => some (t.trestart.setWidth 64)
  | 0x08 => some (bitWord t.fmtSat + 2 * bitWord t.fmtDnan)
  | 0x09 => some (t.tid ++ t.rm.setWidth 32)
  | 0x0A => some (t.fflags.setWidth 64)
  | 0x0B => some t.rngctr
  | 0x0C => some (t.vl.setWidth 64)
  | 0x0D => some (bitWord t.oor)
  | 0x10 => some t.lc0
  | 0x11 => some t.ls0
  | 0x12 => some t.le0
  | 0x13 => some t.lc1
  | 0x14 => some t.ls1
  | 0x15 => some t.le1
  | 0x18 => some (t.iostat.setWidth 64)
  | 0x1C => some (t.rplfsr.setWidth 64)
  | 0x20 => some t.cycle
  | 0x21 => some t.instret
  | 0x22 => some (w64 (c.val + 256 * x.phys.toNat))
  | _ => none

/-- Word-aligned loop address: bits [1:0] read zero (R82). -/
def loopAddr (v : Word) : Word := v &&& ~~~3

/-- The control registers after a permitted mtc of n; none for a read-only or unassigned number. -/
def Control.write (t : Control) (n : Nat) (v : Word) : Option Control :=
  match n with
  | 0x00 => some { t with status := { t.status with ie := v.getLsbD 0, lm := v.getLsbD 1, ss := v.getLsbD 3 } }
  | 0x01 => some { t with xcause := v.setWidth 16 }
  | 0x02 => some { t with xaddr := v }
  | 0x03 => some { t with vresume := v.setWidth 15 }
  | 0x04 => some { t with trestart := v.setWidth 11 }
  | 0x08 => some { t with fmtSat := v.getLsbD 0, fmtDnan := v.getLsbD 1 }
  | 0x09 => if 4 < (v.extractLsb' 0 3).toNat then none
            else some { t with rm := v.setWidth 3, tid := v.extractLsb' 32 32 }
  | 0x0A => some { t with fflags := v.setWidth 6 }
  | 0x0B => some { t with rngctr := v }
  | 0x0C => some { t with vl := BitVec.ofNat 15 (min v.toNat 16384) }
  | 0x0D => some { t with oor := v.getLsbD 0 }
  | 0x10 => some { t with lc0 := v }
  | 0x11 => some { t with ls0 := loopAddr v }
  | 0x12 => some { t with le0 := loopAddr v }
  | 0x13 => some { t with lc1 := v }
  | 0x14 => some { t with ls1 := loopAddr v }
  | 0x15 => some { t with le1 := loopAddr v }
  | 0x1C => some { t with rplfsr := if v.setWidth 16 = (0 : BitVec 16) then 0xACE1 else v.setWidth 16 }
  | _ => none

/-- A write of status that changes ie without MASK, or sets ss without DEBUG (R107; log entry 17). -/
def CoreState.statusDenied (x : CoreState) (v : Word) : Bool :=
  (v.getLsbD 0 != x.ctl.status.ie && !x.pcc.has permMask) ||
    (v.getLsbD 3 && !x.ctl.status.ss && !x.pcc.has permDebug)

/-- An access of fflags waits for every drain, which can still set flags (R84). -/
def CoreState.flagsWait (x : CoreState) (n : Nat) : Bool := n == 0x0A && !x.tile.drains.isEmpty

/-- R56, R84. -/
def execMfc (c : CoreId) (rd : GReg) (ctl : BitVec 6) (s : State) : Host.Outcome State Fault Refusal :=
  s.issue c 4 fun t =>
    match (t.core c).readCtl c ctl.toNat with
    | none => .trap t (cILLEGAL (t.pc c))
    | some v => if (t.core c).flagsWait ctl.toNat then .stay t else t.doneG c rd v

/-- R56, R83, R84, R107. -/
def execMtc (c : CoreId) (ctl : BitVec 6) (rs1 : GReg) (s : State) : Host.Outcome State Fault Refusal :=
  s.issue c 4 fun t =>
    let x := t.core c
    let v := x.getG rs1
    match x.ctl.write ctl.toNat v with
    | none => .trap t (cILLEGAL (t.pc c))
    | some k =>
      if ctl.toNat = 0 ∧ x.statusDenied v then .trap t cPCCPERM
      else if x.flagsWait ctl.toNat then .stay t
      else t.doneCore c fun y => { y with ctl := k }

end Sys2Proof.Machine
end

