-- ==== Sys2Proof/Machine/Quince.lean ====
section
/-!
DEFINITION. The Quince array: operand formats (R140 to R142), cells and their check row (R135, R136,
R156), column sums (R137, R139) and accumulator words (R165 to R168).
-/
namespace Sys2Proof.Machine

/-! ### Operand formats (R140, R142, R143) -/

/-- A code that is not reserved. -/
def qKnown (f : BitVec 5) : Bool := f.toNat ≤ 9 || (16 ≤ f.toNat && f.toNat ≤ 0x19)

def qIsInt (f : BitVec 5) : Bool := 16 ≤ f.toNat

/-- Allowed as a stationary format. -/
def qStationaryOk (f : BitVec 5) : Bool := f != 0 && f.toNat < 0x18

/-- Allowed as a streaming format. -/
def qStreamingOk (f : BitVec 5) : Bool := f != 1 && f != 2

/-- Container width in memory, in bits. -/
def qWidth (f : BitVec 5) : Nat :=
  match f.toNat with
  | 0 | 1 | 2 => 32
  | 3 | 4 => 16
  | 5 | 6 => 8
  | 7 | 8 => 6
  | 9 | 0x10 | 0x11 => 4
  | 0x12 | 0x13 => 8
  | _ => 16

/-- Cycles of a streaming row (R143). -/
def qCycles (f : BitVec 5) : Nat :=
  match f.toNat with
  | 0 => 24
  | 3 => 11
  | 4 => 8
  | 5 | 8 => 4
  | 6 | 7 => 3
  | 9 => 2
  | 0x10 | 0x11 => 4
  | 0x12 | 0x13 => 8
  | 0x14 | 0x15 => 10
  | 0x16 | 0x17 => 12
  | _ => 16

/-- Formats that accept block scales. -/
def qScalable (f : BitVec 5) : Bool := (5 ≤ f.toNat && f.toNat ≤ 9) || f == 0x12

/-- The operand counts as floating-point: a float format, or S8 with block scales (R142). -/
def qFloat (f : BitVec 5) (scaled : Bool) : Bool := !qIsInt f || (f == 0x12 && scaled)

/-- Both operands floating-point or both integer. -/
def qPairOk (sf tf : BitVec 5) (ssc tsc : Bool) : Bool := qFloat sf ssc == qFloat tf tsc

/-- Value bits of an integer format, and whether it is signed. -/
def qIntBits (f : BitVec 5) : Nat × Bool :=
  match f.toNat with
  | 0x10 => (4, true)
  | 0x11 => (4, false)
  | 0x12 => (8, true)
  | 0x13 => (8, false)
  | 0x14 => (10, true)
  | 0x15 => (10, false)
  | 0x16 => (12, true)
  | 0x17 => (12, false)
  | 0x18 => (16, true)
  | _ => (16, false)

/-- Value of an integer element. -/
def qInt (f : BitVec 5) (raw : Nat) : Int :=
  let (w, sgn) := qIntBits f
  if sgn then (BitVec.ofNat w raw).toInt else ((raw % 2 ^ w : Nat) : Int)

/-- The number format of a float code; the parts of FP32 read as FP32. -/
def qFmt (f : BitVec 5) : Fmt :=
  match f.toNat with
  | 3 => .fp16
  | 4 => .bf16
  | 5 => .e4m3
  | 6 => .e5m2
  | 7 => .e3m2
  | 8 => .e2m3
  | 9 => .e2m1
  | _ => .fp32

/-- Signed zero or (−1)^neg · m · 2^e. -/
def FVal.ofParts (neg : Bool) (m : Nat) (e : Int) : FVal := if m = 0 then .zero neg else .num neg m e

/-- High or low word of an FP32 element (R141). A NaN or an infinity is its own part in both words. -/
def fp32Part (high : Bool) (raw : Nat) : FVal :=
  let neg := decide (raw / 2 ^ 31 % 2 = 1)
  let ex := raw / 2 ^ 23 % 256
  let frac := raw % 2 ^ 23
  if ex = 255 then decodeFloat .fp32 raw
  else
    let m := if ex = 0 then frac else 2 ^ 23 + frac
    let e : Int := (max ex 1 : Nat) - 150
    if high then .ofParts neg (m / 4096) (e + 12) else .ofParts neg (m % 4096) e

/-- Value of a float element before its block scale; S8 is MXINT8 here (R38). -/
def qElem (f : BitVec 5) (raw : Nat) : FVal :=
  match f.toNat with
  | 1 => fp32Part true raw
  | 2 => fp32Part false raw
  | 0x12 => (FVal.ofInt (qInt f raw)).scaled (-6)
  | _ => decodeFloat (qFmt f) (raw % 2 ^ (qFmt f).bits)

/-- An element times its E8M0 scale; a NaN scale makes it NaN (R37, R142). -/
def qScaled (v : FVal) (scale : Option Byte) : FVal :=
  match scale with
  | none => v
  | some e => if e = 0xFF then FVal.default else v.scaled ((e.toNat : Int) - 127)

/-- Signed integer significand (R156). -/
def qSigma (f : BitVec 5) (raw : Nat) : Int :=
  if qIsInt f then qInt f raw
  else
    let t := qFmt f
    let r := raw % 2 ^ t.bits
    let frac := r % 2 ^ t.fbits
    let m := if r / 2 ^ t.fbits % 2 ^ t.ebits = 0 then frac else 2 ^ t.fbits + frac
    let part := if f = 1 then m / 4096 else if f = 2 then m % 4096 else m
    if r / 2 ^ (t.bits - 1) % 2 = 1 then -(part : Int) else part

/-- Element i of a packed row (R30, R173). -/
def packedElem (bs : List Byte) (width i : Nat) : Nat :=
  let o := width * i
  leNat (sliceBytes bs (o / 8) ((o % 8 + width + 7) / 8)) / 2 ^ (o % 8) % 2 ^ width

/-- Bytes of a row of n elements of a format. -/
def qRowBytes (f : BitVec 5) (n : Nat) : Nat := ceilDiv (n * qWidth f) 8

/-! ### Cells (R135, R139, R156) -/

/-- Row k of the cells takes the n elements of the row, or zeros; its scales, where it brings some, are those of
block k ÷ 32. -/
def Stationary.loadRow (t : Stationary) (f : BitVec 5) (k n : Nat) (row : Option (List Byte))
    (scale : Option (List Byte)) : Stationary :=
  let raws := match row with
    | none => List.replicate 512 0
    | some bs => (List.range 512).map fun i => if i < n then packedElem bs (qWidth f) i else 0
  let put := fun (m : Sparse (BitVec 32)) (i : Nat) =>
    sparseSet (fun _ => 0) m (512 * k + i) (BitVec.ofNat 32 (raws.getD i 0))
  let cells := (List.range 512).foldl put t.cells
  let sum := match row with
    | none => 0
    | some _ => ((raws.take n).map fun r => qSigma f r).sum
  let scales := match scale with
    | none => t.scales
    | some bs => (List.range n).foldl (fun m i =>
        sparseSet (fun _ => 0) m (512 * (k / 32) + i) (bs.getD i 0)) t.scales
  { t with cells := cells, scales := scales
           check := sparseSet (fun _ => 0) t.check k (BitVec.ofInt 16 sum) }

/-- Raw element of cell (k, n). -/
def Stationary.cell (t : Stationary) (k n : Nat) : Nat := (sparseGet (fun _ => 0) t.cells (512 * k + n)).toNat

/-- Scale of cell (k, n). -/
def Stationary.scaleOf (t : Stationary) (k n : Nat) : Option Byte :=
  if t.tsc then some (sparseGet (fun _ => 0) t.scales (512 * (k / 32) + n)) else none

/-! ### Column sums (R137, R150) -/

/-- A value rounded into the accumulator word of a float slot (R53, R167). -/
def accWord (v : FVal) : BitVec 48 := BitVec.ofNat 48 (encodeFloat .acc v .rne ⟨false, true⟩ 0).1

/-- Value of a float slot's word. -/
def accValue (w : BitVec 48) : FVal := decodeFloat .acc w.toNat

/-- One addition into an accumulator word. -/
def accAdd (w : BitVec 48) (v : FVal) : BitVec 48 := accWord (fAdd (accValue w) v).1

/-- One product of the array, its sign turned where neg = 1. -/
def qProduct (q : Qmma) (t : Stationary) (row : List Byte) (scales : List Byte) (k n : Nat) : FVal :=
  let a := qScaled (qElem q.sfmt (packedElem row (qWidth q.sfmt) k))
    (if q.ssc then some (scales.getD (k / 32) 0) else none)
  let b := qScaled (qElem q.tfmt (t.cell k n)) (t.scaleOf k n)
  let p := (fMul a b).1
  if q.neg then p.negated else p

/-! ### The product check (R142, R143, R156, R157) -/

/-- The format whose row or column of the coverage tables a side takes: MXINT8 counts as BF16 (R142). -/
def coverFmt (f : BitVec 5) (scaled : Bool) : BitVec 5 := if f = 0x12 ∧ scaled then 4 else f

/-- The pair is marked F: every bit of a correct product's magnitude lies below bit 16 (R143). -/
def qCoversAll (sfmt tfmt : BitVec 5) (ssc tsc : Bool) : Bool :=
  if sfmt = 0x12 ∧ tfmt = 0x12 ∧ ssc ∧ tsc then true
  else
    let a := (coverFmt sfmt ssc).toNat
    let b := (coverFmt tfmt tsc).toNat
    if a < 0x10 then
      if a = 0 then false
      else if a = 3 then decide (5 ≤ b)
      else if a = 4 then decide (4 ≤ b)
      else true
    else if a < 0x12 then true
    else if a < 0x14 then decide (b < 0x14)
    else if a < 0x18 then decide (b < 0x12)
    else false

/-- Signed significand of element k of a streaming row; past its K elements the row brings zeros. -/
def Qmma.sigma (q : Qmma) (row : List Byte) (k : Nat) : Int :=
  if k < q.k then qSigma q.sfmt (packedElem row (qWidth q.sfmt) k) else 0

/-- The correct product of cell (k, n), as the checker counts it. -/
def Qmma.checkProduct (q : Qmma) (t : Stationary) (row : List Byte) (k n : Nat) : Int :=
  q.sigma row k * qSigma q.tfmt (t.cell k n)

/-- The product that cell (k, n) formed; `formed` holds those that went wrong. -/
def Qmma.productAt (q : Qmma) (t : Stationary) (row : List Byte) (formed : List (Nat × Nat × Int)) (k n : Nat) : Int :=
  match formed.find? fun f => f.1 == k && f.2.1 == n with
  | some f => f.2.2
  | none => q.checkProduct t row k n

/-- The numbers below n, and those of a list past them: the cells past the loaded ones hold zeros, and one of them counts where
its product went wrong (R139, R156). -/
def withPast (n : Nat) (xs : List Nat) : List Nat := List.range n ++ (xs.filter fun x => decide (n ≤ x)).eraseDups

/-- P_k: the products that the 512 cells of row k formed. -/
def Qmma.productSum (q : Qmma) (t : Stationary) (row : List Byte) (formed : List (Nat × Nat × Int)) (k : Nat) : BitVec 16 :=
  BitVec.ofInt 16 ((withPast t.n (formed.map fun f => f.2.1)).map fun n => q.productAt t row formed k n).sum

/-- What row k must sum to: σ(A[m][k]) · S_k. -/
def Qmma.checkSum (q : Qmma) (t : Stationary) (row : List Byte) (k : Nat) : BitVec 16 :=
  BitVec.ofInt 16 (q.sigma row k) * sparseGet (fun _ => 0) t.check k

/-- The product check of stationary row k: check kind 0, or 5 for a range bit of an F pair. -/
def Qmma.productCheck (q : Qmma) (t : Stationary) (row : List Byte) (formed : List (Nat × Nat × Int)) (k : Nat) : Option (Fin 6) :=
  if q.productSum t row formed k ≠ q.checkSum t row k then some 0
  else if qCoversAll q.sfmt q.tfmt q.ssc q.tsc && formed.any fun f => f.1 == k && decide (2 ^ 16 ≤ f.2.2.natAbs) then some 5
  else none

/-- Column sum n in float mode: from +0, row 0 first. -/
def floatSum (q : Qmma) (t : Stationary) (row scales : List Byte) (n : Nat) : BitVec 48 :=
  (List.range q.k).foldl (fun w k => accAdd w (qProduct q t row scales k n)) 0

/-- Column sum n in integer mode, exact in 48 bits. -/
def intSum (q : Qmma) (t : Stationary) (row : List Byte) (n : Nat) : BitVec 48 :=
  let s := ((List.range q.k).map fun k =>
    qInt q.sfmt (packedElem row (qWidth q.sfmt) k) * qInt q.tfmt (t.cell k n)).sum
  BitVec.ofInt 48 (if q.neg then -s else s)

/-- Mode of the pair (R142). -/
def Qmma.floatMode (q : Qmma) : Bool := qFloat q.sfmt q.ssc

/-- Column sums 0 to N − 1 of a streaming row. -/
def columnSums (q : Qmma) (t : Stationary) (row scales : List Byte) : List (BitVec 48) :=
  (List.range q.n).map fun n => if q.floatMode then floatSum q t row scales n else intSum q t row n

/-! ### Accumulator words (R165, R168, R180) -/

def Tiles.accGet (t : Tiles) (e n : Nat) : BitVec 48 := sparseGet (fun _ => 0) t.acc (512 * e + n)

def accPut (m : Sparse (BitVec 48)) (e n : Nat) (w : BitVec 48) : Sparse (BitVec 48) :=
  sparseSet (fun _ => 0) m (512 * e + n) w

/-- Integer addition with clamp and its sticky bit. -/
def intAcc (old sum : BitVec 48) : BitVec 48 :=
  let r := clampInt 32 ((old.extractLsb' 0 32).toInt + sum.toInt)
  (BitVec.ofBool (old.getLsbD 32 || r.2)).setWidth 16 ++ BitVec.ofInt 32 r.1

/-- The word after a column sum is written or added. -/
def accUpdate (floatMode start : Bool) (old sum : BitVec 48) : BitVec 48 :=
  if floatMode then (if start then sum else accAdd old (accValue sum))
  else intAcc (if start then 0 else old) sum

/-- The column sums of a row go into entry e. -/
def writeSums (floatMode start : Bool) (e : Nat) (m : Sparse (BitVec 48)) (sums : List (BitVec 48)) :
    Sparse (BitVec 48) :=
  (List.range sums.length).foldl (fun m n =>
    accPut m e n (accUpdate floatMode start (sparseGet (fun _ => 0) m (512 * e + n)) (sums.getD n 0))) m

/-- Mode of slot s. -/
def Tiles.mode (t : Tiles) (s : Nat) : SlotMode := vget t.modes s .none

/-- The accmode word (R166). -/
def Tiles.accmode (t : Tiles) : Nat :=
  ((List.range 16).map fun s =>
    (match t.mode s with | .none => 0 | .float => 1 | .integer => 2) * 4 ^ s).sum

/-- Slots a qmma or qdrain of m rows covers. -/
def slotsOf (slot m : Nat) : List Nat := (List.range (ceilDiv m 128)).map fun i => slot + i

end Sys2Proof.Machine
end

