-- ==== Sys2Proof/Machine/Tiles.lean ====
section
/-!
DEFINITION. The tile instructions qstat, qmma, tld, accpeek, accsave and accrestore, and the events of
the array and of tile loads (chapters 6 and 7).
-/
namespace Sys2Proof.Machine

def State.tile (s : State) (c : CoreId) : Tiles := (s.core c).tile

def State.mapTile (s : State) (c : CoreId) (f : Tiles → Tiles) : State :=
  s.mapCore c fun x => { x with tile := f x.tile }

def State.setTrestart (s : State) (c : CoreId) (n : Nat) : State :=
  s.mapCtl c fun t => { t with trestart := BitVec.ofNat 11 n }

def State.trestart (s : State) (c : CoreId) : Nat := (s.core c).ctl.trestart.toNat

/-! ### Operands (R172, R173) -/

/-- A tile operand word. -/
def parseOperand (w : Word) : Operand :=
  { tileArea := w.getLsbD 0, engine := (w.extractLsb' 1 2).toFin, unit := (w.extractLsb' 16 16).toNat,
    sunit := (w.extractLsb' 32 16).toNat }

/-- Units a row takes in the tile area. -/
def rowUnits (bytes : Nat) : Nat := ceilDiv bytes 64

/-- How one operand's rows and scales lie: bytes of a row, of a scale record (0: none), rows per scale record. -/
structure RowShape where
  bytes : Nat
  scale : Nat
  per : Nat
  deriving DecidableEq, Repr

def streamShape (f : BitVec 5) (k : Nat) (ssc : Bool) : RowShape :=
  ⟨qRowBytes f k, if ssc then ceilDiv k 32 else 0, 1⟩

def statShape (f : BitVec 5) (n : Nat) (tsc : Bool) : RowShape :=
  ⟨qRowBytes f n, if tsc then n else 0, 32⟩

/-- First unit and unit count of row r. -/
def RowShape.rowAt (h : RowShape) (o : Operand) (r : Nat) : Nat × Nat :=
  (o.unit + r * rowUnits h.bytes, rowUnits h.bytes)

/-- First unit and unit count of the scales that govern row r. -/
def RowShape.scaleAt (h : RowShape) (o : Operand) (r : Nat) : Nat × Nat :=
  (o.sunit + r / h.per * rowUnits h.scale, rowUnits h.scale)

/-- Kind 1: rows or scales reach outside the tile area. -/
def RowShape.outside (h : RowShape) (o : Operand) (rows area : Nat) : Bool :=
  decide (area < o.unit + rows * rowUnits h.bytes) ||
  (h.scale != 0 && decide (area < o.sunit + ceilDiv rows h.per * rowUnits h.scale))

/-- Kind 0: the engine's stream does not fit (R174, R242). -/
def RowShape.badStream (h : RowShape) (x : Engine) : Bool :=
  decide (x.st ≠ .active) || x.desc.pk || x.desc.rlen != h.bytes || x.desc.slen != h.scale ||
  (h.scale != 0 && 2 ^ x.desc.sp != h.per)

/-- STREAM_STATE for an operand of `rows` rows. -/
def CoreState.badOperand (x : CoreState) (o : Operand) (h : RowShape) (rows : Nat) : Bool :=
  if o.tileArea then h.outside o rows x.streamArea else h.badStream (vget x.str.eng o.engine.val Engine.idle)

/-- A window that cannot hold 512 stationary rows and their scale records (R243). -/
def CoreState.badWindowFor (x : CoreState) (o : Operand) (h : RowShape) : Bool :=
  !o.tileArea && decide ((vget x.str.eng o.engine.val Engine.idle).desc.wsize <
    512 * rowUnits h.bytes + 16 * rowUnits h.scale)

/-- A row that is whole in the stream buffer. -/
structure RowData where
  bytes : List Byte
  scale : List Byte
  record : Option Nat
  deriving DecidableEq, Repr

def Tiles.units (t : Tiles) (u n : Nat) : List Byte := cellsGet t.buf (64 * u) n

/-- Row r of an operand, where it is whole and holds no token (R175). -/
def CoreState.rowOf (x : CoreState) (o : Operand) (h : RowShape) (r : Nat) : Option RowData :=
  if o.tileArea then
    some ⟨x.tile.units (h.rowAt o r).1 h.bytes, x.tile.units (h.scaleAt o r).1 h.scale, none⟩
  else
    match (vget x.str.eng o.engine.val Engine.idle).front with
    | none => none
    | some d => if d.whole && d.token.isNone then some ⟨d.data, d.scale, some d.idx⟩ else none

/-- The record the row came from is taken by the instruction with order number seq (R242). -/
def CoreState.takeRow (x : CoreState) (o : Operand) (d : RowData) (seq : Nat) : CoreState :=
  match d.record with
  | none => x
  | some _ =>
    let e := vget x.str.eng o.engine.val Engine.idle
    match e.front with
    | none => x
    | some r => { x with str := { x.str with eng := vset x.str.eng o.engine.val (e.take r seq) } }

/-- Records of an engine that satisfy p are released (R145, R185). -/
def CoreState.releaseRecs (x : CoreState) (o : Operand) (p : StreamRec → Bool) : CoreState :=
  if o.tileArea then x
  else
    let e := vget x.str.eng o.engine.val Engine.idle
    { x with str := { x.str with eng := vset x.str.eng o.engine.val (e.release p) } }

/-- Records a stationary operand took. -/
def takenUpTo (seq : Nat) (r : StreamRec) : Bool :=
  match r.taken with
  | none => false
  | some q => decide (q ≤ seq)

/-- Rows of a stationary operand are freed (R145). -/
def CoreState.freeStat (x : CoreState) (t : Stationary) : CoreState :=
  if t.held then x.releaseRecs t.src (takenUpTo t.seq) else x

/-- No streaming row waits for a check or a retry. -/
def Tiles.allChecked (t : Tiles) : Bool := t.retry.isNone && t.rows.all fun r => r.checked

def Tiles.opIsQmma (t : Tiles) : Bool :=
  match t.op with
  | some (.qmma _) => true
  | _ => false

/-- R145: once every row of every qmma that used an operand has passed its checks, its rows are freed. -/
def CoreState.settleStat (x : CoreState) : CoreState :=
  if x.tile.allChecked then
    let y := match x.tile.prev with
      | none => x
      | some p => { x.freeStat p with tile := { x.tile with prev := none } }
    if y.tile.stat.used && y.tile.prev.isNone && !y.tile.opIsQmma then
      { y.freeStat y.tile.stat with tile := { y.tile with stat := { y.tile.stat with held := false } } }
    else y
  else x

/-! ### Units held (R185) -/

/-- Unit ranges (first, count) of rows r to r + n − 1 of a kind-1 operand, with their scales where it has some. -/
def RowShape.ranges (h : RowShape) (o : Operand) (r n : Nat) : List (Nat × Nat) :=
  if !o.tileArea then []
  else
    [((h.rowAt o r).1, n * rowUnits h.bytes),
     ((h.scaleAt o r).1, (ceilDiv (r + n) h.per - r / h.per) * rowUnits h.scale)].filter fun u => u.2 != 0

def Stationary.ranges (t : Stationary) : List (Nat × Nat) :=
  if t.held then (statShape t.fmt t.n t.tsc).ranges t.src 0 t.k else []

def ArrayRow.ranges (r : ArrayRow) : List (Nat × Nat) :=
  (streamShape r.op.sfmt r.op.k r.op.ssc).ranges r.op.src r.m 1

/-- Ranges that qstat and qmma hold. -/
def Tiles.heldRanges (t : Tiles) : List (Nat × Nat) :=
  t.stat.ranges ++
  (match t.prev with | none => [] | some p => p.ranges) ++
  (match t.op with
   | some (.qstat q) => (statShape q.tfmt q.n q.tsc).ranges q.src 0 q.k
   | some (.qmma q) => (streamShape q.sfmt q.k q.ssc).ranges q.src 0 q.m
   | _ => []) ++
  (t.rows.filter fun r => !r.checked).flatMap ArrayRow.ranges ++
  (match t.retry with | none => [] | some y => y.rows.flatMap ArrayRow.ranges)

/-- Some unit of [u, u + n) is held. -/
def Tiles.holds (t : Tiles) (u n : Nat) : Bool :=
  t.heldRanges.any fun h => decide (u < h.1 + h.2 ∧ h.1 < u + n)

/-- A drain in progress recombines into the tile area: later readers and writers of it wait (R210). -/
def Tiles.areaBusy (t : Tiles) : Bool :=
  t.drains.any fun d =>
    match d.dest with
    | .recombine _ _ area _ => area
    | _ => false

/-! ### qstat (R144, R174, R179) -/

def badCount (n : BitVec 10) : Bool := n == 0 || decide (512 < n.toNat)

def State.qstatCauses (s : State) (c : CoreId) (q : Qstat) (n k : BitVec 10) : List Cause :=
  let x := s.core c
  let h := statShape q.tfmt q.n q.tsc
  failIf (!qKnown q.tfmt) (cILLEGAL (s.pc c)) ++
  failIf (s.trestart c != 0 && x.tile.restored) (cNOSTAT (s.pc c)) ++
  failIf (badCount n || badCount k || !qStationaryOk q.tfmt || (q.tsc && !qScalable q.tfmt))
    (cSHAPE (s.pc c)) ++
  failIf (x.badOperand q.src h q.k || x.badWindowFor q.src h) (cSTREAM (s.pc c))

/-- The stationary operand is the one of a qstat whose rows are all loaded. -/
def Qstat.loaded (q : Qstat) (t : Stationary) : Stationary :=
  { t with usable := true, fmt := q.tfmt, tsc := q.tsc, k := q.k, n := q.n, src := q.src, seq := q.seq,
           used := false, held := true }

/-- A qstat begins: its rows replace the operand, which a retry of earlier rows may still need (R160). -/
def CoreState.beginStat (x : CoreState) (q : Qstat) (r : Nat) : CoreState :=
  let free := x.tile.allChecked
  let y := if free then x.freeStat x.tile.stat else x
  { y with tile := { y.tile with
      op := some (.qstat q), seq := y.tile.seq + 1,
      prev := if free then none else some y.tile.stat,
      stat := { y.tile.stat with held := false },
      restored := if r = 0 then false else y.tile.restored } }

/-- The loaded operand is in place and the instruction at its boundary: trestart := 0 (R176, R179). -/
def CoreState.endStat (x : CoreState) (q : Qstat) : CoreState :=
  { x with tile := { x.tile with op := none, stat := q.loaded x.tile.stat },
           ctl := { x.ctl with trestart := 0 } }

/-- R144, R170 to R179. -/
def execQstat (c : CoreId) (gs : GReg) (tsc : Bool) (n k : BitVec 10) (tfmt : BitVec 5) (s : State) :
    Host.Outcome State Fault Refusal :=
  s.issue c 8 fun t =>
    let q : Qstat := ⟨(t.tile c).seq, tsc, tfmt, n.toNat, k.toNat, parseOperand (t.getG c gs)⟩
    t.orTrap (t.qstatCauses c q n k)
      (if q.src.tileArea && (t.tile c).areaBusy then .stay t
       else
         let t1 := t.mapCore c fun x => x.beginStat q (t.trestart c)
         if 512 ≤ t.trestart c then .done (t1.mapCore c fun x => x.endStat q) else .stay t1)

/-- A tile instruction that has issued reaches its boundary: the next one issues (R176). -/
def State.tileDone (s : State) (c : CoreId) : State :=
  (s.setTrestart c 0).retire c (s.pc c) 8 (s.core c).ctl.status.ss

/-- One row, or zeros past row K − 1, written into the cells at index r. -/
def CoreState.loadStatRow (x : CoreState) (q : Qstat) (r : Nat) (d : Option RowData) : CoreState :=
  let y := match d with
    | none => x
    | some v => x.takeRow q.src v q.seq
  let scale := match d with
    | none => none
    | some v => if q.tsc && !v.scale.isEmpty then some v.scale else none
  { y with tile := { y.tile with
      stat := y.tile.stat.loadRow q.tfmt r q.n (d.map fun v => v.bytes) scale
      qc := { y.tile.qc with stall := y.tile.qc.stall + 1 } } }

/-- R144, R156: the next stationary row; none while the array holds (R148). -/
def State.statRowLoad (s : State) (c : CoreId) : State :=
  let x := s.core c
  match x.tile.op with
  | some (.qstat q) =>
    let r := s.trestart c
    let d := if r < q.k then x.rowOf q.src (statShape q.tfmt q.n q.tsc) r else none
    if !s.coreRuns c || x.tile.hold || x.tile.retry.isSome || (decide (r < q.k) && d.isNone) then s
    else
      let s1 := (s.setCore c (x.loadStatRow q r d)).progress c
      if r + 1 < 512 then s1.setTrestart c (r + 1)
      else (s1.mapCore c fun y => (y.endStat q).settleStat).tileDone c
  | _ => s

/-- R144. -/
def execStationaryRowLoad (c : CoreId) (s : State) : Host.Outcome State Fault Refusal :=
  .next (s.statRowLoad c)

/-! ### qmma (R174, R180) -/

/-- Rows of an M field: 0 means 2,048 (R171). -/
def rowCount (m : BitVec 11) : Nat := if m = 0 then 2048 else m.toNat

def modeOf (isFloat : Bool) : SlotMode := if isFloat then .float else .integer

/-- Slots do not fit in the sixteen. -/
def slotsBad (slot m : Nat) : Bool := decide (16 < slot + ceilDiv m 128)

def State.qmmaCauses (s : State) (c : CoreId) (q : Qmma) (n k : BitVec 10) : List Cause :=
  let x := s.core c
  let t := x.tile.stat
  failIf (!qKnown q.sfmt || !qKnown q.tfmt) (cILLEGAL (s.pc c)) ++
  failIf (!t.usable) (cNOSTAT (s.pc c)) ++
  failIf (badCount n || badCount k || !qStreamingOk q.sfmt || (q.ssc && !qScalable q.sfmt) ||
      !qPairOk q.sfmt q.tfmt q.ssc q.tsc || q.tfmt != t.fmt || q.tsc != t.tsc || decide (t.k < q.k) ||
      decide (t.n < q.n) || slotsBad q.slot q.m ||
      (!q.start && (slotsOf q.slot q.m).any fun e => x.tile.mode e != modeOf q.floatMode))
    (cSHAPE (s.pc c)) ++
  failIf (x.badOperand q.src (streamShape q.sfmt q.k q.ssc) q.m) (cSTREAM (s.pc c))

/-- A qmma that starts sets the mode of every slot it covers (R166). -/
def Tiles.startSlots (t : Tiles) (q : Qmma) : Tiles :=
  if q.start then
    { t with modes := (slotsOf q.slot q.m).foldl (fun v e => vset v e (modeOf q.floatMode)) t.modes }
  else t

/-- R144, R147, R170 to R180. A qmma on an operand whose rows had been freed holds its units again (R145, R185). -/
def execQmma (c : CoreId) (gs : GReg) (tsc ssc neg start : Bool) (tfmt sfmt : BitVec 5) (n k : BitVec 10)
    (m : BitVec 11) (slot : Fin 16) (s : State) : Host.Outcome State Fault Refusal :=
  s.issue c 8 fun t =>
    let q : Qmma := ⟨(t.tile c).seq, tsc, ssc, neg, start, tfmt, sfmt, n.toNat, k.toNat, rowCount m,
      slot.val, parseOperand (t.getG c gs), t.pc c⟩
    t.orTrap (t.qmmaCauses c q n k)
      (if q.src.tileArea && (t.tile c).areaBusy then .stay t
       else
         let t1 := t.mapTile c fun x => { x.startSlots q with seq := x.seq + 1 }
         if q.m ≤ t.trestart c then .done (t1.setTrestart c 0)
         else .stay (t1.mapTile c fun x => { x with op := some (.qmma q), stat := { x.stat with used := true, held := true } }))

/-! ### Rows in the array (R147, R157 to R164) -/

/-- Slot of output row m of a qmma. -/
def Qmma.slotOf (q : Qmma) (m : Nat) : Nat := q.slot + m / 128

/-- The drain covers slot e. -/
def Drain.covers (d : Drain) (e : Nat) : Bool := decide (d.slot ≤ e ∧ e < d.slot + ceilDiv d.m 128)

/-- The drain has started reading slot e, or has read it. -/
def Drain.hasStarted (d : Drain) (e : Nat) : Bool :=
  decide (e < d.slot + d.done) || (d.started && decide (e = d.slot + d.done))

/-- Every qdrain issued before the row's qmma has started reading the row's slot (R147). -/
def Tiles.slotOpen (t : Tiles) (q : Qmma) (m : Nat) : Bool :=
  t.drains.all fun d => decide (q.seq < d.seq) || !d.covers (q.slotOf m) || d.hasStarted (q.slotOf m)

/-- Every such drain has read the slot to the end (R148). -/
def Tiles.slotRead (t : Tiles) (q : Qmma) (m : Nat) : Bool :=
  t.drains.all fun d => decide (q.seq < d.seq) || !d.covers (q.slotOf m) || decide (q.slotOf m < d.slot + d.done)

/-- The armed injection strikes a row that enters (R163, R164). -/
def State.injectRow (s : State) (c : CoreId) (r : ArrayRow) : State × ArrayRow :=
  if s.inject.armed && s.inject.core.toNat == c.val then
    let j := s.inject
    (({ s with inject := { j with armed := false } }).log 1 0x0403 (coreSource c) (w32 r.m)
      (w32 (j.k.toNat + 65536 * j.n.toNat)) (w32 (bit j.twice)),
     { r with flip := some (j.k, j.n), again := j.twice })
  else (s, r)

/-- A row enters the array. -/
def State.putRow (s : State) (c : CoreId) (r : ArrayRow) : State :=
  match s.injectRow c r with
  | (s1, r1) =>
    s1.mapTile c fun t =>
      { t with rows := t.rows ++ [r1]
               qc := { t.qc with valid := t.qc.valid + w64 (qCycles r.op.sfmt) } }

/-- The first row that must stream again, ready to enter. -/
def Tiles.retryRow (t : Tiles) : Option ArrayRow :=
  match t.retry with
  | none => none
  | some y => if y.reloaded then y.rows.head? else none

/-- The next new row of the qmma, ready to enter. -/
def State.newRow (s : State) (c : CoreId) : Option (Qmma × RowData × ArrayRow) :=
  let x := s.core c
  match x.tile.op, x.tile.retry with
  | some (.qmma q), none =>
    let r := s.trestart c
    match x.rowOf q.src (streamShape q.sfmt q.k q.ssc) r with
    | none => none
    | some d => some (q, d, ⟨r, q, d.record, d.bytes, columnSums q x.tile.stat d.bytes d.scale, 1, false, none, none, false⟩)
  | _, _ => none

/-- R147, R159, R163: one row enters. -/
def State.rowEnter (s : State) (c : CoreId) : State :=
  let t := s.tile c
  if !s.coreRuns c || t.hold then s
  else
    match t.retryRow with
    | some r =>
      if t.slotOpen r.op r.m then
        let s1 := s.mapTile c fun u =>
          { u with retry := match u.retry with
                     | none => none
                     | some y => if y.rows.length ≤ 1 then none else some { y with rows := y.rows.drop 1 } }
        s1.putRow c { r with flip := if r.again then r.flip else none, again := false }
      else s
    | none =>
      match s.newRow c with
      | none => s
      | some (q, d, r) =>
        if t.slotOpen q r.m then
          let s1 := (s.mapCore c fun x => x.takeRow q.src d q.seq).putRow c r
          let s2 := s1.progress c
          if r.m + 1 < q.m then s2.setTrestart c (r.m + 1)
          else (s2.mapTile c fun u => { u with op := none }).tileDone c
        else s

/-- R147. -/
def execQuinceRowEnter (c : CoreId) (s : State) : Host.Outcome State Fault Refusal := .next (s.rowEnter c)

/-- A row could enter now. -/
def State.rowCanEnter (s : State) (c : CoreId) : Bool :=
  let t := s.tile c
  match t.retryRow with
  | some r => t.slotOpen r.op r.m
  | none =>
    match s.newRow c with
    | none => false
    | some (q, _, r) => t.slotOpen q r.m

/-- R147, R162: an invalid cycle of an active qmma. -/
def execInvalidCycle (c : CoreId) (s : State) : Host.Outcome State Fault Refusal :=
  let t := s.tile c
  if s.coreRuns c && t.opIsQmma && !t.hold && !s.rowCanEnter c then
    .next (s.mapTile c fun u => { u with qc := { u.qc with invalid := u.qc.invalid + 1 } })
  else .next s

/-- Parameters 0 and 1 of QC_RETRY and QC_FENCE (R164). -/
def State.qcRecord (s : State) (c : CoreId) (sev : BitVec 3) (code : BitVec 16) (r : ArrayRow) (e : CheckError) :
    State :=
  s.log sev code (coreSource c) (w32 (r.m % 2048)) (w32 (e.k.val + 512 * e.kind.val))
    (r.op.pc.setWidth 32)

/-- A row that streams again; `second`: it is the failing row. -/
def ArrayRow.restream (r : ArrayRow) (second : Option CheckError) : ArrayRow :=
  { r with pass := if second.isSome then 2 else 1, checked := false, first := second }

/-- A qstat that has begun stops, its operand replaced by the previous one; it starts again at row 0 (R160). -/
def CoreState.stopStat (x : CoreState) : CoreState :=
  match x.tile.op, x.tile.prev with
  | some (.qstat q), some p =>
    let e := vget x.str.eng q.src.engine.val Engine.idle
    let back := e.recs.filter fun r => r.taken == some q.seq
    let e1 := { e with recs := e.recs.map fun r => if r.taken == some q.seq then { r with taken := none } else r
                       pos := match back with | [] => e.pos | r :: _ => r.idx * e.desc.rlen }
    { x with tile := { x.tile with stat := { p with held := false } }
             ctl := { x.ctl with trestart := 0 }
             str := if q.src.tileArea then x.str else { x.str with eng := vset x.str.eng q.src.engine.val e1 } }
  | _, _ => x

/-- Kinds 1 to 4 are residue checks (R164). -/
def isResidue (k : Fin 6) : Bool := 1 ≤ k.val && k.val ≤ 4

/-- Row i of the array mismatches in its first pass (R159): it and the rows above it stream again. -/
def State.rowFails (s : State) (c : CoreId) (i : Nat) (r : ArrayRow) (e : CheckError) : State :=
  s.mapCore c fun x0 =>
    let x := x0.stopStat
    let t := x.tile
    let later := t.rows.drop (i + 1) ++ (match t.retry with | none => [] | some y => y.rows)
    { x with tile := { t with
        rows := t.rows.take i
        retry := some ⟨r.restream (some e) :: later.map fun o => o.restream none, false⟩
        qc := { t.qc with first := t.qc.first + 1
                          residue := if isResidue e.kind then t.qc.residue + 1 else t.qc.residue } } }

/-- Row i passes every check: its record is released, and the stationary rows once all have passed. -/
def State.rowPasses (s : State) (c : CoreId) (i : Nat) (r : ArrayRow) : State :=
  let s1 := s.mapCore c fun x =>
    let y := x.releaseRecs r.op.src fun d => d.taken == some r.op.seq && some d.idx == r.record
    { y with tile := { y.tile with rows := y.tile.rows.set i { r with checked := true }
                                   qc := { y.tile.qc with rows := y.tile.qc.rows + 1 } } }.settleStat
  match r.first with
  | none => s1
  | some e => s1.qcRecord c 2 0x0401 r e

/-- The stationary operand that a row in the array meets: the one before, where a later qstat has begun or is loaded. -/
def Tiles.operandOf (t : Tiles) (r : ArrayRow) : Stationary :=
  match t.prev, t.op with
  | some p, some (.qstat _) => p
  | some p, _ => if r.op.seq < t.stat.seq then p else t.stat
  | none, _ => t.stat

/-- Products of a row that its cells formed wrong: one with bit 0 of its magnitude flipped by qc_inject (R163), or by an error
of the array. -/
def ArrayRow.formed (r : ArrayRow) (t : Stationary) (err : Option ArrayFault) : List (Nat × Nat × Int) :=
  (match err with
   | some (.product k n p) => [(k.val, n.val, p)]
   | _ => []) ++
  (match r.flip with
   | none => []
   | some f =>
     let p := r.op.checkProduct t r.bytes f.1.toNat f.2.toNat
     [(f.1.toNat, f.2.toNat, if p < 0 then -(Nat.xor p.natAbs 1 : Int) else (Nat.xor p.natAbs 1 : Int))])

/-- An adder whose result has another residue modulo 3 than its inputs give (R158). -/
def residueFinding (err : Option ArrayFault) : Option CheckError :=
  match err with
  | some (.adder kind k _ delta) => if delta % 3 ≠ 0 then some ⟨k, kind.succ.castSucc⟩ else none
  | _ => none

/-- The finding at the lower stationary row. -/
def lowerFinding (a b : Option CheckError) : Option CheckError :=
  match a, b with
  | none, e => e
  | some x, none => some x
  | some x, some y => if y.k < x.k then some y else some x

/-- What the checks of a row found, at the lowest of the 512 stationary rows (R157, R158). Past the row's K elements products
and their sums are zero, but for those that went wrong. -/
def ArrayRow.found (r : ArrayRow) (t : Stationary) (err : Option ArrayFault) : Option CheckError :=
  let wrong := r.formed t err
  let bad := (withPast r.op.k (wrong.map fun f => f.1)).filterMap fun k =>
    (r.op.productCheck t r.bytes wrong k).map fun kind => (⟨Fin.ofNat 512 k, kind⟩ : CheckError)
  lowerFinding (bad.foldl (fun e x => lowerFinding e (some x)) none) (residueFinding err)

/-- Columns whose sum an error that no check finds has reached. -/
def ArrayRow.damaged (r : ArrayRow) (t : Stationary) (err : Option ArrayFault) : List Nat :=
  match err with
  | none => []
  | some (.product k n p) => if p = r.op.checkProduct t r.bytes k n then [] else [n.val]
  | some (.adder _ _ n delta) => if delta = 0 then [] else [n.val]

/-- The row's sums where such an error stands: a free value in its column, since R157 says only that it is not detected. -/
def State.damageRow (s : State) (c : CoreId) (i : Nat) (r : ArrayRow) (ns : List Nat) : State × ArrayRow :=
  match ns with
  | [] => (s, r)
  | n :: _ =>
    match s.takeFree with
    | (f, s1) =>
      let r1 := { r with sums := r.sums.set n (f.setWidth 48) }
      (s1.mapTile c fun t => { t with rows := t.rows.set i r1 }, r1)

/-- R161, R108: QUINCE_CHECK stands in xcause with the address of the qmma, and the core is fenced. -/
def State.quinceFence (s : State) (c : CoreId) (r : ArrayRow) (e : CheckError) : State :=
  ((s.qcRecord c 6 0x0402 r e).mapCtl c fun t => { t with xcause := 44, xaddr := r.op.pc }).fenceCore c true

/-- R157 to R161: the first unchecked row with number m finishes its checks. -/
def State.rowCheck (s : State) (c : CoreId) (m : Nat) (err : Option ArrayFault) : State :=
  let t := s.tile c
  if !s.coreRuns c || t.hold then s
  else
    match t.rows.findIdx? fun r => !r.checked && r.m == m with
    | none => s
    | some i =>
      match t.rows[i]? with
      | none => s
      | some r =>
        let o := t.operandOf r
        match r.found o err with
        | none =>
          let d := s.damageRow c i r (r.damaged o err)
          d.1.rowPasses c i d.2
        | some e =>
          if r.pass = 2 then s.quinceFence c r e
          else s.rowFails c i r e

/-- R157. -/
def execQuinceRowCheck (c : CoreId) (m : Nat) (err : Option ArrayFault) (s : State) :
    Host.Outcome State Fault Refusal := .next (s.rowCheck c m err)

/-- R159 step 4: the operand is loaded again once the array holds no valid row. -/
def execStationaryReload (c : CoreId) (s : State) : Host.Outcome State Fault Refusal :=
  let t := s.tile c
  match t.retry with
  | none => .next s
  | some y =>
    if s.coreRuns c && !y.reloaded && t.rows.isEmpty then
      .next (s.mapTile c fun u =>
        { u with retry := some { y with reloaded := true }
                 qc := { u.qc with stall := u.qc.stall + 512, retried := u.qc.retried + 1 } })
    else .next s

/-- R138, R148, R180: the oldest row's sums are written, or the array holds. -/
def State.rowWrite (s : State) (c : CoreId) : State :=
  let t := s.tile c
  match t.rows with
  | [] => s
  | r :: rest =>
    if !s.coreRuns c || t.hold || !r.checked then s
    else if t.slotRead r.op r.m then
      s.mapTile c fun u =>
        { u with rows := rest, acc := writeSums r.op.floatMode r.op.start (128 * r.op.slot + r.m) u.acc r.sums }
    else s.mapTile c fun u => { u with hold := true }

/-- R138. -/
def execAccRowWrite (c : CoreId) (s : State) : Host.Outcome State Fault Refusal := .next (s.rowWrite c)

/-- R148: the hold lasts until the drain has read the slot to the end. -/
def execArrayHoldEnd (c : CoreId) (s : State) : Host.Outcome State Fault Refusal :=
  let t := s.tile c
  let blocked := match t.rows with
    | [] => false
    | r :: _ => !t.slotRead r.op r.m
  if s.coreRuns c && t.hold && !blocked then .next (s.mapTile c fun u => { u with hold := false }) else .next s

/-! ### Deferred faults (R178) -/

/-- Operand and row count of the qstat or qmma in progress. -/
def Tiles.opSource (t : Tiles) : Option Operand :=
  match t.op with
  | some (.qstat q) => some q.src
  | some (.qmma q) => some q.src
  | _ => none

/-- A token of an engine is raised: its cause (R109, R239). -/
def Token.cause (t : Token) (e : Nat) : Cause :=
  { code := t.code, prio := 0, addr := t.addr, creg := t.creg, deferred := true, engine := BitVec.ofNat 3 e }

/-- The token of record r of engine e counts as raised (R251). -/
def Engine.raiseToken (x : Engine) (r : StreamRec) (t : Token) : Engine :=
  (x.putRec { r with token := some { t with raised := true } }).count fun k =>
    { k with tokRaised := k.tokRaised + 1 }

/-- The row at trestart comes from an engine whose next record holds a token. -/
def State.tokenAt (s : State) (c : CoreId) : Option (Nat × StreamRec × Token) :=
  let x := s.core c
  match x.tile.opSource with
  | none => none
  | some o =>
    if o.tileArea then none
    else
      match (vget x.str.eng o.engine.val Engine.idle).front with
      | none => none
      | some r => r.token.map fun t => (o.engine.val, r, t)

/-- A qstat takes records only for its K rows. -/
def State.wantsRecord (s : State) (c : CoreId) : Bool :=
  match (s.tile c).op with
  | some (.qstat q) => decide (s.trestart c < q.k)
  | _ => true

/-- R178, R239: once the admitted rows are done, the token's cause is raised. -/
def execTokenRaise (c : CoreId) (s : State) : Host.Outcome State Fault Refusal :=
  let t := s.tile c
  match s.tokenAt c with
  | none => .next s
  | some (e, r, k) =>
    if s.coreRuns c && t.rows.isEmpty && t.retry.isNone && s.wantsRecord c then
      let s1 := s.setEng c e ((s.eng c e).raiseToken r k)
      .next ((s1.mapTile c fun u => { u with op := none, prev := none }).takeCause c (k.cause e) (s.pc c))
    else .next s

/-! ### Tile loads (R182 to R185) -/

/-- Address of row r. -/
def TldJob.rowAddr (j : TldJob) (r : Nat) : Nat := (j.base + w64 r * j.pitch).toNat

def State.tldCauses (s : State) (c : CoreId) (j : TldJob) : List Cause :=
  failIf (j.len == 0 || decide (2048 < j.len)) (cSHAPE (s.pc c)) ++
  failIf (decide ((s.core c).streamArea < j.unit + j.m * rowUnits j.len)) (cSTREAM (s.pc c)) ++
  capUseCauses j.cap (kNum j.kb) [permLoad] 0

/-- R182, R184. -/
def execTld (c : CoreId) (off16 : BitVec 16) (gu gp : GReg) (len : BitVec 12) (m : BitVec 11) (kb : KReg) (s : State) :
    Host.Outcome State Fault Refusal :=
  s.issue c 8 fun t =>
    let k := t.getK c kb
    let j : TldJob := ⟨k.cursor + sext off16, t.getG c gp, ((t.getG c gu).extractLsb' 0 16).toNat, len.toNat,
      rowCount m, kb, k⟩
    if t.fencePending c || (t.tile c).areaBusy then .stay t
    else
      t.orTrap (t.tldCauses c j)
        (if j.m ≤ t.trestart c then .done (t.setTrestart c 0)
         else .stay (t.mapTile c fun x => { x with op := some (.tld j) }))

/-- Causes of a row before it is read: bounds and mapping, each at its first failing byte (R183). -/
def State.tldRowCauses (s : State) (j : TldJob) (a : Nat) : List Cause :=
  s.hullCauses j.cap (kNum j.kb) false ((a : Int), (a : Int) + j.len)

/-- Units of rows r to M − 1 hold undefined bytes (R183), but for those a retry may still read (R185). -/
def State.clobberRows (s : State) (c : CoreId) (j : TldJob) : Nat → Nat → State
  | 0, _ => s
  | left + 1, r =>
    let n := 64 * rowUnits j.len
    match s.freeBytes n with
    | (bs, s1) =>
      (s1.mapTile c fun t => if t.holds (j.unit + r * rowUnits j.len) (rowUnits j.len) then t else { t with buf := cellsSet t.buf (64 * (j.unit + r * rowUnits j.len)) bs }).clobberRows
        c j left (r + 1)

/-- Row r of a tld fails. -/
def State.tldFails (s : State) (c : CoreId) (j : TldJob) (r : Nat) (k : Cause) : State :=
  ((s.clobberRows c j (j.m - r) r).mapTile c fun t => { t with op := none }).takeCause c k (s.pc c)

/-- 2 KiB blocks the bytes [a, a + len) touch: requests they take (R236). -/
def blocksOf (a len : Nat) : Nat := (a + len - 1) / 2048 + 1 - a / 2048

/-- Addresses of the 2 KiB blocks of [a, a + len). -/
def blockList (a len : Nat) : List Nat := (List.range (blocksOf a len)).map fun i => 2048 * (a / 2048 + i)

/-- The tile path may issue the requests for [a, a + len): tags are free, and no bank group is at its limit (R247, R248). -/
def State.mayRequest (s : State) (c : CoreId) (a len : Nat) : Bool :=
  (s.ledger c.val).canTake (blocksOf a len) && (blockList a len).all fun b => s.bankFree c (s.bankOf b)

/-- The requests of the tile path for [a, a + len) are issued and complete: tags and credits go and come back (R247, R364). -/
def State.tileRequests (s : State) (c : CoreId) (a len : Nat) : State :=
  let s1 := (s.poolTake c.val (blocksOf a len)).tagsReturn c (blocksOf a len)
  (blockList a len).foldl (fun t b => t.passCredits c (t.region b).stack? 1) s1

/-- R182 to R185: the next row arrives. -/
def State.tldRow (s : State) (c : CoreId) : State :=
  let x := s.core c
  match x.tile.op with
  | some (.tld j) =>
    let r := s.trestart c
    let u := j.unit + r * rowUnits j.len
    if !s.coreRuns c || x.tile.holds u (rowUnits j.len) then s
    else
      let a := j.rowAddr r
      match firstCause (s.tldRowCauses j a) with
      | some k => s.tldFails c j r k
      | none =>
        if !s.mayRequest c a j.len then s
        else
        let s0 := (s.settle a j.len 0).tileRequests c a j.len
        match s0.firstPoison a j.len with
        | some p => s0.tldFails c j r (cPOISON (w64 p) (kNum j.kb))
        | none =>
          let s1 := (s0.mapTile c fun t => { t with buf := cellsSet t.buf (64 * u) (s0.homeBytes a j.len) }).progress c
          if r + 1 < j.m then s1.setTrestart c (r + 1)
          else (s1.mapTile c fun t => { t with op := none }).tileDone c
  | _ => s

/-- R183. -/
def execTldRowArrival (c : CoreId) (s : State) : Host.Outcome State Fault Refusal := .next (s.tldRow c)

/-! ### Raw paths (R189 to R192) -/

/-- A row of slot e is in the array, or streams again. -/
def Tiles.slotPending (t : Tiles) (e : Nat) : Bool :=
  t.rows.any (fun r => r.op.slotOf r.m == e) ||
  (match t.retry with | none => false | some y => y.rows.any fun r => r.op.slotOf r.m == e)

/-- R190. -/
def execAccpeek (c : CoreId) (gs gd : GReg) (s : State) : Host.Outcome State Fault Refusal :=
  s.issue c 8 fun t =>
    let v := t.getG c gs
    let e := (v.extractLsb' 0 11).toNat
    let n := (v.extractLsb' 11 9).toNat
    if !(t.core c).pcc.has permDebug then .trap t cPCCPERM
    else if v.getLsbD 20 then t.doneG c gd (w64 (t.tile c).accmode)
    else if (t.tile c).slotPending (e / 128) then .stay t
    else t.doneG c gd (((t.tile c).accGet e n).setWidth 64)

/-- Bytes of the save area (R191). -/
def saveBytes : Nat := 6291520

/-- Issue checks of accsave and accrestore. -/
def State.saveCauses (s : State) (c : CoreId) (kb : KReg) (perm : Nat) : List Cause :=
  let k := s.getK c kb
  let a := k.cursor.toNat
  capUseCauses k (kNum kb) [perm] 0 ++ failIf (!(s.core c).pcc.has permAccsave) cPCCPERM ++
  s.hullCauses k (kNum kb) true ((a : Int), (a : Int) + saveBytes) ++ alignCauses (kNum kb) k.cursor 64

/-- Every earlier qmma has written its rows and every earlier qdrain has read. -/
def Tiles.quiet (t : Tiles) : Bool := t.rows.isEmpty && t.retry.isNone && t.drains.isEmpty

/-- The 3,072 bytes of entry e. -/
def Tiles.entryBytes (t : Tiles) (e : Nat) : List Byte :=
  (List.range 512).flatMap fun n => leBytes 6 (t.accGet e n).toNat

/-- The tile path's accsave or accrestore waits for tags, or does no longer. -/
def State.tilePathWaits (s : State) (c : CoreId) (b : Bool) : State :=
  s.mapCore c fun x => { x with tile := { x.tile with waitsAt := if b then some x.pcc.cursor else none } }

/-- Entries from e on are saved; `pause` counts them to an event that waits. Without a tag it waits too (R247). -/
def State.saveFrom (s : State) (c : CoreId) (base : Nat) : Nat → Option Nat → Nat → State × Bool
  | 0, _, _ => (s, true)
  | left + 1, pause, e =>
    let a := base + 64 + 3072 * e
    if pause = some 0 then (s.setTrestart c e, false)
    else if !s.mayRequest c a 3072 then ((s.setTrestart c e).tilePathWaits c true, false)
    else
      (((s.tileRequests c a 3072).writeHome a ((s.tile c).entryBytes e)).progress c).saveFrom c base left (pause.map fun n => n - 1) (e + 1)

/-- R191. -/
def execAccsave (c : CoreId) (kb : KReg) (pause : Option Nat) (s : State) : Host.Outcome State Fault Refusal :=
  s.issue c 8 fun t =>
    if t.fencePending c then .stay t
    else
      t.orTrap (t.saveCauses c kb permStore)
        (if !(t.tile c).quiet then .stay t
         else
           let base := (t.getK c kb).cursor.toNat
           let r := t.trestart c
           if r = 0 ∧ t.mayRequest c base 64 = false then .stay (t.tilePathWaits c true)
           else
             let t0 := t.tilePathWaits c false
             let t1 := if r = 0 then
                 (t0.tileRequests c base 64).writeHome base (leBytes 4 (t.tile c).accmode ++ List.replicate 60 0) else t0
             match t1.saveFrom c base (2048 - r) (t.pauseAt c pause) r with
             | (t2, true) => .done (t2.setTrestart c 0)
             | (t2, false) => .stay t2)

/-- Modes from an accmode word. -/
def modesOf (w : Nat) : Vector SlotMode 16 :=
  Vector.ofFn fun i : Fin 16 =>
    match w / 4 ^ i.val % 4 with
    | 1 => .float
    | 2 => .integer
    | _ => .none

/-- A reserved mode 0b11. -/
def badModes (w : Nat) : Bool := (List.range 16).any fun i => w / 4 ^ i % 4 == 3

/-- Entry e taken from 3,072 bytes. -/
def Tiles.putEntry (t : Tiles) (e : Nat) (bs : List Byte) : Tiles :=
  { t with acc := (List.range 512).foldl (fun m n =>
      accPut m e n (BitVec.ofNat 48 (fieldNat bs (6 * n) 6))) t.acc }

/-- Entries from e on are restored, up to a poisoned one, whose first poisoned word POISON names (the model's choice, log entry
132), or an event that waits. -/
def State.restoreFrom (s : State) (c : CoreId) (r : BitVec 4) (base : Nat) :
    Nat → Option Nat → Nat → State × Option (Option Cause)
  | 0, _, _ => (s, none)
  | left + 1, pause, e =>
    let a := base + 64 + 3072 * e
    if pause = some 0 then (s.setTrestart c e, some none)
    else if !s.mayRequest c a 3072 then ((s.setTrestart c e).tilePathWaits c true, some none)
    else
      let s1 := (s.tileRequests c a 3072).settle a 3072 0
      match s1.firstPoison a 3072 with
      | some p => (s1.setTrestart c e, some (some (cPOISON (w64 p) r)))
      | none =>
        ((s1.mapTile c fun t => t.putEntry e (s1.homeBytes a 3072)).progress c).restoreFrom c r base left
          (pause.map fun n => n - 1) (e + 1)

/-- R146, R191: completion makes the stationary operand unusable. -/
def State.restored (s : State) (c : CoreId) : State :=
  (s.mapCore c fun x =>
    { x.freeStat x.tile.stat with tile := { x.tile with
        restored := true, stat := { x.tile.stat with usable := false, held := false } } }).setTrestart c 0

/-- R191. POISON in the word of accmode leaves trestart and every mode as they are (the model's choice, log entry 150). -/
def execAccrestore (c : CoreId) (kb : KReg) (pause : Option Nat) (s : State) : Host.Outcome State Fault Refusal :=
  s.issue c 8 fun t =>
    if t.fencePending c then .stay t
    else
      t.orTrap (t.saveCauses c kb permLoad)
        (if !(t.tile c).quiet then .stay t
         else
           let base := (t.getK c kb).cursor.toNat
           let r := t.trestart c
           if t.mayRequest c base 64 = false then .stay (t.tilePathWaits c true)
           else
           let t1 := ((t.tilePathWaits c false).tileRequests c base 64).settle base 64 0
           let w := leNat (t1.homeBytes base 4)
           match t1.firstPoison base 4 with
           | some p => .trap t1 (cPOISON (w64 p) (kNum kb))
           | none =>
             if badModes w then .trap t1 (cSHAPE (t1.pc c))
             else
               let t2 := t1.mapTile c fun x => { x with modes := modesOf w }
               match t2.restoreFrom c (kNum kb) base (2048 - r) (t.pauseAt c pause) r with
               | (t3, none) => .done (t3.restored c)
               | (t3, some none) => .stay t3
               | (t3, some (some k)) => .trap t3 k)

end Sys2Proof.Machine
end

