-- ==== Sys2Proof/Machine/Dictionary.lean ====
section
/-!
DEFINITION. The parameter dictionary (chapter 17): every entry with its type, access, persistence and permissions,
what a read gives and what a write does. An entry is not state: it is read from, and written to, the fields it shows.
-/
namespace Sys2Proof.Machine

/-! ### Types, access, entries (R445 to R447) -/

/-- Entry types (R445). -/
inductive EType where
  | u8 | u16 | u32 | u64 | i32 | i64 | f32 | bool | bits32 | str | octets | array
  deriving DecidableEq, Repr

def EType.code : EType → Nat
  | .u8 => 0 | .u16 => 1 | .u32 => 2 | .u64 => 3 | .i32 => 4 | .i64 => 5 | .f32 => 6 | .bool => 7
  | .bits32 => 8 | .str => 9 | .octets => 10 | .array => 11

/-- Bytes of a fixed-width type; an array's own value is its element count, a U8. -/
def EType.width : EType → Nat
  | .u8 => 1 | .u16 => 2 | .u32 => 4 | .u64 => 8 | .i32 => 4 | .i64 => 8 | .f32 => 4 | .bool => 1
  | .bits32 => 4 | .str => 0 | .octets => 0 | .array => 1

/-- STR and OCTETS have an offset. -/
def EType.varies : EType → Bool
  | .str => true
  | .octets => true
  | _ => false

/-- Access (R447). -/
inductive Access where
  | ro | rw | wo | atReset | w1c | w1s
  deriving DecidableEq, Repr

def Access.code : Access → Nat
  | .ro => 0 | .rw => 1 | .wo => 2 | .atReset => 3 | .w1c => 4 | .w1s => 5

/-- One entry. `get`: its value as a number, little-endian for OCTETS. `put` by a writer (a core's number, or 64)
of the whole new value; none is RANGE. `take`: a read that changes state (R450), by the owner alone. -/
structure Entry where
  typ : EType
  etype : EType
  acc : Access
  persist : Bool
  critical : Bool
  uncore : Bool
  dispatch : Bool
  rperm : BitVec 16
  wperm : BitVec 16
  len : State → Nat
  get : State → Nat
  put : State → Nat → Nat → Option State
  owner : Option CoreId
  take : Option (State → Nat × State)
  /-- Reads over both network paths give DENIED (R467). -/
  secret : Bool
  /-- The check of its stored pair, at every read and before a write (R362). -/
  check : State → State

/-- Permission bit p as rperm and wperm lay it out. -/
def permBit (p : Nat) : BitVec 16 := BitVec.ofNat 16 (2 ^ p)

/-- An entry of a fixed-width type. -/
def fixedEntry (t : EType) (a : Access) (get : State → Nat) (put : State → Nat → Nat → Option State) : Entry :=
  { typ := t, etype := .u8, acc := a, persist := false, critical := false, uncore := false, dispatch := false,
    rperm := 0, wperm := 0, len := fun _ => t.width, get := get, put := put, owner := none, take := none,
    secret := false, check := fun s => s }

def roEntry (t : EType) (get : State → Nat) : Entry := fixedEntry t .ro get fun _ _ _ => none

def rwEntry (t : EType) (get : State → Nat) (put : State → Nat → Option State) : Entry :=
  fixedEntry t .rw get fun s _ v => put s v

def woEntry (t : EType) (put : State → Nat → Option State) : Entry := fixedEntry t .wo (fun _ => 0) fun s _ v => put s v

/-- An OCTETS entry of n bytes. -/
def octetsEntry (n : Nat) (get : State → Nat) (put : State → Nat → Option State) : Entry :=
  { rwEntry .octets get put with len := fun _ => n }

def octetsRo (len : State → Nat) (get : State → Nat) : Entry := { roEntry .octets get with len := len }

/-- Writing requires permission p. -/
def Entry.needs (e : Entry) (p : Nat) : Entry := { e with wperm := permBit p }

/-- Reading requires permission p. -/
def Entry.readNeeds (e : Entry) (p : Nat) : Entry := { e with rperm := permBit p }

/-- An entry kept in option words: their pairs are checked, and a write forms them anew (R362, R454). -/
def Entry.stored (e : Entry) (words : List Nat) : Entry :=
  { e with persist := true, check := fun s => words.foldl (fun t n => t.checkWord n) s
           put := fun s who v => (e.put s who v).map fun t => words.foldl (fun u n => u.wordWritten n) t }

def Entry.crit (e : Entry) : Entry := { e with critical := true }

def Entry.inUncore (e : Entry) : Entry := { e with uncore := true }

def Entry.inDispatch (e : Entry) : Entry := { e with uncore := true, dispatch := true }

def Entry.hidden (e : Entry) : Entry := { e with secret := true }

/-- Subindex 0x00 of an ARRAY of n elements (R445, R447). -/
def countEntry (n : Nat) (t : EType) : Entry := { roEntry .array (fun _ => n) with etype := t }

/-- An ARRAY: its count, and element i at subindex i + 1. -/
def arrayEntry (n : Nat) (t : EType) (sub : Nat) (f : Nat → Entry) : Option Entry :=
  if sub = 0 then some (countEntry n t) else if sub ≤ n then some (f (sub - 1)) else none

/-- A write that a unit of a powered-off domain refuses (R430, R453). -/
def State.whileOn (s : State) (d : Nat) (x : Option State) : Option State := if s.domainOn d then x else none

/-- An interrupt source entry: 0 to 0xFFF (R384). -/
def irqOk (v : Nat) : Bool := decide (v ≤ 0xFFF)

/-! ### Per-core blocks (R449) -/

def State.win (s : State) (c : CoreId) : Windows := (s.core c).win

def State.mapWin (s : State) (c : CoreId) (f : Windows → Windows) : State :=
  s.mapCore c fun x => { x with win := f x.win }

/-- R229: no unit that changes area is held. -/
def CoreState.splitOk (x : CoreState) (v : Nat) : Bool :=
  let lo := 256 * min v x.tile.tblocks.toNat
  let n := 256 * max v x.tile.tblocks.toNat - lo
  !x.tile.holds lo n &&
  !(List.range 6).any fun e =>
    let y := vget x.str.eng e Engine.idle
    decide (y.st ≠ .idle ∧ lo < y.desc.wbase + y.desc.wsize ∧ y.desc.wbase < lo + n)

def sbsplitEntry (c : CoreId) : Entry :=
  rwEntry .u16 (fun s => (s.core c).tile.tblocks.toNat) fun s v =>
    if v ≤ 256 ∧ (s.core c).splitOk v then
      some (s.mapCore c fun x => { x with tile := { x.tile with tblocks := BitVec.ofNat 9 v } })
    else none

def postingEntry (c : CoreId) (sub : Nat) : Option Entry :=
  match sub with
  | 1 => some ((rwEntry .u16 (fun s => (s.win c).pqTail.toNat) fun s v => s.whileOn 92 (s.postTail c (w64 v))).needs permFabric)
  | 2 => some ((rwEntry .u16 (fun s => (s.win c).pqSize.toNat) fun s v => s.pqSizeCmd c (w64 v)).needs permFabric)
  | 3 => some (roEntry .u16 fun s => (s.win c).cqTail.toNat)
  | 4 => some ((rwEntry .u16 (fun s => (s.win c).cqHead.toNat) fun s v => s.cqHeadCmd c (w64 v)).needs permFabric)
  | 5 => some ((rwEntry .u16 (fun s => (s.win c).cqIrq.toNat) fun s v =>
      if irqOk v then some (s.mapWin c fun w => { w with cqIrq := BitVec.ofNat 16 v }) else none).needs permFabric)
  | 6 => some ((rwEntry .u64 (fun s => (s.win c).ltBase.toNat) fun s v =>
      if v % 16 = 0 then some (s.mapWin c fun w => { w with ltBase := w64 v }) else none).needs permSyscfg)
  | 7 => some ((rwEntry .u16 (fun s => (s.win c).ltCount.toNat) fun s v =>
      if v ≤ 256 then some (s.mapWin c fun w => { w with ltCount := BitVec.ofNat 16 v }) else none).needs permSyscfg)
  | _ => none

/-- The channel a window acts on. -/
def State.winChan (s : State) (c : CoreId) : Nat := (s.win c).chSel.toNat

def ChanState.code : ChanState → Nat
  | .closed => 0 | .opening => 1 | .opened => 2 | .draining => 3 | .gone => 4

/-- A write of ch_cmd; none is RANGE (R343, R430). -/
def State.chCmd (s : State) (c : CoreId) (v : Nat) : Option State :=
  let r := match v with
    | 1 => s.openCmd (s.winChan c)
    | 2 => s.closeCmd (s.winChan c)
    | _ => none
  s.whileOn 92 (r.map fun t => t.runLoop 4096)

/-- A field of the selected channel that is written only while it is CLOSED. -/
def State.closedChan (s : State) (c : CoreId) (ok : Bool) (f : Channel → Channel) : Option State :=
  let n := s.winChan c
  if ok ∧ (s.chan n).st = .closed then some (s.setChan n (f (s.chan n))) else none

def channelEntry (c : CoreId) (sub : Nat) : Option Entry :=
  match sub with
  | 1 => some ((rwEntry .u16 (fun s => s.winChan c) fun s v =>
      if v < 4096 then some (s.mapWin c fun w => { w with chSel := BitVec.ofNat 12 v }) else none).needs permFabric)
  | 2 => some ((rwEntry .u16 (fun s => (s.chan (s.winChan c)).peer.toNat) fun s v =>
      s.closedChan c (decide (v < 16384)) fun k => { k with peer := BitVec.ofNat 14 v }).needs permFabric)
  | 3 => some ((rwEntry .u16 (fun s => (s.chan (s.winChan c)).credit.toNat) fun s v =>
      s.closedChan c (decide (8 ≤ v ∧ v ≤ 512)) fun k => { k with credit := BitVec.ofNat 10 v }).needs permFabric)
  | 4 => some ((woEntry .u8 fun s v => s.chCmd c v).needs permFabric)
  | 5 => some (roEntry .u8 fun s => (s.chan (s.winChan c)).st.code)
  | 6 => some (roEntry .u32 fun s => (s.chan (s.winChan c)).epoch.toNat)
  | _ => none

/-- Value of a recorder window's copy. -/
def slotNat (w : RecSlot) : Nat := leNat (slotBytes w)

def recWindowEntry (win : Option CoreId) (sub : Nat) : Option Entry :=
  let selOf := fun (s : State) => match win with | none => s.recd.sel | some c => (s.win c).recSel
  let snapOf := fun (s : State) => match win with | none => s.recd.snap | some c => (s.win c).recSnap
  match sub with
  | 1 => some (rwEntry .u32 (fun s => (selOf s).toNat) fun s v => s.recSelCmd win (w64 v))
  | 2 => some (octetsRo (fun _ => 32) fun s => slotNat (snapOf s))
  | _ => none

def dispatchEntry (c : CoreId) (sub : Nat) : Option Entry :=
  match sub with
  | 1 => some { (roEntry .u64 fun _ => 0).inDispatch with
      owner := some c, take := some fun s => let r := s.dqTake c; (r.1.toNat, r.2) }
  | 2 => some ((woEntry .u64 fun s v => s.dqDoneCmd c (w64 v)).inDispatch)
  | _ => none

/-- The entries of target t; the hub's all require SYSCFG (R393). -/
def targetEntry (t : Nat) (owner : Option CoreId) (sub : Nat) : Option Entry :=
  match sub with
  | 1 => some { (roEntry .u16 fun _ => 0) with owner := owner, take := some fun s => s.claimSource t }
  | 2 => some (woEntry .u16 fun s v => s.completeSource t (w64 v))
  | 3 => some (rwEntry .u8 (fun s => (s.targetBlock t).thresh.toNat) fun s v =>
      if v < 16 then some (s.setTarget t { s.targetBlock t with thresh := BitVec.ofNat 4 v }) else none)
  | 4 => some (roEntry .u16 fun s => s.peekSource t)
  | _ => none

def coreResetEntry (c : CoreId) (sub : Nat) : Option Entry :=
  match sub with
  | 1 => some ((woEntry .bool fun s v => s.coreRstCmd c v).needs permSyscfg)
  | 2 => some (((rwEntry .u64 (fun s => (s.win c).bootAddr.toNat) fun s v =>
      if v % 4 = 0 then some (s.mapWin c fun w => { w with bootAddr := w64 v }) else none).needs permSyscfg).stored [204 + c.val])
  | _ => none

def attEntry (w : WinId) (sub : Nat) : Option Entry :=
  match sub with
  | 1 => some (octetsEntry 64 (fun s => (s.attWindow w).extData.toNat) fun s v =>
      some (s.setAtt w { s.attWindow w with extData := BitVec.ofNat 512 v }))
  | 2 => some ((fixedEntry .u8 .wo (fun _ => 0) fun s who v => s.extGoCmd w who v).needs permSyscfg)
  | 3 => some (octetsEntry 64 (fun s => (s.attWindow w).nonce.toNat) fun s v =>
      some (s.setAtt w { s.attWindow w with nonce := BitVec.ofNat 512 v }))
  | 4 => some (woEntry .u8 fun s v => s.quoteCmd w v)
  | 5 => some (roEntry .u8 fun s => (s.attWindow w).qState.toNat)
  | 6 => some (octetsRo (fun s => (s.attWindow w).qOut.length) fun s => leNat (s.attWindow w).qOut)
  | _ => none

/-- A signed value as its 32-bit word. -/
def i32Nat (x : Int) : Nat := (BitVec.ofInt 32 x).toNat

def corePowerEntry (c : CoreId) (sub : Nat) : Option Entry :=
  let pow := fun (s : State) => (s.core c).pow
  match sub with
  | 1 => some ((rwEntry .u16 (fun s => (pow s).fSet.toNat) fun s v => s.fSetCmd c v).needs permPower)
  | 2 => some (roEntry .u16 fun s => if s.domainOn c.val then (pow s).fNow.toNat else 0)
  | 3 => some (roEntry .u16 fun s => s.fFuse c)
  | 4 => some (((rwEntry .u8 (fun s => (pow s).derate.toNat) fun s v => s.derateCmd c v).needs permPower).stored [140 + c.val])
  | 5 => some (woEntry .bool fun s v => s.collMarkCmd c v)
  | 6 => some (roEntry .i32 fun s => if s.domainOn c.val then i32Nat (pow s).temp else 0)
  | 7 => some (roEntry .u32 fun s => (pow s).droopCnt.toNat)
  | 8 => some (roEntry .bits32 fun s => if s.domainOn c.val then s.fLimitBits c else 0)
  | _ => none

/-! ### Identity, ports, domain, queue pairs (0x1000 to 0x1FFF) -/

def identityEntry (sub : Nat) : Option Entry :=
  match sub with
  | 1 => some (octetsRo (fun _ => 133) fun s => leNat s.rowan.idPub)
  | 2 => some (octetsRo (fun s => s.rowan.idCert.length) fun s => leNat s.rowan.idCert)
  | _ => none

def State.mapPort (s : State) (p : Nat) (f : Port → Port) : State :=
  s.mapFab fun x => { x with ports := vset x.ports p (f (vget x.ports p ⟨0xFF, 0, 0⟩)) }

def SubState.code : SubState → Nat
  | .absent => 0 | .down => 1 | .up => 2 | .fenced => 3

/-- sp_state of the eight sub-ports of port p, one byte each (log entry 38). -/
def State.spState (s : State) (p : Nat) : Nat :=
  leNat ((List.range 8).map fun j => BitVec.ofNat 8 (s.sub (8 * p + j)).st.code)

def portEntry (p : Nat) (sub : Nat) : Option Entry :=
  let port := fun (s : State) => vget s.fab.ports p ⟨0xFF, 0, 0⟩
  match sub with
  | 1 => some (((rwEntry .u8 (fun s => (port s).mode.toNat) fun s v => s.portModeCmd p v).needs permSyscfg).stored [130 + p])
  | 2 => some (((rwEntry .u8 (fun s => (port s).pmd.toNat) fun s v =>
      if v < 3 then some (s.mapPort p fun x => { x with pmd := BitVec.ofNat 8 v }) else none).needs permSyscfg).stored [130 + p])
  | 3 => some ((rwEntry .u32 (fun s => (port s).fecThr.toNat) fun s v =>
      some (s.mapPort p fun x => { x with fecThr := w32 v })).needs permSyscfg)
  | 4 => some ((woEntry .u8 fun s v => s.portFenceCmd p (w64 v)).needs permSyscfg)
  | 5 => some { octetsRo (fun _ => 8) (fun s => s.spState p) with typ := .array, etype := .u8 }
  | _ => none

/-- An entry of sub-port k that requires SYSCFG. -/
def subField (k : Nat) (t : EType) (get : SubPort → Nat) (ok : Nat → Bool) (set : SubPort → Nat → SubPort) : Entry :=
  (rwEntry t (fun s => get (s.sub k)) fun s v =>
    if ok v then some (s.mapSub k fun x => set x v) else none).needs permSyscfg

def subEntry (k : Nat) (sub : Nat) : Option Entry :=
  let any := fun _ : Nat => true
  match sub with
  | 1 => some ({ subField k .octets (fun x => x.mac.toNat) any (fun x v => { x with mac := BitVec.ofNat 48 v }) with
      len := fun _ => 6 }.stored [268 + 2 * k, 269 + 2 * k])
  | 2 => some (subField k .u16 (fun x => x.vid.toNat) (fun v => decide (v ≤ 4094) || v == 0xFFFF) fun x v =>
      { x with vid := BitVec.ofNat 16 v })
  | 3 => some (subField k .bits32 (fun x => x.pfcEn.toNat) (fun v => decide (v < 256)) fun x v =>
      { x with pfcEn := BitVec.ofNat 8 v })
  | 4 => some (subField k .u32 (fun x => x.ip4.toNat) any fun x v => { x with ip4 := w32 v })
  | 5 => some { subField k .octets (fun x => x.nhMac.toNat) any (fun x v => { x with nhMac := BitVec.ofNat 48 v }) with
      len := fun _ => 6 }
  | _ => none

/-- A field of the fabric's configuration that requires SYSCFG. -/
def fabField (t : EType) (get : Fabric → Nat) (ok : State → Nat → Bool) (set : Fabric → Nat → Fabric) : Entry :=
  (rwEntry t (fun s => get s.fab) fun s v => if ok s v then some (s.mapFab fun f => set f v) else none).needs permSyscfg

/-- A write also clears the damage mark of critical entry n (R363). -/
def Entry.clears (e : Entry) (n : Nat) : Entry :=
  { e with critical := true, put := fun s who v => (e.put s who v).map fun t => t.clearCrit n }

def domainEntry (sub : Nat) : Option Entry :=
  match sub with
  | 1 => some ((fabField .u16 (fun f => f.devId.val.toNat) (fun s v => decide (v < 16384) && s.allClosed) fun f v =>
      { f with devId := pairOf (BitVec.ofNat 14 v) }).clears 6)
  | 2 => some { (fabField .octets (fun f => f.pfx.val.toNat) (fun s _ => s.allClosed) fun f v =>
      { f with pfx := pairOf (w64 v) }).clears 7 with len := fun _ => 8 }
  | 3 => some (fabField .u16 (fun f => f.udpPort.toNat) (fun _ _ => true) fun f v => { f with udpPort := BitVec.ofNat 16 v })
  | 4 => some (fabField .u8 (fun f => f.prio.toNat) (fun _ v => decide (v < 8)) fun f v => { f with prio := BitVec.ofNat 3 v })
  | 5 => some (fabField .u16 (fun f => f.payload.toNat) (fun s v => (v == 1024 || v == 2048 || v == 4096) && s.allClosed)
      fun f v => { f with payload := BitVec.ofNat 16 v })
  | 6 => some (fabField .u16 (fun f => f.rtoUs.toNat) (fun _ v => decide (5 ≤ v ∧ v ≤ 1000)) fun f v =>
      { f with rtoUs := BitVec.ofNat 16 v })
  | 7 => some (fabField .u16 (fun f => f.peerTimeout.toNat) (fun _ v => decide (2 ≤ v ∧ v ≤ 10000)) fun f v =>
      { f with peerTimeout := BitVec.ofNat 16 v })
  | _ => none

def qpEntry (sub : Nat) : Option Entry :=
  match sub with
  | 1 => some (fabField .u64 (fun f => f.qpTab.toNat) (fun _ v => v % 64 == 0) fun f v => { f with qpTab := w64 v })
  | 2 => some ((woEntry .u32 fun s v => s.whileOn 92 (s.qpCmd (w64 v))).needs permSyscfg)
  | _ => none

/-! ### Configuration (0x2000 to 0x5FFF) -/

/-- qc_inject (R163). -/
def QcInject.word (q : QcInject) : Nat :=
  q.core.toNat + 64 * bit q.armed + 128 * bit q.twice + 256 * q.k.toNat + 131072 * q.n.toNat

def injectEntry : Entry :=
  (rwEntry .bits32 (fun s => s.inject.word) fun s v =>
    if v < 2 ^ 26 then
      s.whileOn 95 (some { s with inject :=
        ⟨BitVec.ofNat 6 v, v / 64 % 2 == 1, v / 128 % 2 == 1, BitVec.ofNat 9 (v / 256), BitVec.ofNat 9 (v / 131072)⟩ })
    else none).needs permDebug

/-- A field of the training block that requires SYSCFG. -/
def trainField (t : EType) (get : Training → Nat) (ok : Nat → Bool) (set : Training → Nat → Training) : Entry :=
  (rwEntry t (fun s => get s.train) fun s v => if ok v then some (s.mapTrain fun x => set x v) else none).needs permSyscfg

def randomEntry (sub : Nat) : Option Entry :=
  let any := fun _ : Nat => true
  match sub with
  | 1 => some ((trainField .u64 (fun t => t.keyLo.val.toNat) any fun t v => { t with keyLo := pairOf (w64 v) }).clears 0).hidden
  | 2 => some ((trainField .u64 (fun t => t.keyHi.val.toNat) any fun t v => { t with keyHi := pairOf (w64 v) }).clears 1).hidden
  | 3 => some ((trainField .u32 (fun t => t.step.val.toNat) any fun t v => { t with step := pairOf (w32 v) }).clears 2)
  | 4 => some ((woEntry .u32 fun s v => s.stepInc (w64 v)).needs permSyscfg)
  | 5 => some ((trainField .u64 (fun t => t.dataPos.val.toNat) any fun t v => { t with dataPos := pairOf (w64 v) }).clears 3)
  | 6 => some ((trainField .u32 (fun t => t.sps.val.toNat) (fun v => v != 0) fun t v => { t with sps := pairOf (w32 v) }).clears 4)
  | 7 => some ((trainField .u32 (fun t => t.stepBase.val.toNat) any fun t v => { t with stepBase := pairOf (w32 v) }).clears 5)
  | 8 => some ((woEntry .u32 fun s v => s.stepAdv (w64 v)).needs permSyscfg)
  | _ => none

/-- A field of the stacks' configuration that requires SYSCFG and is kept in the option store. -/
def scfgField (word : Nat) (t : EType) (get : StackCfg → Nat) (ok : Nat → Bool) (set : StackCfg → Nat → StackCfg) : Entry :=
  ((rwEntry t (fun s => get s.scfg) fun s v =>
    if ok v then some { s with scfg := set s.scfg v } else none).needs permSyscfg).stored [word]

/-- A write of stk_fence; none is RANGE (R278). -/
def State.stkFenceCmd (s : State) (v : Nat) : Option State :=
  if h : v < 16 then
    if (s.stack ⟨v, h⟩).st = .excluded then none else some (s.fenceStack ⟨v, h⟩ 0)
  else none

def stackCfgEntry (sub : Nat) : Option Entry :=
  match sub with
  | 1 => some (scfgField 128 .u8 (fun c => c.ilvNext.toNat) (fun v => decide (v < 16) || v == 0xFF) fun c v =>
      { c with ilvNext := BitVec.ofNat 8 v })
  | 2 => some (scfgField 128 .u8 (fun c => c.scrubHours.toNat) (fun v => decide (1 ≤ v ∧ v ≤ 168)) fun c v =>
      { c with scrubHours := BitVec.ofNat 8 v })
  | 3 => some (scfgField 129 .u16 (fun c => c.actThr.toNat) (fun v => decide (3072 ≤ v ∧ v ≤ 16384)) fun c v =>
      { c with actThr := BitVec.ofNat 16 v })
  | 4 => some (scfgField 128 .u8 (fun c => c.ceThr.toNat) (fun v => decide (1 ≤ v ∧ v ≤ 255)) fun c v =>
      { c with ceThr := BitVec.ofNat 8 v })
  | 5 => some ((woEntry .u8 fun s v => s.stkFenceCmd v).needs permSyscfg)
  | 6 => some (roEntry .u8 fun s => s.scfg.ilvActive.toNat)
  | _ => none

/-- Stack number of an array element. -/
def stackNo (i : Nat) : StackId := Fin.ofNat 16 i

/-- The ring of stack st holds commands. -/
def Stack.ringBusy (k : Stack) : Bool := k.ringHead != k.ringTail || k.engEnd.isSome

/-- A write of ring_size; none is RANGE. The indices start again (log entry 39). -/
def State.ringSizeCmd (s : State) (st : StackId) (v : Nat) : Option State :=
  if ([0, 16, 32, 64, 128, 256, 512, 1024, 2048, 4096] : List Nat).contains v ∧ (s.stack st).ringBusy = false then
    some (s.mapStack st fun k => { k with ringSize := BitVec.ofNat 16 v, ringHead := 0, ringTail := 0 })
  else none

/-- A write of ring_tail; none is RANGE (R276, R430). A fenced stack ends each command at once, STACK_FENCED (R278). -/
def State.ringTailCmd (s : State) (st : StackId) (v : Nat) : Option State :=
  let n := (s.stack st).ringSize.toNat
  if n = 0 ∨ n < v then none
  else
    let k : Stack := { s.stack st with ringTail := BitVec.ofNat 16 (v % n) }
    s.whileOn 94 (some
      (if k.st = .fenced then
        (k.waitingCommands st).foldl (fun t a => t.endFenced st.val k.ringIrq a) (s.setStack st { k with ringHead := k.ringTail })
      else s.setStack st k))

def ringEntry (f sub : Nat) : Option Entry :=
  match f with
  | 0 => arrayEntry 16 .u32 sub fun i => rwEntry .u32 (fun s => (s.stack (stackNo i)).ringBase.toNat) fun s v =>
      if v % 4096 = 0 ∧ v < 0x10000000 then some (s.mapStack (stackNo i) fun k => { k with ringBase := w32 v }) else none
  | 1 => arrayEntry 16 .u16 sub fun i => rwEntry .u16 (fun s => (s.stack (stackNo i)).ringSize.toNat) fun s v =>
      s.ringSizeCmd (stackNo i) v
  | 2 => arrayEntry 16 .u16 sub fun i => woEntry .u16 fun s v => s.ringTailCmd (stackNo i) v
  | _ => arrayEntry 16 .u16 sub fun i => rwEntry .u16 (fun s => (s.stack (stackNo i)).ringIrq.toNat) fun s v =>
      if irqOk v then some (s.mapStack (stackNo i) fun k => { k with ringIrq := BitVec.ofNat 16 v }) else none

def snapEntry (sub : Nat) : Option Entry :=
  let any := fun _ : Nat => true
  match sub with
  | 1 => some ((woEntry .u32 fun s v => s.whileOn 93 (s.snapCmd (w64 v))).needs permSyscfg)
  | 2 => some ((woEntry .bool fun s v => s.snapAccept (w64 v)).needs permSyscfg)
  | 3 => some (trainField .u16 (fun t => t.drainRate.toNat) any fun t v => { t with drainRate := BitVec.ofNat 16 v })
  | 4 => some (trainField .u16 (fun t => t.snapIrq.toNat) irqOk fun t v => { t with snapIrq := BitVec.ofNat 16 v })
  | 5 => some (trainField .bits32 (fun t => bit t.evalHold[0] + 2 * bit t.evalHold[1]) (fun v => decide (v < 4)) fun t v =>
      { t with evalHold := #v[v % 2 == 1, v / 2 == 1] })
  | 6 => some (trainField .u64 (fun t => t.snapTag.toNat) any fun t v => { t with snapTag := w64 v })
  | _ => none

/-- A checkpoint or evaluation target. -/
def targetField (get : Training → SnapTarget) (set : Training → SnapTarget → Training) (sub : Nat) : Option Entry :=
  let any := fun _ : Nat => true
  match sub with
  | 1 => some (trainField .u32 (fun t => (get t).qp.toNat) any fun t v => set t { get t with qp := w32 v })
  | 2 => some (trainField .u64 (fun t => (get t).va.toNat) any fun t v => set t { get t with va := w64 v })
  | 3 => some (trainField .u32 (fun t => (get t).rkey.toNat) any fun t v => set t { get t with rkey := w32 v })
  | _ => none

def shardEntry (sub : Nat) : Option Entry :=
  match sub with
  | 1 => some ((trainField .u32 (fun t => t.shardIdx.val.toNat) (fun _ => true) fun t v => { t with shardIdx := pairOf (w32 v) }).clears 8)
  | 2 => some ((trainField .u32 (fun t => t.nShards.val.toNat) (fun v => decide (1 ≤ v ∧ v ≤ 16384)) fun t v =>
      { t with nShards := pairOf (w32 v) }).clears 9)
  | _ => none

def extTableEntry (sub : Nat) : Option Entry :=
  arrayEntry 2 .u64 sub fun b => trainField .u64 (fun t => (vget t.extTable b 0).toNat) (fun v => v % 32 == 0) fun t v =>
    { t with extTable := vset t.extTable b (w64 v) }

def extCountEntry (sub : Nat) : Option Entry :=
  arrayEntry 2 .u16 sub fun b => trainField .u16 (fun t => (vget t.extCount b 0).toNat) (fun v => decide (1 ≤ v ∧ v ≤ 256))
    fun t v => { t with extCount := vset t.extCount b (BitVec.ofNat 16 v) }

/-- src_prio of source n. -/
def srcPrioEntry (n : Nat) : Entry :=
  (rwEntry .u8 (fun s => (s.srcPrio n).toNat) fun s v =>
    if v < 16 then some { s with int := { s.int with prio := sparseSet (fun _ => 0) s.int.prio n (BitVec.ofNat 4 v) } }
    else none).needs permSyscfg

/-- src_target of source n. -/
def srcTargetEntry (n : Nat) : Entry :=
  (rwEntry .u8 (fun s => (s.srcTarget n).toNat) fun s v =>
    if v ≤ 64 then some { s with int := { s.int with target := sparseSet (fun _ => 0x40) s.int.target n (BitVec.ofNat 7 v) } }
    else none).needs permSyscfg

def intEntry (sub : Nat) : Option Entry :=
  match sub with
  | 1 => some (woEntry .u32 fun s v => s.intSetCmd (w64 v))
  | 2 => some (woEntry .u32 fun s v => s.intClrCmd (w64 v))
  | 3 => some (roEntry .u32 fun s => s.int.drop.toNat)
  | _ => none

def deviceResetEntry (sub : Nat) : Option Entry :=
  match sub with
  | 1 => some ((woEntry .bool fun s v => s.sysRstCmd v).needs permSyscfg)
  | 2 => some ((rwEntry .bool (fun s => bit s.rst.optHold) fun s v =>
      if v < 2 then some { s with rst := { s.rst with optHold := v == 1 } } else none).needs permSyscfg)
  | 3 => some ((woEntry .bool fun s v => s.optGoCmd v).needs permSyscfg)
  | _ => none

def optionEntry (sub : Nat) : Option Entry :=
  match sub with
  | 1 => some ((woEntry .bool fun s v => s.optCommitCmd (w64 v)).needs permSyscfg)
  | 2 => some (roEntry .bool fun s => bit s.rst.commit.isSome)
  | _ => none

def rowanEntry (sub : Nat) : Option Entry :=
  match sub with
  | 1 => some (roEntry .u8 fun s => s.rowan.lifecycle.code)
  | 2 => some (roEntry .u8 fun s => s.rowan.svn)
  | 3 => some ((woEntry .u8 fun s v => s.svnCommitCmd v).needs permSyscfg)
  | 4 => some (roEntry .bits32 fun s => s.rowan.keyState)
  | 5 => some ((woEntry .u8 fun s v => s.keyRevokeCmd v).needs permSyscfg)
  | 6 => some (roEntry .bits32 fun s => s.rowan.bootState)
  | 7 => some (roEntry .bool fun s => bit s.rowan.fuse.isSome)
  | _ => none

/-- A power setting that requires POWER. -/
def powField (t : EType) (get : Power → Nat) (ok : Nat → Bool) (set : Power → Nat → Power) : Entry :=
  (rwEntry t (fun s => get s.pow) fun s v => if ok v then some (s.mapPow fun p => set p v) else none).needs permPower

def powerEntry (sub : Nat) : Option Entry :=
  match sub with
  | 1 => some (((fixedEntry .u16 .rw (fun s => s.pow.cap.val.toNat) fun s who v => s.pwrCapCmd who v).needs permPower).stored [138]).crit
  | 2 => some ((powField .u8 (fun p => p.tThrottle.toNat) (fun v => decide (80 ≤ v ∧ v ≤ 105)) fun p v =>
      { p with tThrottle := BitVec.ofNat 8 v }).stored [138])
  | 3 => some (powField .u64 (fun p => p.noticeMask.toNat) (fun _ => true) fun p v => { p with noticeMask := w64 v })
  | 4 => some (powField .u16 (fun p => p.critWindow.toNat) (fun v => decide (10 ≤ v ∧ v ≤ 10000)) fun p v =>
      { p with critWindow := BitVec.ofNat 16 v })
  | _ => none

/-- A management setting that requires DICT. -/
def mgmtField (t : EType) (get : Mgmt → Nat) (ok : Nat → Bool) (set : Mgmt → Nat → Mgmt) : Entry :=
  (rwEntry t (fun s => get s.mgmt) fun s v =>
    if ok v then some { s with mgmt := set s.mgmt v } else none).needs permDict

def mgmtEntry (sub : Nat) : Option Entry :=
  let any := fun _ : Nat => true
  match sub with
  | 1 => some ((mgmtField .u8 (fun m => m.plcaId.toNat) any fun m v => { m with plcaId := BitVec.ofNat 8 v }).stored [396])
  | 2 => some ((mgmtField .u8 (fun m => m.plcaCount.toNat) (fun v => v != 0) fun m v =>
      { m with plcaCount := BitVec.ofNat 8 v }).stored [396])
  | 3 => some ({ mgmtField .octets (fun m => m.mac.toNat) any (fun m v => { m with mac := BitVec.ofNat 48 v }) with
      len := fun _ => 6 }.stored [397, 398])
  | 4 => some { mgmtField .octets (fun m => m.ip6.toNat) any (fun m v => { m with ip6 := BitVec.ofNat 128 v }) with
      len := fun _ => 16 }
  | 5 => some ((mgmtField .u16 (fun m => m.dapPort.toNat) any fun m v => { m with dapPort := BitVec.ofNat 16 v }).stored [399])
  | 6 => some ((mgmtField .u16 (fun m => m.vid.val.toNat) (fun v => decide (v ≤ 4094) || v == 0xFFFF) fun m v =>
      { m with vid := pairOf (BitVec.ofNat 16 v) }).clears 11)
  | 7 => some (mgmtField .u16 (fun m => m.dapIdle.toNat) (fun v => decide (10 ≤ v ∧ v ≤ 3600)) fun m v =>
      { m with dapIdle := BitVec.ofNat 16 v })
  | 8 => some (mgmtField .u8 (fun m => m.notifySev.toNat) (fun v => decide (v < 8)) fun m v => { m with notifySev := BitVec.ofNat 3 v })
  | _ => none

/-- Trust entry i changed; where tr_enable clears, its sessions end (R462, R465). -/
def State.setTrust (s : State) (i : Fin 8) (x : Trust) : State :=
  let t := { s with mgmt := { s.mgmt with trust := s.mgmt.trust.set i.val x i.isLt } }
  if s.mgmt.trust[i].enable && !x.enable then
    ([false, true] : List Bool).foldl (fun u v => (List.finRange 4).foldl (fun w j =>
      match w.sessionAt v j with
      | none => w
      | some y => if y.trust = some i then w.endSession v j 3 else w) u) t
  else t

def trustEntry (i : Fin 8) (sub : Nat) : Option Entry :=
  match sub with
  | 1 => some ((octetsEntry 64 (fun s => (s.mgmt.trust[i]).key.toNat) fun s v =>
      some (s.setTrust i { s.mgmt.trust[i] with key := BitVec.ofNat 512 v, enable := false })).needs permDict)
  | 2 => some (((rwEntry .u16 (fun s => (s.mgmt.trust[i]).perms.val.toNat) fun s v =>
      some (s.setTrust i { s.mgmt.trust[i] with perms := pairOf (BitVec.ofNat 16 v), enable := false })).needs permDict).clears
        (12 + i.val))
  | 3 => some ((rwEntry .bool (fun s => bit (s.mgmt.trust[i]).enable) fun s v =>
      if v < 2 then some (s.setTrust i { s.mgmt.trust[i] with enable := v == 1 }) else none).needs permDict)
  | _ => none

/-! ### Status and counters (0x6000 to 0x9FFF) -/

/-- reset_cause (R398). -/
def Resets.causeWord (r : Resets) : Nat :=
  r.last.toNat + 256 * r.sysCount.toNat + 65536 * r.optRestarts.toNat + 16777216 * r.glitches.toNat

/-- Core number of an array element. -/
def coreNo (i : Nat) : CoreId := Fin.ofNat 64 i

def quinceEntry (f sub : Nat) : Option Entry :=
  let wide := fun (g : QCounters → Nat) => arrayEntry 64 .u64 sub fun i => roEntry .u64 fun s => g (s.core (coreNo i)).tile.qc
  let narrow := fun (g : QCounters → Nat) => arrayEntry 64 .u32 sub fun i => roEntry .u32 fun s => g (s.core (coreNo i)).tile.qc
  match f with
  | 0 => wide fun q => q.rows.toNat
  | 1 => narrow fun q => q.first.toNat
  | 2 => narrow fun q => q.residue.toNat
  | 3 => narrow fun q => q.retried.toNat
  | 4 => wide fun q => q.valid.toNat
  | 5 => wide fun q => q.invalid.toNat
  | 6 => wide fun q => q.stall.toNat
  | _ => wide fun q => q.hold.toNat

def streamEntry (e f sub : Nat) : Option Entry :=
  let wide := fun (g : StreamCounters → Nat) => arrayEntry 64 .u64 sub fun i => roEntry .u64 fun s => g (s.eng (coreNo i) e).cnt
  let narrow := fun (g : StreamCounters → Nat) => arrayEntry 64 .u32 sub fun i => roEntry .u32 fun s => g (s.eng (coreNo i) e).cnt
  match f with
  | 0 => wide fun k => k.consumed.toNat
  | 1 => wide fun k => k.discarded.toNat
  | 2 => wide fun k => k.late.toNat
  | 3 => wide fun k => k.unissued.toNat
  | 4 => wide fun k => k.windowFull.toNat
  | 5 => wide fun k => k.limited.toNat
  | 6 => narrow fun k => k.tokRaised.toNat
  | _ => narrow fun k => k.tokDiscarded.toNat

def depthEntry (e h sub : Nat) : Option Entry :=
  arrayEntry 64 .u32 sub fun i => roEntry .u32 fun s => (vget (s.eng (coreNo i) e).cnt.depth h 0).toNat

def StkState.code : StkState → Nat
  | .training => 0 | .trained => 1 | .failed => 2 | .ready => 3 | .fenced => 4 | .excluded => 5

def stackStatusEntry (f sub : Nat) : Option Entry :=
  let ro := fun (t : EType) (g : Stack → Nat) => arrayEntry 16 t sub fun i => roEntry t fun s => g (s.stack (stackNo i))
  match f with
  | 0 => ro .u8 fun k => k.st.code
  | 1 => ro .u64 fun k => k.ce.toNat
  | 2 => ro .u32 fun k => k.ue.toNat
  | 3 => ro .u16 fun k => k.spared.toNat
  | 4 => ro .u64 fun k => k.trr.toNat
  | 5 => ro .u32 fun k => k.scrubPass.toNat
  | 6 => arrayEntry 16 .i32 sub fun i => roEntry .i32 fun s => if s.domainOn (68 + i) then i32Nat (s.stack (stackNo i)).temp else 0
  | 7 => arrayEntry 16 .bits32 sub fun i => fixedEntry .bits32 .w1c (fun s => (s.stack (stackNo i)).saFlags.toNat) fun s _ v =>
      if v < 64 then some (s.mapStack (stackNo i) fun k => { k with saFlags := k.saFlags &&& ~~~(BitVec.ofNat 6 v) }) else none
  | 8 => ro .u64 fun k => k.saElems.toNat
  | 9 => ro .u32 fun k => k.saPoison.toNat
  | 10 => ro .u64 fun k => k.fencedWr.toNat
  | 11 => ro .u32 fun k => k.margin.toNat
  | _ => none

def SnapState.code : SnapState → Nat
  | .free => 0 | .draining => 1 | .failed => 2 | .restoring => 3 | .awaiting => 4 | .restoreFailed => 5

def snapStatusEntry (f sub : Nat) : Option Entry :=
  let one := fun (e : Entry) => if sub = 1 then some e else none
  match f with
  | 0 => arrayEntry 2 .u8 sub fun b => roEntry .u8 fun s => (vget s.train.snap b .free).code
  | 1 => arrayEntry 2 .bool sub fun b => fixedEntry .bool .w1c (fun s => bit (vget s.train.done b false)) fun s _ v =>
      if v = 0 then some s
      else if v = 1 then some (s.mapTrain fun t => { t with done := vset t.done b false }) else none
  | 2 => one (roEntry .bits32 fun s => s.train.busy)
  | 3 => one (roEntry .u8 fun s => s.train.restoreStatus.toNat)
  | 4 => one (roEntry .i32 fun s => s.train.restoreSkew.toNat)
  | 5 => one (roEntry .u64 fun s => s.train.snapBytes.toNat)
  | _ => none

def subCounterEntry (f sub : Nat) : Option Entry :=
  let ro := fun (g : SubPort → Word) => arrayEntry 64 .u64 sub fun k => roEntry .u64 fun s => (g (s.sub k)).toNat
  match f with
  | 0 => ro fun x => x.txBytes
  | 1 => ro fun x => x.rxBytes
  | 2 => ro fun x => x.fcsErr
  | 3 => ro fun x => x.fecUncorr
  | 4 => ro fun x => x.pfcRx
  | 5 => ro fun x => x.pfcTx
  | 6 => ro fun x => x.ceRx
  | 7 => ro fun x => x.rxDrop
  | _ => none

/-- Device-wide fabric counters, at subindex 0x01 (log entry 38). -/
def fabCounterEntry (f sub : Nat) : Option Entry :=
  if sub ≠ 1 then none
  else
    match f with
    | 0 => some (roEntry .u64 fun s => s.fab.retx.toNat)
    | 1 => some (roEntry .u64 fun s => s.fab.dup.toNat)
    | 2 => some (roEntry .u64 fun s => s.fab.denied.toNat)
    | 3 => some (roEntry .u64 fun s => s.fab.staleEpoch.toNat)
    | 4 => some (roEntry .u32 fun s => (s.ledger 0x40).outstanding.val.toNat)
    | 5 => some (roEntry .u32 fun s => (s.ledger 0x41).outstanding.val.toNat)
    | _ => none

def powerStatusEntry (sub : Nat) : Option Entry :=
  match sub with
  | 1 => some (roEntry .u16 fun s => s.pow.now.toNat)
  | 2 => some (roEntry .u16 fun s => s.pow.capApplied.toNat)
  | 3 => some (roEntry .u16 fun s => s.pow.fCap.toNat)
  | 4 => some (roEntry .u16 fun s => s.pow.criticality.toNat)
  | 5 => some (roEntry .i32 fun s => i32Nat s.pow.tHot)
  | _ => none

/-- Open sessions of a path. -/
def openSessions (v : Vector (Option Session) 4) : Nat := (v.toList.filter Option.isSome).length

def mgmtStatusEntry (sub : Nat) : Option Entry :=
  match sub with
  | 1 => some (roEntry .u8 fun s => openSessions s.mgmt.port + 16 * openSessions s.mgmt.vlan)
  | 2 => some (roEntry .u32 fun s => s.mgmt.badmac.toNat)
  | 3 => some (roEntry .u32 fun s => s.mgmt.replay.toNat)
  | 4 => some (roEntry .u32 fun s => s.mgmt.hsFail.toNat)
  | 5 => some (roEntry .u32 fun s => s.mgmt.notifyDrop.toNat)
  | _ => none

/-! ### Containment (0xA000 to 0xBFFF) and the fabric table (0xC000 to 0xC27F) -/

/-- The watchdog's two settings agree (R370). -/
def wdOk (warn fence : Nat) : Bool := decide (200 ≤ warn) && (fence == 0 || decide (warn ≤ fence))

def recorderEntry (sub : Nat) : Option Entry :=
  match sub with
  | 1 => some ((rwEntry .u8 (fun s => s.recd.size.toNat) fun s v => s.whileOn 95 (s.recSizeCmd (w64 v))).needs permDebug)
  | 2 => some (roEntry .u32 fun s => s.recd.newest.toNat)
  | 3 => some (roEntry .u32 fun s => s.recd.drop.toNat)
  | 4 => some (roEntry .u32 fun s => s.recd.written.toNat)
  | 5 => some (roEntry .u64 fun s => s.time)
  | 6 => some ((rwEntry .u8 (fun s => s.recd.noticeSev.toNat) fun s v =>
      if v < 8 then some { s with recd := { s.recd with noticeSev := BitVec.ofNat 3 v } } else none).needs permSyscfg)
  | 7 => some ((rwEntry .u64 (fun s => s.recd.noticeMask.toNat) fun s v =>
      some { s with recd := { s.recd with noticeMask := w64 v } }).needs permSyscfg)
  | 8 => some (roEntry .bits32 fun s => s.box.state)
  | 9 => some ((fixedEntry .u32 .atReset (fun s => s.box.addr.toNat) fun s _ v => s.bbAddrCmd v).stored [139])
  | _ => none

def boxEntry (sub : Nat) : Option Entry :=
  match sub with
  | 1 => some (rwEntry .u16 (fun s => s.box.sel.toNat) fun s v => s.bbSelCmd (w64 v))
  | 2 => some (octetsRo (fun _ => 32) fun s => slotNat s.box.snap)
  | _ => none

def watchdogEntry (sub : Nat) : Option Entry :=
  match sub with
  | 1 => some ((rwEntry .u32 (fun s => s.cont.wdWarn.toNat) fun s v =>
      if wdOk v s.cont.wdFence.toNat then some { s with cont := { s.cont with wdWarn := w32 v } } else none).needs permSyscfg)
  | 2 => some ((rwEntry .u32 (fun s => s.cont.wdFence.toNat) fun s v =>
      if wdOk s.cont.wdWarn.toNat v then some { s with cont := { s.cont with wdFence := w32 v } } else none).needs permSyscfg)
  | _ => none

/-- crit_state subindex i + 1. -/
def State.critWord (s : State) (i : Nat) : Nat :=
  ((List.range 32).map fun j => if vget s.cont.crit (32 * i + j) false then 2 ^ j else 0).sum

def queueEntry (q : Fin 5) (sub : Nat) : Option Entry :=
  match sub with
  | 1 => some (woEntry .u64 fun s v => s.dqPostCmd q (w64 v))
  | 2 => some (roEntry .u32 fun s => (s.queue q).pendingCount.toNat)
  | 3 => some (roEntry .u32 fun s => (s.queue q).items.length)
  | 4 => some (rwEntry .u16 (fun s => (s.queue q).irq.toNat) fun s v =>
      if irqOk v then some (s.setQueue q { s.queue q with irq := BitVec.ofNat 16 v }) else none)
  | 5 => some (roEntry .u32 fun s => (s.queue q).requeued.toNat)
  | _ => none

def PoolState.code : PoolState → Nat
  | .opened => 0 | .afterFence => 1 | .afterFault => 2

/-- An entry of a ledger: its pairs are checked when it is read (R362). -/
def ledgerField (id : Nat) (t : EType) (get : Ledger → Nat) : Entry :=
  { roEntry t fun s => get (s.ledger id) with check := fun s => s.checkPairs id }

def ledgerEntry (id : Nat) (sub : Nat) : Option Entry :=
  if (poolSize id).isNone then none
  else
    match sub with
    | 1 => some (ledgerField id .u64 fun l => l.issued.val.toNat)
    | 2 => some (ledgerField id .u64 fun l => l.returned.val.toNat)
    | 3 => some (ledgerField id .u64 fun l => l.outstanding.val.toNat)
    | 4 => some (ledgerField id .u64 fun l => l.writtenOff.val.toNat)
    | 5 => some (ledgerField id .u64 fun l => l.late.val.toNat)
    | 6 => some (ledgerField id .u8 fun l => l.st.code)
    | _ => none

/-- A write of a field: enable is cleared, roce kept (R340); damage that is left is recorded again. -/
def FabricEntry.disabled (e : FabricEntry) : FabricEntry := { e with ctl := pairMap e.ctl (· &&& 2), noted := false }

/-- A token that may be enabled in entry i (R339, R340). -/
def tokenOk (token : BitVec 128) (i : Nat) : Bool :=
  token.getLsbD 127 && decide (0x40 ≤ (token.extractLsb' 120 7).toNat ∧ (token.extractLsb' 120 7).toNat ≤ 0x5F) &&
  decide ((token.extractLsb' 0 14).toNat = i) &&
  (token.extractLsb' 104 16 &&& ~~~(permBit permLoad ||| permBit permStore ||| permBit permIo) == 0)

/-- A write of a fabric table entry's control byte; none is RANGE. -/
def State.fabricCtl (s : State) (i v : Nat) : Option State :=
  let e := s.fabricEntry i
  if 4 ≤ v ∨ (v % 2 = 1 ∧ tokenOk e.token i = false) then none
  else some (s.setFabricEntry i { e with ctl := pairOf (BitVec.ofNat 2 v), noted := false })

def fabricField (f i : Nat) : Entry :=
  let set := fun (g : FabricEntry → Nat → FabricEntry) (s : State) (v : Nat) =>
    some (s.setFabricEntry i (g (s.fabricEntry i) v).disabled)
  match f with
  | 0 => (((rwEntry .u64 (fun s => (s.fabricEntry i).tokLo.val.toNat) (set fun e v => { e with tokLo := pairOf (w64 v) })).needs
      permSyscfg).readNeeds permSyscfg).hidden
  | 1 => ((rwEntry .u64 (fun s => (s.fabricEntry i).tokHi.val.toNat) (set fun e v => { e with tokHi := pairOf (w64 v) })).needs
      permSyscfg).hidden
  | 2 => (rwEntry .u64 (fun s => (s.fabricEntry i).base.val.toNat) (set fun e v => { e with base := pairOf (w64 v) })).needs
      permSyscfg
  | 3 => (rwEntry .u64 (fun s => (s.fabricEntry i).len.val.toNat) (set fun e v => { e with len := pairOf (w64 v) })).needs
      permSyscfg
  | _ => (rwEntry .u8 (fun s => (s.fabricEntry i).ctl.val.toNat) fun s v => s.fabricCtl i v).needs permSyscfg

/-- A field of a fabric table entry: the entry's pairs are checked when it is read (R362). -/
def fabricTableEntry (f i : Nat) : Entry := { fabricField f i with check := fun s => (s.readEntry i).1 }

/-! ### The whole dictionary (R448, R449) -/

/-- Entries of core c's block at an offset. -/
def blockEntry (c : CoreId) (off sub : Nat) : Option Entry :=
  match off with
  | 0x00 => if sub = 1 then some (sbsplitEntry c) else none
  | 0x08 => postingEntry c sub
  | 0x09 => channelEntry c sub
  | 0x0A => recWindowEntry (some c) sub
  | 0x0B => dispatchEntry c sub
  | 0x0C => (targetEntry c.val (some c) sub).map Entry.inUncore
  | 0x0D => coreResetEntry c sub
  | 0x0E => attEntry (some c) sub
  | 0x0F => corePowerEntry c sub
  | _ => none

/-- Indices 0x1000 to 0x1FFF. -/
def commEntry (index sub : Nat) : Option Entry :=
  if index = 0x1010 then identityEntry sub
  else if 0x1200 ≤ index ∧ index < 0x1208 then portEntry (index - 0x1200) sub
  else if 0x1210 ≤ index ∧ index < 0x1250 then subEntry (index - 0x1210) sub
  else if index = 0x1300 then domainEntry sub
  else if index = 0x1400 then qpEntry sub
  else none

/-- Indices 0x2000 to 0x27FF. -/
def dataCfgEntry (index sub : Nat) : Option Entry :=
  if index = 0x2380 then (if sub = 1 then some injectEntry else none)
  else if index = 0x2400 then randomEntry sub
  else if index = 0x2500 then stackCfgEntry sub
  else if 0x2510 ≤ index ∧ index < 0x2514 then ringEntry (index - 0x2510) sub
  else if index = 0x2700 then snapEntry sub
  else if index = 0x2701 then extTableEntry sub
  else if index = 0x2702 then extCountEntry sub
  else if index = 0x2703 then targetField (fun t => t.ckpt) (fun t x => { t with ckpt := x }) sub
  else if index = 0x2704 then targetField (fun t => t.eval) (fun t x => { t with eval := x }) sub
  else if index = 0x2705 then shardEntry sub
  else none

/-- Indices 0x2800 to 0x2FFF. -/
def controlEntry (index sub : Nat) : Option Entry :=
  if 0x2800 ≤ index ∧ index < 0x2820 then arrayEntry 128 .u8 sub fun i => srcPrioEntry (128 * (index - 0x2800) + i)
  else if 0x2820 ≤ index ∧ index < 0x2840 then arrayEntry 128 .u8 sub fun i => srcTargetEntry (128 * (index - 0x2820) + i)
  else if index = 0x2840 then (targetEntry 64 none sub).map fun e => (e.needs permSyscfg).readNeeds permSyscfg
  else if index = 0x2841 then intEntry sub
  else if index = 0x2850 then deviceResetEntry sub
  else if index = 0x2860 then optionEntry sub
  else if index = 0x2900 then rowanEntry sub
  else if index = 0x2901 then attEntry none sub
  else if index = 0x2910 then
    arrayEntry 8 .octets sub fun i => octetsRo (fun _ => 64) fun s => (vget s.rowan.meas i 0).toNat
  else if index = 0x2A00 then arrayEntry 96 .u8 sub fun d => (woEntry .u8 fun s v => s.pdCmd d v).needs permPower
  else if index = 0x2A10 then powerEntry sub
  else if index = 0x2C00 then mgmtEntry sub
  else if 0x2C10 ≤ index ∧ index < 0x2C18 then trustEntry (Fin.ofNat 8 (index - 0x2C10)) sub
  else none

/-- Indices 0x6000 to 0x9FFF. -/
def statusEntry (index sub : Nat) : Option Entry :=
  if index = 0x6010 then (if sub = 1 then some (roEntry .bits32 fun s => s.rst.causeWord) else none)
  else if 0x6200 ≤ index ∧ index < 0x6208 then quinceEntry (index - 0x6200) sub
  else if 0x6300 ≤ index ∧ index < 0x6330 then streamEntry ((index - 0x6300) / 8) (index % 8) sub
  else if 0x6340 ≤ index ∧ index < 0x6370 then depthEntry ((index - 0x6340) / 8) (index % 8) sub
  else if 0x6400 ≤ index ∧ index < 0x640C then stackStatusEntry (index - 0x6400) sub
  else if 0x6700 ≤ index ∧ index < 0x6706 then snapStatusEntry (index - 0x6700) sub
  else if 0x6800 ≤ index ∧ index < 0x6808 then subCounterEntry (index - 0x6800) sub
  else if 0x6810 ≤ index ∧ index < 0x6816 then fabCounterEntry (index - 0x6810) sub
  else if index = 0x6900 then arrayEntry 96 .u8 sub fun d => roEntry .u8 fun s => s.pdState d
  else if index = 0x6901 then powerStatusEntry sub
  else if index = 0x6A00 then mgmtStatusEntry sub
  else none

/-- Indices 0xA000 to 0xEFFF. -/
def highEntry (index sub : Nat) : Option Entry :=
  if index = 0xA000 then recorderEntry sub
  else if index = 0xA001 then recWindowEntry none sub
  else if index = 0xA002 then boxEntry sub
  else if index = 0xA020 then (if sub = 1 then some ((woEntry .u8 fun s v => s.coreFenceCmd (w64 v)).needs permSyscfg) else none)
  else if index = 0xA021 then arrayEntry 64 .u8 sub fun i => roEntry .u8 fun s => s.coreStateCode (coreNo i)
  else if index = 0xA030 then watchdogEntry sub
  else if index = 0xA031 then arrayEntry 64 .bits32 sub fun i => roEntry .bits32 fun s => s.critWord i
  else if 0xA040 ≤ index ∧ index < 0xA045 then queueEntry (Fin.ofNat 5 (index - 0xA040)) sub
  else if 0xB000 ≤ index ∧ index < 0xB07D then ledgerEntry (index - 0xB000) sub
  else if 0xC000 ≤ index ∧ index < 0xC280 then
    arrayEntry 128 (if index < 0xC200 then .u64 else .u8) sub fun i =>
      fabricTableEntry ((index - 0xC000) / 128) (128 * (index % 128) + i)
  else none

/-- Core and offset of a per-core index (R449). -/
def blockOf (index : Nat) : Option (CoreId × Nat) :=
  if 0x0120 ≤ index ∧ index < 0x1000 then some (Fin.ofNat 64 ((index - 0x0120) / 0x3C), (index - 0x0120) % 0x3C) else none

/-- Every entry but desc_sel and desc. -/
def plainEntry (index sub : Nat) : Option Entry :=
  match blockOf index with
  | some (c, off) => blockEntry c off sub
  | none =>
    if index < 0x2000 then commEntry index sub
    else if index < 0x2800 then dataCfgEntry index sub
    else if index < 0x6000 then controlEntry index sub
    else if index < 0xA000 then statusEntry index sub
    else highEntry index sub

def descSelEntry (c : CoreId) : Entry :=
  (rwEntry .u32 (fun s => (s.win c).descSel.toNat) fun s v =>
    if v < 2 ^ 24 then some (s.mapWin c fun w => { w with descSel := w32 v }) else none).inUncore

/-- desc, as an entry that is described: what it returns stands in `lookup`. -/
def descShape : Entry := (roEntry .u64 fun _ => 0).inUncore

/-- An entry with desc_sel and desc among them. -/
def shapeOf (index sub : Nat) : Option Entry :=
  match blockOf index with
  | some (c, 0x10) => if sub = 1 then some (descSelEntry c) else if sub = 2 then some descShape else none
  | _ => plainEntry index sub

/-- The entries of an absent core's block are absent (R11). -/
def State.entryGone (s : State) (index : Nat) : Bool :=
  match blockOf index with
  | some (c, _) => decide ((s.core c).cond = .absent)
  | none => false

/-- Entry descriptor (R447). -/
def Entry.descriptor (e : Entry) (s : State) : Nat :=
  e.typ.code + 16 * (if e.typ = .array then e.etype.code else 0) + 256 * e.acc.code + 2048 * bit e.persist +
  4096 * bit e.critical + 8192 * bit e.uncore + 2 ^ 14 * e.rperm.toNat + 2 ^ 30 * e.wperm.toNat +
  2 ^ 46 * (if e.typ.varies then e.len s else 0) + 2 ^ 59 * bit e.dispatch

/-- Descriptor of a selector; one that names no entry gives type 0xF. -/
def State.describe (s : State) (index sub : Nat) : Nat :=
  if s.entryGone index then 0xF
  else
    match shapeOf index sub with
    | none => 0xF
    | some e => e.descriptor s

/-- The entry at index : subindex, where it exists (R448, R452 step 1). -/
def State.lookup (s : State) (index sub : Nat) : Option Entry :=
  if s.entryGone index then none
  else
    match blockOf index with
    | some (c, 0x10) =>
      if sub = 2 then
        some { descShape with get := fun t => t.describe ((t.win c).descSel.toNat / 256) ((t.win c).descSel.toNat % 256) }
      else if sub = 1 then some (descSelEntry c)
      else none
    | _ => plainEntry index sub

end Sys2Proof.Machine
end

