-- ==== Sys2Proof/Machine/Io.lean ====
section
/-!
DEFINITION. Accesses to the parameter dictionary: the order of the checks (R452), in and out (R71 to R74), and the rows
of the table that are a write of one entry, by whichever requester makes it (R446).
-/
namespace Sys2Proof.Machine

/-! ### Status codes (R73, R464) -/

/-- Result of an access. `busy` is the DAP's alone. -/
inductive IoStatus where
  | ok | absent | denied | readOnly | writeOnly | range | resetOnly | offset | busy
  deriving DecidableEq, Repr

def IoStatus.code : IoStatus → Nat
  | .ok => 0 | .absent => 1 | .denied => 2 | .readOnly => 3 | .writeOnly => 4 | .range => 5 | .resetOnly => 6
  | .offset => 7 | .busy => 8

/-- Who reaches an entry: permissions held, the requester's number (a core's, or 64), over a network path. -/
structure Asker where
  perms : BitVec 16
  who : Nat
  net : Bool
  deriving DecidableEq, Repr

/-- Every permission of the mask is held. -/
def Asker.holds (a : Asker) (mask : BitVec 16) : Bool := mask &&& ~~~a.perms == 0

/-! ### Admission (R450, R452 steps 1 to 3, R448, R467) -/

/-- Reading is the owning core's alone. -/
def Entry.foreign (e : Entry) (a : Asker) : Bool :=
  match e.owner with
  | none => false
  | some c => decide (a.who ≠ c.val)

/-- The entry as a read may reach it, or the first refusal. -/
def State.admitRead (s : State) (a : Asker) (index sub : Nat) : Except IoStatus Entry :=
  if 0xF000 ≤ index then .error .denied
  else
    match s.lookup index sub with
    | none => .error .absent
    | some e =>
      if !a.holds e.rperm || (a.net && e.secret) || e.foreign a then .error .denied
      else if e.acc = .wo then .error .writeOnly
      else .ok e

/-- The entry as a write may reach it, or the first refusal. -/
def State.admitWrite (s : State) (a : Asker) (index sub : Nat) : Except IoStatus Entry :=
  if 0xF000 ≤ index then .error .denied
  else
    match s.lookup index sub with
    | none => .error .absent
    | some e =>
      if !a.holds e.wperm then .error .denied
      else if e.acc = .ro then .error .readOnly
      else if decide (e.acc = .atReset) && !(a.net && s.resetWritable) then .error .resetOnly
      else .ok e

/-- The value an entry gives, and the state after the read (R362, R391, R372). -/
def Entry.read (e : Entry) (s : State) : Nat × State :=
  let s1 := e.check s
  match e.take with
  | some f => f s1
  | none => (e.get s1, if e.critical then s1.checkCriticals else s1)

/-- The new whole value reaches the entry; none is RANGE. An entry of a powered-off uncore refuses it (R453). -/
def Entry.write (e : Entry) (s : State) (index who v : Nat) : Option State :=
  match blockOf index with
  | some (c, _) => if e.uncore && !s.domainOn (64 + c.val / 16) then none else e.put (e.check s) who v
  | none => e.put (e.check s) who v

/-! ### in and out (R71 to R74) -/

/-- A value as a general register holds it. -/
def EType.toReg (t : EType) (v : Nat) : Word :=
  match t with
  | .i32 => (BitVec.ofNat 32 v).signExtend 64
  | _ => w64 v

/-- What an out accepts from a register; none is RANGE. -/
def EType.ofReg (t : EType) (v : Word) : Option Nat :=
  match t with
  | .i32 => let x := v.setWidth 32; if x.signExtend 64 = v then some x.toNat else none
  | .f32 => some (v.setWidth 32).toNat
  | .bool => if v.toNat < 2 then some v.toNat else none
  | _ => if v.toNat < 2 ^ (8 * t.width) then some v.toNat else none

/-- The off field is allowed (R73). -/
def Entry.offOk (e : Entry) (s : State) (off : Nat) : Bool :=
  if e.typ.varies then off % 8 == 0 && decide (off = 0 ∨ off < e.len s) else off == 0

/-- n bytes of a value from byte off. -/
def bytesAt (v off n : Nat) : Nat := v / 2 ^ (8 * off) % 2 ^ (8 * n)

/-- A value with n bytes from byte off replaced. -/
def replaceBytes (v off n new : Nat) : Nat :=
  v - bytesAt v off n * 2 ^ (8 * off) + new % 2 ^ (8 * n) * 2 ^ (8 * off)

/-- A read of at most 8 bytes: status, value, state. -/
def State.dictIn (s : State) (a : Asker) (t : IoTarget) : IoStatus × Word × State :=
  match s.admitRead a t.index.toNat t.sub.toNat with
  | .error x => (x, 0, s)
  | .ok e =>
    if e.offOk s t.off = false then (.offset, 0, s)
    else
      let r := e.read s
      if e.typ.varies then (.ok, w64 (bytesAt r.1 t.off (min 8 (e.len s - t.off))), r.2)
      else (.ok, e.typ.toReg r.1, r.2)

/-- A write of at most 8 bytes: status and state. -/
def State.dictOut (s : State) (a : Asker) (t : IoTarget) (v : Word) : IoStatus × State :=
  match s.admitWrite a t.index.toNat t.sub.toNat with
  | .error x => (x, s)
  | .ok e =>
    if e.offOk s t.off = false then (.offset, s)
    else
      let whole :=
        if e.typ.varies then some (replaceBytes (e.get s) t.off (min 8 (e.len s - t.off)) v.toNat) else e.typ.ofReg v
      match whole with
      | none => (.range, s)
      | some n =>
        match e.write s t.index.toNat a.who n with
        | none => (.range, s)
        | some s1 => (.ok, s1)

/-- R72: causes of kc and of its bounds over the 24-bit I/O address. -/
def ioCauses (k : Cap) (kc : KReg) (t : IoTarget) : List Cause :=
  capUseCauses k (kNum kc) [permIo] (w64 t.addr) ++ capBoundsCauses k (kNum kc) (w64 t.addr) 1

/-- A core's access under kc. -/
def coreAccess (c : CoreId) (k : Cap) : Asker := ⟨k.perms, c.val, false⟩

def State.setIostat (s : State) (c : CoreId) (x : IoStatus) : State :=
  s.mapCtl c fun t => { t with iostat := BitVec.ofNat 4 x.code }

/-- `in`: it waits for a stream fence (R246); iostat is always written, a refusal gives 0 (R73). -/
def State.ioIn (s : State) (c : CoreId) (rd : GReg) (kc : KReg) (t : IoTarget) : Effect :=
  let k := s.getK c kc
  if s.fencePending c then .stay s
  else
    s.orTrap (ioCauses k kc t)
      (let r := s.dictIn (coreAccess c k) t
       .done ((r.2.2.setIostat c r.1).setG c rd r.2.1))

/-- Core whose pq_tail an address names. -/
def tailCore (t : IoTarget) : Option CoreId :=
  match blockOf t.index.toNat with
  | some (c, 0x08) => if t.sub = 1 then some c else none
  | _ => none

/-- `out` (R73, R74): a post beyond the free slots raises FABRIC_QUEUE (R329); one that stops its own core never
completes. -/
def State.ioOut (s : State) (c : CoreId) (kc : KReg) (t : IoTarget) (v : Word) : Effect :=
  let k := s.getK c kc
  if s.fencePending c then .stay s
  else
    s.orTrap (ioCauses k kc t)
      (let r := s.dictOut (coreAccess c k) t v
       let s1 := r.2.setIostat c r.1
       match tailCore t with
       | some d =>
         if r.1 = .range ∧ s.domainOn 92 ∧ v.toNat < 65536 then
           .trap s1 (cFABRICQUEUE (w64 (queueBase d)) (kNum kc))
         else .done s1
       | none => if r.2.coreRuns c then .done s1 else .stay r.2)

/-- IN: reads a dictionary entry. -/
def execIoIn (c : CoreId) (rd : GReg) (kc : KReg) (addr : IoAddr) (s : State) : Host.Outcome State Fault Refusal :=
  s.issue c (ioLen addr) fun t => t.ioIn c rd kc (ioTarget (t.core c) addr)

/-- OUT: writes a dictionary entry. -/
def execIoOut (c : CoreId) (kc : KReg) (addr : IoAddr) (gv : GReg) (s : State) : Host.Outcome State Fault Refusal :=
  s.issue c (ioLen addr) fun t => t.ioOut c kc (ioTarget (t.core c) addr) (t.getG c gv)

/-! ### Requesters (R446, R462) -/

/-- Permissions of a session, read at each request (R462). -/
def State.sessionPerms (s : State) (x : Session) : BitVec 16 :=
  match x.trust with
  | none => BitVec.allOnes 16
  | some i => (s.mgmt.trust[i]).perms.val

def State.sessionAccess (s : State) (x : Session) : Asker := ⟨s.sessionPerms x, 64, true⟩

/-- Hub firmware runs (R414, R417). -/
def State.hubRuns (s : State) : Bool :=
  decide (s.rst.phase = .ready) &&
  (s.rowan.stage == 2 || s.rowan.stage == 3 || (s.rowan.stage == 7 && s.rowan.lastReject == 2))

def hubAccess : Asker := ⟨BitVec.allOnes 16, 64, false⟩

/-- DAP_WRITE (R469). -/
def State.logWrite (s : State) (vlan : Bool) (x : Session) (index sub v : Nat) : State :=
  s.log 1 0x0A04 (w32 (bit vlan)) (w32 (index * 256 + sub)) x.id (w32 v)

/-- A session's access is an accepted message. -/
def State.touchSession (s : State) (vlan : Bool) (i : Fin 4) : State :=
  match s.sessionAt vlan i with
  | none => s
  | some x => s.setSession vlan i (some { x with lastAt := s.time })

/-- A write of value v to one entry by a requester: a core's `out`, in the immediate form, with v in gv; a session's
WRITE; hub firmware's own. -/
def State.request (s : State) (r : Requester) (index sub off : Nat) (v : Word) : Host.Outcome State Fault Refusal :=
  let t : IoTarget := ⟨BitVec.ofNat 16 index, BitVec.ofNat 8 sub, off⟩
  match r with
  | .core c kc => s.issue c 8 fun u => u.ioOut c kc t v
  | .session vlan i =>
    match s.sessionAt vlan i with
    | none => .next s
    | some x =>
      let s1 := s.touchSession vlan i
      let q := s1.dictOut (s.sessionAccess x) t v
      .next (if q.1 = .ok then q.2.logWrite vlan x index sub v.toNat else s1)
  | .hub => if s.hubRuns then .next (s.dictOut hubAccess t v).2 else .next s

/-- Index of an entry of core c's block (R449). -/
def blockIndex (c : CoreId) (off : Nat) : Nat := 0x0120 + 0x3C * c.val + off

/-- A recorder or attestation window's index: a core's, or the shared one. -/
def winIndex (win : Option CoreId) (off shared : Nat) : Nat :=
  match win with
  | none => shared
  | some c => blockIndex c off

/-! ### One row, one entry -/

/-- First index of a fabric table field (R340). -/
def fieldIndex : FabricField → Nat
  | .tokLo => 0xC000
  | .tokHi => 0xC080
  | .base => 0xC100
  | .len => 0xC180

/-- A command word with its n-bit op field at bit p replaced by the row's op. -/
def opOf (n p op : Nat) (v : Word) : Word := fieldIns v (w64 op) p n

/-- stk_fence (R278). -/
def execStkFenceWrite (r : Requester) (v : Word) (s : State) :
    Host.Outcome State Fault Refusal :=
  s.request r 0x2500 5 0 v

/-- step_adv (R296). -/
def execStepAdvWrite (r : Requester) (v : Word) (s : State) :
    Host.Outcome State Fault Refusal :=
  s.request r 0x2400 8 0 v

/-- step_inc (R50). -/
def execStepIncWrite (r : Requester) (v : Word) (s : State) :
    Host.Outcome State Fault Refusal :=
  s.request r 0x2400 4 0 v

/-- snap_cmd, op drain (R301). -/
def execSnapDrain (r : Requester) (v : Word) (s : State) :
    Host.Outcome State Fault Refusal :=
  s.request r 0x2700 1 0 (opOf 2 0 1 v)

/-- snap_cmd, op restore (R308). -/
def execSnapRestore (r : Requester) (v : Word) (s : State) :
    Host.Outcome State Fault Refusal :=
  s.request r 0x2700 1 0 (opOf 2 0 2 v)

/-- snap_cmd, op release (R301). -/
def execSnapRelease (r : Requester) (v : Word) (s : State) :
    Host.Outcome State Fault Refusal :=
  s.request r 0x2700 1 0 (opOf 2 0 3 v)

/-- snap_accept (R310). -/
def execSnapAccept (r : Requester) (v : Word) (s : State) :
    Host.Outcome State Fault Refusal :=
  s.request r 0x2700 2 0 v

/-- port_fence (R351). -/
def execPortFenceWrite (r : Requester) (p : Fin 8) (v : Word) (s : State) :
    Host.Outcome State Fault Refusal :=
  s.request r (0x1200 + p.val) 4 0 v

/-- ch_cmd: open (R344). -/
def execChCmdOpen (r : Requester) (c : CoreId) (s : State) :
    Host.Outcome State Fault Refusal :=
  s.request r (blockIndex c 0x09) 4 0 1

/-- ch_cmd: close (R344). -/
def execChCmdClose (r : Requester) (c : CoreId) (s : State) :
    Host.Outcome State Fault Refusal :=
  s.request r (blockIndex c 0x09) 4 0 2

/-- pq_size (R330). -/
def execPqSizeWrite (r : Requester) (c : CoreId) (v : Word) (s : State) :
    Host.Outcome State Fault Refusal :=
  s.request r (blockIndex c 0x08) 2 0 v

/-- A field of a fabric table entry (R340). -/
def execFabricTableWrite (r : Requester) (field : FabricField) (i : Fin 16384) (v : Word) (s : State) :
    Host.Outcome State Fault Refusal :=
  s.request r (fieldIndex field + i.val / 128) (i.val % 128 + 1) 0 v

/-- The control byte of a fabric table entry (R340, R342). -/
def execFabricEnableWrite (r : Requester) (i : Fin 16384) (v : Word) (s : State) :
    Host.Outcome State Fault Refusal :=
  s.request r (0xC200 + i.val / 128) (i.val % 128 + 1) 0 v

/-- qp_cmd, op load (R356). -/
def execQpCmdLoad (r : Requester) (v : Word) (s : State) :
    Host.Outcome State Fault Refusal :=
  s.request r 0x1400 2 0 (opOf 2 10 1 v)

/-- qp_cmd, op reset (R356). -/
def execQpCmdReset (r : Requester) (v : Word) (s : State) :
    Host.Outcome State Fault Refusal :=
  s.request r 0x1400 2 0 (opOf 2 10 2 v)

/-- qp_cmd, op write back (R356). -/
def execQpCmdWriteback (r : Requester) (v : Word) (s : State) :
    Host.Outcome State Fault Refusal :=
  s.request r 0x1400 2 0 (opOf 2 10 3 v)

/-- mode (R318, R430). -/
def execPortModeWrite (r : Requester) (p : Fin 8) (v : Word) (s : State) :
    Host.Outcome State Fault Refusal :=
  s.request r (0x1200 + p.val) 1 0 v

/-- core_fence (R16, R360). -/
def execCoreFenceWrite (r : Requester) (v : Word) (s : State) :
    Host.Outcome State Fault Refusal :=
  s.request r 0xA020 1 0 v

/-- dq_post (R372). -/
def execDqPost (r : Requester) (q : Fin 5) (item : Word) (s : State) :
    Host.Outcome State Fault Refusal :=
  s.request r (0xA040 + q.val) 1 0 item

/-- rec_sel (R377). -/
def execRecSelWrite (r : Requester) (win : Option CoreId) (v : Word) (s : State) :
    Host.Outcome State Fault Refusal :=
  s.request r (winIndex win 0x0A 0xA001) 1 0 v

/-- rec_size (R379). -/
def execRecSizeWrite (r : Requester) (v : Word) (s : State) :
    Host.Outcome State Fault Refusal :=
  s.request r 0xA000 1 0 v

/-- int_set (R388). -/
def execIntSet (r : Requester) (v : Word) (s : State) :
    Host.Outcome State Fault Refusal :=
  s.request r 0x2841 1 0 v

/-- int_clr (R388). -/
def execIntClr (r : Requester) (v : Word) (s : State) :
    Host.Outcome State Fault Refusal :=
  s.request r 0x2841 2 0 v

/-- sys_rst (R398). -/
def execSysRstWrite (r : Requester) (v : Word) (s : State) :
    Host.Outcome State Fault Refusal :=
  s.request r 0x2850 1 0 v

/-- core_rst (R397). -/
def execCoreRstWrite (r : Requester) (c : CoreId) (v : Word) (s : State) :
    Host.Outcome State Fault Refusal :=
  s.request r (blockIndex c 0x0D) 1 0 v

/-- opt_go (R401). -/
def execOptGoWrite (r : Requester) (v : Word) (s : State) :
    Host.Outcome State Fault Refusal :=
  s.request r 0x2850 3 0 v

/-- svn_commit (R419). -/
def execSvnCommit (r : Requester) (v : Word) (s : State) :
    Host.Outcome State Fault Refusal :=
  s.request r 0x2900 3 0 v

/-- key_revoke (R420). -/
def execKeyRevoke (r : Requester) (v : Word) (s : State) :
    Host.Outcome State Fault Refusal :=
  s.request r 0x2900 5 0 v

/-- q_cmd (R424). -/
def execQCmd (r : Requester) (win : Option CoreId) (v : Word) (s : State) :
    Host.Outcome State Fault Refusal :=
  s.request r (winIndex win 0x0E 0x2901) 4 0 v

/-- ext_go (R421). -/
def execExtGo (r : Requester) (win : Option CoreId) (v : Word) (s : State) :
    Host.Outcome State Fault Refusal :=
  s.request r (winIndex win 0x0E 0x2901) 2 0 v

/-- pd_cmd: on (R430). -/
def execPdCmdOn (r : Requester) (d : Fin 96) (s : State) :
    Host.Outcome State Fault Refusal :=
  s.request r 0x2A00 (d.val + 1) 0 1

/-- pd_cmd: off (R430). -/
def execPdCmdOff (r : Requester) (d : Fin 96) (s : State) :
    Host.Outcome State Fault Refusal :=
  s.request r 0x2A00 (d.val + 1) 0 0

/-- pwr_cap (R441). -/
def execPwrCapWrite (r : Requester) (v : Word) (s : State) :
    Host.Outcome State Fault Refusal :=
  s.request r 0x2A10 1 0 v

/-- f_set (R434). -/
def execFSetWrite (r : Requester) (c : CoreId) (v : Word) (s : State) :
    Host.Outcome State Fault Refusal :=
  s.request r (blockIndex c 0x0F) 1 0 v

/-- coll_mark (R442). -/
def execCollMark (r : Requester) (c : CoreId) (v : Word) (s : State) :
    Host.Outcome State Fault Refusal :=
  s.request r (blockIndex c 0x0F) 5 0 v

/-- opt_commit (R456). -/
def execOptCommit (r : Requester) (v : Word) (s : State) :
    Host.Outcome State Fault Refusal :=
  s.request r 0x2860 1 0 v

/-- desc_sel (R447). -/
def execDescSelWrite (r : Requester) (c : CoreId) (v : Word) (s : State) :
    Host.Outcome State Fault Refusal :=
  s.request r (blockIndex c 0x10) 1 0 v

/-- Any entry (R452). -/
def execDictionaryWrite (r : Requester) (index : BitVec 16) (sub : BitVec 8) (off : BitVec 16) (v : Word) (s : State) :
    Host.Outcome State Fault Refusal :=
  s.request r index.toNat sub.toNat off.toNat v

/-- dq_claim by core c: the item's handle goes to rd (R372). -/
def execDqClaim (c : CoreId) (rd : GReg) (kc : KReg) (s : State) : Host.Outcome State Fault Refusal :=
  s.issue c 8 fun t => t.ioIn c rd kc ⟨BitVec.ofNat 16 (blockIndex c 0x0B), 1, 0⟩

/-- dq_done by core c (R372). -/
def execDqDone (c : CoreId) (kc : KReg) (gv : GReg) (s : State) : Host.Outcome State Fault Refusal :=
  s.issue c 8 fun t => t.ioOut c kc ⟨BitVec.ofNat 16 (blockIndex c 0x0B), 2, 0⟩ (t.getG c gv)

/-- Interrupt target entries of the requester: a core's own block, otherwise target 64 (R393). -/
def targetIndex : Requester → Nat
  | .core c _ => blockIndex c 0x0C
  | _ => 0x2840

/-- claim: a core reads it to rd; a session and hub firmware read target 64 (R391). -/
def execClaim (r : Requester) (rd : GReg) (s : State) : Host.Outcome State Fault Refusal :=
  let t : IoTarget := ⟨BitVec.ofNat 16 (targetIndex r), 1, 0⟩
  match r with
  | .core c kc => s.issue c 8 fun u => u.ioIn c rd kc t
  | .session vlan i =>
    match s.sessionAt vlan i with
    | none => .next s
    | some x => .next ((s.touchSession vlan i).dictIn (s.sessionAccess x) t).2.2
  | .hub => if s.hubRuns then .next (s.dictIn hubAccess t).2.2 else .next s

/-- complete (R392). -/
def execComplete (r : Requester) (v : Word) (s : State) : Host.Outcome State Fault Refusal :=
  s.request r (targetIndex r) 2 0 v

end Sys2Proof.Machine
end

