-- ==== Sys2Proof/Machine/Dap.lean ====
section
/-!
DEFINITION. The Dictionary Access Protocol of the management port and of the management VLAN path (R458 to R468): the
handshake, the requests of a session, its end, the certificate, and the port's ICMPv6 answers.
-/
namespace Sys2Proof.Machine

/-! ### Datagrams (R460) -/

def State.mapMgmt (s : State) (f : Mgmt → Mgmt) : State := { s with mgmt := f s.mgmt }

/-- The link-local address of the port: modified EUI-64 of mgmt_mac (R459). -/
def Mgmt.linkLocal (m : Mgmt) : BitVec 128 :=
  let b := fun (i : Nat) => m.mac.extractLsb' (8 * i) 8
  (0xFE80#16 ++ 0#48 ++ (b 0 ^^^ 2) ++ b 1 ++ b 2 ++ 0xFFFE#16 ++ b 3 ++ b 4 ++ b 5 : BitVec 128)

/-- mgmt_ip6 as an address: byte 0 of the OCTETS comes first. -/
def Mgmt.ownIp6 (m : Mgmt) : BitVec 128 := BitVec.ofNat 128 (leNat (leBytes 16 m.ip6.toNat).reverse)

/-- An address of the management port. -/
def Mgmt.owns (m : Mgmt) (a : BitVec 128) : Bool := a == m.linkLocal || (m.ip6 != 0 && a == m.ownIp6)

/-- The path: the management VLAN's, or the management port's. -/
def dapVlan : DapFrom → Bool
  | .onPort .. => false
  | .onVlan .. => true

/-- Where the answer goes: whence the datagram came. -/
def dapPeer : DapFrom → DapPeer
  | .onPort dst src _ sport => ⟨none, dst, src, sport⟩
  | .onVlan f _ sport => ⟨some f.sub, f.dstIp, f.srcIp, sport⟩

/-- A datagram arrives, and whether DAP takes it: on the port, whose MAC is not zero, once its word has been loaded, at one of
its two addresses and dap_port (R459, R493); in a frame tagged with mgmt_vid, while that is on, at the address of the sub-port
and dap_port (R320, R323, R468). -/
def State.dapArrive (s : State) (x : DapFrom) : State × Bool :=
  match x with
  | .onPort dst _ dport _ => (s, s.balls.mgmtTx && decide (s.mgmt.mac ≠ 0) && s.mgmt.owns dst && dport == s.mgmt.dapPort)
  | .onVlan f dport _ =>
    let k := f.sub.val
    let r := s.frameIn f
    if r.2 && !f.fragOrExt then
      let t := r.1.countCe f
      (t, decide (t.rst.phase = .ready) && t.mgmtVlan.isSome && (f.vid.map BitVec.toNat == t.mgmtVlan) && t.subOwns k f.dstIp &&
        decide ((t.sub k).mac ≠ 0) && dport == t.mgmt.dapPort)
    else (r.1, false)

/-- Body lengths and tag of a type a host sends. -/
def dapLengthOk (m : DapMsg) : Bool :=
  let n := m.body.length
  match m.typ.toNat with
  | 1 => n == 298 && m.tag.isNone
  | 3 => n == 132 && m.tag.isNone
  | 5 => n == 8 && m.tag.isSome
  | 6 => decide (8 ≤ n) && n == 8 + fieldNat m.body 6 2 && m.tag.isSome
  | 7 => n == 8 && m.tag.isSome
  | 10 => n == 0 && m.tag.isSome
  | 11 => n == 4 && m.tag.isNone
  | _ => false

/-- Version, type and length are none of the reserved ones. -/
def dapWellFormed (m : DapMsg) (typ : Nat) : Bool :=
  m.ver == 1 && m.typ.toNat == typ && m.blen.toNat == m.body.length && decide (m.body.length ≤ 1100) && dapLengthOk m

/-- A datagram of the given type reaches f; another is discarded and counted. -/
def State.dapIn (s : State) (x : DapFrom) (m : DapMsg) (typ : Nat) (f : State → State) :
    Host.Outcome State Fault Refusal :=
  let r := s.dapArrive x
  if r.2 = false then .next r.1
  else if dapWellFormed m typ then .next (f r.1)
  else .next (r.1.mapMgmt fun y => { y with discarded := y.discarded + 1 })

/-- A message without a tag. -/
def plainDap (typ : BitVec 4) (session : BitVec 32) (body : List Byte) : DapMsg :=
  ⟨1, typ, 0, BitVec.ofNat 16 body.length, session, 0, body, none⟩

/-! ### The handshake (R461, R465, R468) -/

/-- Qc of a HELLO body. -/
def helloKey (body : List Byte) : List Byte := sliceBytes body 32 133

/-- Ec of a HELLO body. -/
def helloPoint (body : List Byte) : List Byte := sliceBytes body 165 133

/-- The enabled trust entry whose key is SHA-512(Qc). -/
def Mgmt.trustOf (m : Mgmt) (body : List Byte) : Option (Fin 8) :=
  (List.finRange 8).find? fun i => m.trust[i].enable && decide (m.trust[i].key = Config.sha512 (helloKey body))

/-- BLANK with no enabled entry: any key opens a session (R462). -/
def State.anyKey (s : State) : Bool :=
  decide (s.rowan.lifecycle = .blank) && (List.finRange 8).all fun i => !s.mgmt.trust[i].enable

/-- An ACCEPT that refuses. -/
def State.refuseHello (s : State) (p : DapPeer) (x : IoStatus) : State :=
  s.sendDap p (plainDap 4 0 [BitVec.ofNat 8 x.code, 0xFF, 0, 0])

/-- A handshake ends without a session: dap_hs_fail, DAP_HS_FAIL with its reason. -/
def State.hsFailed (s : State) (vlan : Bool) (hello : List Byte) (why : Nat) : State :=
  let t := s.mapMgmt fun m => { m with hsFail := m.hsFail + 1 }
  t.log 3 0x0A03 (w32 (bit vlan)) (w32 (Config.sha512 (helloKey hello)).toNat) (w32 why) 0

/-- Why a HELLO is refused at once. -/
inductive HelloRefusal where
  | busy
  | noEntry
  | noDict
  deriving DecidableEq, Repr

/-- Sessions of a path. -/
def State.pathSessions (s : State) (vlan : Bool) : Vector (Option Session) 4 := if vlan then s.mgmt.vlan else s.mgmt.port

/-- The trust entry a HELLO opens with, or its refusal. -/
def State.judgeHello (s : State) (vlan : Bool) (body : List Byte) : Except HelloRefusal (Option (Fin 8)) :=
  if openSessions (s.pathSessions vlan) = 4 then .error .busy
  else
    match s.mgmt.trustOf body with
    | some i =>
      if vlan && !(s.mgmt.trust[i]).perms.val.getLsbD permDict then .error .noDict else .ok (some i)
    | none => if s.anyKey then .ok none else .error .noEntry

/-- A HELLO: refused at once, started, or kept until the handshake in progress ends (R461, R462, R465). -/
def State.hello (s : State) (e : DapPeer × DapMsg) : State :=
  let vlan := e.1.vlan
  let m := e.2
  if s.rowan.lifecycle = .decommissioned then s
  else
    match s.judgeHello vlan m.body with
    | .error .busy => s.refuseHello e.1 .busy
    | .error .noEntry => (s.refuseHello e.1 .denied).hsFailed vlan m.body 1
    | .error .noDict => (s.refuseHello e.1 .denied).hsFailed vlan m.body 3
    | .ok t =>
      if s.mgmt.hs.isSome then s.mapMgmt fun x => { x with hsWait := x.hsWait ++ [e] }
      else
        let h : Handshake :=
          { peer := e.1, stage := .signing, ahead := s.rowan.quotes.length, trust := t, notify := m.flags.getLsbD 0
            hello := m.body, challenge := [], id := 0, secret := 0 }
        s.mapMgmt fun x => { x with hs := some h }

/-- HELLOs that waited are taken up. -/
def State.serveWaiting (s : State) : State :=
  s.mgmt.hsWait.foldl (fun t e => t.hello e) (s.mapMgmt fun m => { m with hsWait := [] })

/-- The handshake in progress is over; Rowan's engine and the next HELLO go on. -/
def State.endHandshake (s : State) : State := ((s.mapMgmt fun m => { m with hs := none }).startQuote).serveWaiting

/-- A session id is in use. -/
def State.idInUse (s : State) (id : BitVec 32) : Bool :=
  (s.mgmt.port.toList ++ s.mgmt.vlan.toList).any fun x => match x with | none => false | some y => y.id == id

/-- A non-zero id that no session has, from a free value. -/
def State.freshId (s : State) (v : Nat) : BitVec 32 :=
  match (List.range 16).find? fun i => w32 (v + i) != 0 && !s.idInUse (w32 (v + i)) with
  | some i => w32 (v + i)
  | none => w32 v

/-- CHALLENGE (R461 step 2). -/
def State.challenge (s : State) (h : Handshake) : State :=
  let n := s.freeBytes 32
  let i := n.2.takeFree
  let k := i.2.takeFree
  let id := s.freshId i.1.toNat
  let head := n.1 ++ sliceBytes (Config.ephemeralPoint k.1) 0 133
  let g := k.2.signIdentity (h.hello ++ head)
  let body := head ++ g.2
  let t := g.1.mapMgmt fun m =>
    { m with hs := some { h with stage := .challenged s.time, challenge := body, id := id, secret := k.1 } }
  (t.sendDap h.peer (plainDap 2 id body)).startQuote

/-- Trust index as ACCEPT and DAP_OPEN give it. -/
def trustIndex (t : Option (Fin 8)) : Nat :=
  match t with
  | none => 0xFF
  | some i => i.val

/-- The entry the handshake began with is still enabled (R462). -/
def State.trustHolds (s : State) (t : Option (Fin 8)) : Bool :=
  match t with
  | none => s.anyKey
  | some i => (s.mgmt.trust[i]).enable

/-- Signature over SHA-512(HELLO body ‖ CHALLENGE body) by Qc (R461 step 4). -/
def Handshake.confirmed (h : Handshake) (sigC : List Byte) : Bool :=
  Config.ecdsaVerify (helloKey h.hello) (Config.sha512 (h.hello ++ h.challenge)) (BitVec.ofNat 528 (fieldBe sigC 0 66))
    (BitVec.ofNat 528 (fieldBe sigC 66 66))

/-- The session a handshake opens, with the keys of R461 step 4. -/
def Handshake.session (h : Handshake) (now : Nat) : Session :=
  let salt := BitVec.ofNat 512 (leNat (sliceBytes h.hello 0 32 ++ sliceBytes h.challenge 0 32))
  let z := Config.ecdhX h.secret (helloPoint h.hello)
  { id := h.id, peer := h.peer, trust := h.trust, lastSeq := 0, devSeq := 1, notify := h.notify
    keyIn := Config.hkdf512 salt z false, keyOut := Config.hkdf512 salt z true
    stored := none, notified := 0, lastAt := now, secondAt := now }

/-- First free session slot of a path. -/
def State.freeSlot (s : State) (vlan : Bool) : Option (Fin 4) :=
  (List.finRange 4).find? fun i => (s.sessionAt vlan i).isNone

/-- ACCEPT (R461 step 4). -/
def State.accept (s : State) (h : Handshake) (sigC : List Byte) : State :=
  let no := fun (why : Nat) => ((s.refuseHello h.peer .denied).hsFailed h.peer.vlan h.hello why).endHandshake
  if s.trustHolds h.trust = false then no 1
  else if h.confirmed sigC = false then no 2
  else
    match s.freeSlot h.peer.vlan with
    | none => (s.refuseHello h.peer .busy).endHandshake
    | some i =>
      let x := h.session s.time
      let t := (s.setSession h.peer.vlan i (some x)).log 1 0x0A01 (w32 (bit h.peer.vlan)) x.id (w32 (trustIndex h.trust))
        ((s.sessionPerms x).setWidth 32)
      (t.sendDap h.peer (x.message 4 1 [0, BitVec.ofNat 8 (trustIndex h.trust), 0, 0])).endHandshake

/-- A HELLO starts a handshake, or is refused. -/
def execDapHello (at_ : DapFrom) (m : DapMsg) (s : State) : Host.Outcome State Fault Refusal :=
  s.dapIn at_ m 1 fun t => t.hello (dapPeer at_, m)

/-- Rowan's engine is free for the handshake's step (R465). -/
def State.engineTurn (s : State) (h : Handshake) : Bool := decide (h.ahead = 0) && s.rowan.signing.isNone

/-- Rowan finishes the handshake signature, and CHALLENGE is sent. -/
def execChallengeSend (s : State) : Host.Outcome State Fault Refusal :=
  match s.mgmt.hs with
  | none => .next s.serveWaiting
  | some h => if h.stage = .signing ∧ s.engineTurn h then .next (s.challenge h) else .next s

/-- CONFIRM within 1 s of the CHALLENGE it answers. -/
def execDapConfirm (at_ : DapFrom) (m : DapMsg) (s : State) : Host.Outcome State Fault Refusal :=
  s.dapIn at_ m 3 fun t =>
    match t.mgmt.hs with
    | none => t
    | some h =>
      match h.stage with
      | .challenged since =>
        if h.peer.vlan = (dapVlan at_) ∧ h.id = m.session ∧ t.time ≤ since + 100000000 then
          t.mapMgmt fun x => { x with hs := some { h with stage := .checking m.body, ahead := t.rowan.quotes.length } }
        else t
      | _ => t

/-- Rowan finishes checking sig_c, and ACCEPT is sent. -/
def execAcceptSend (s : State) : Host.Outcome State Fault Refusal :=
  match s.mgmt.hs with
  | none => .next s
  | some h =>
    match h.stage with
    | .checking sigC => if s.engineTurn h then .next (s.accept h sigC) else .next s
    | _ => .next s

/-- A CHALLENGE without CONFIRM in 1 s is abandoned. -/
def execChallengeTimeout (s : State) : Host.Outcome State Fault Refusal :=
  match s.mgmt.hs with
  | none => .next s
  | some h =>
    match h.stage with
    | .challenged at_ =>
      if at_ + 100000000 ≤ s.time then .next (s.hsFailed h.peer.vlan h.hello 4).endHandshake else .next s
    | _ => .next s

/-! ### Requests of a session (R463, R464) -/

/-- What a request answers: status, count, data. -/
structure Answer where
  status : IoStatus
  count : Byte
  data : List Byte
  deriving DecidableEq, Repr

def Answer.body (a : Answer) : List Byte :=
  [BitVec.ofNat 8 a.status.code, a.count] ++ leBytes 2 a.data.length ++ a.data

/-- Where a READ or WRITE reaches within an entry (R452 steps 4 and 5, R464). -/
def Entry.spanCheck (e : Entry) (s : State) (off len : Nat) : Option IoStatus :=
  if e.len s < off + len ∨ (e.typ.varies = false ∧ off ≠ 0) then some .offset
  else if 1024 < len ∨ (e.typ.varies = false ∧ len ≠ e.len s) then some .range
  else none

/-- READ. The count byte of its answer is open. -/
def State.dapRead (s : State) (x : Session) (m : DapMsg) : State × Answer :=
  let index := fieldNat m.body 0 2
  let sub := fieldNat m.body 2 1
  let off := fieldNat m.body 4 2
  let len := fieldNat m.body 6 2
  let f := s.takeFree
  let n : Byte := f.1.setWidth 8
  if m.flags.getLsbD 0 then (f.2, ⟨.ok, n, leBytes 8 (s.describe index sub)⟩)
  else
    match s.admitRead (s.sessionAccess x) index sub with
    | .error y => (f.2, ⟨y, n, []⟩)
    | .ok e =>
      match e.spanCheck s off len with
      | some y => (f.2, ⟨y, n, []⟩)
      | none =>
        let r := e.read f.2
        (r.2, ⟨.ok, n, leBytes len (bytesAt r.1 off len)⟩)

/-- WRITE. -/
def State.dapWrite (s : State) (vlan : Bool) (x : Session) (m : DapMsg) : State × Answer :=
  let index := fieldNat m.body 0 2
  let sub := fieldNat m.body 2 1
  let off := fieldNat m.body 4 2
  let len := fieldNat m.body 6 2
  let v := leNat (sliceBytes m.body 8 len)
  let f := s.takeFree
  let n : Byte := f.1.setWidth 8
  match s.admitWrite (s.sessionAccess x) index sub with
  | .error y => (f.2, ⟨y, n, []⟩)
  | .ok e =>
    match e.spanCheck s off len with
    | some y => (f.2, ⟨y, n, []⟩)
    | none =>
      let whole := if e.typ.varies then replaceBytes (e.get s) off len v else v
      if e.typ = .bool ∧ 2 ≤ v then (f.2, ⟨.range, n, []⟩)
      else
        match e.write f.2 index 64 whole with
        | none => (f.2, ⟨.range, n, []⟩)
        | some t => (t.logWrite vlan x index sub v, ⟨.ok, n, []⟩)

/-- The element of an ARRAY at a subindex, for a session. -/
def State.dapElement (s : State) (x : Session) (index sub : Nat) : Except IoStatus Entry :=
  match s.lookup index 0 with
  | some a => if a.typ = .array ∧ 1 ≤ sub then s.admitRead (s.sessionAccess x) index sub else .error .absent
  | none => s.admitRead (s.sessionAccess x) index 0

/-- BLOCK_READ from one element on: n more, with what was gathered. -/
def State.dapBlock (s : State) (x : Session) (index sub : Nat) (got : Nat) (data : List Byte) : Nat → State × Answer
  | 0 => (s, ⟨.ok, BitVec.ofNat 8 got, data⟩)
  | n + 1 =>
    match s.dapElement x index sub with
    | .error y => (s, ⟨y, BitVec.ofNat 8 got, data⟩)
    | .ok e =>
      if 1024 < data.length + e.len s then (s, ⟨.ok, BitVec.ofNat 8 got, data⟩)
      else
        let r := e.read s
        r.2.dapBlock x index (sub + 1) (got + 1) (data ++ leBytes (e.len s) r.1) n

/-- Slot of a session by its id. -/
def State.sessionSlot (s : State) (vlan : Bool) (id : BitVec 32) : Option (Fin 4) :=
  (List.finRange 4).find? fun i => match s.sessionAt vlan i with | none => false | some x => x.id == id

/-- The answer is stored and sent, where the session is still there. -/
def State.answer (s : State) (p : DapPeer) (i : Fin 4) (x : Session) (m : DapMsg) (a : Answer) : State :=
  let r := x.message 9 (x.devSeq + 1) a.body
  let t : State :=
    match s.sessionAt p.vlan i with
    | none => s
    | some y => if y.id = x.id then
        s.setSession p.vlan i (some { y with peer := p, lastSeq := m.seq, lastAt := s.time, devSeq := x.devSeq + 1, stored := some r })
      else s
  t.sendDap p r

/-- An authenticated message (R463): discarded and counted, answered again, or handed to f. -/
def State.authentic (s : State) (at_ : DapFrom) (m : DapMsg) (f : State → Fin 4 → Session → State) : State :=
  let vlan := dapVlan at_
  let bad := s.mapMgmt fun x => { x with badmac := x.badmac + 1 }
  let old := s.mapMgmt fun x => { x with replay := x.replay + 1 }
  match s.sessionSlot vlan m.session with
  | none => bad
  | some i =>
    match s.sessionAt vlan i with
    | none => bad
    | some x =>
      if m.tag ≠ some (dapTag x.keyIn m) then bad
      else if m.seq < x.lastSeq then old
      else if m.seq = x.lastSeq then
        match x.stored with
        | none => old
        | some r => s.sendDap (dapPeer at_) r
      else f s i x

/-- READ over the DAP. -/
def execDapRead (at_ : DapFrom) (m : DapMsg) (s : State) : Host.Outcome State Fault Refusal :=
  s.dapIn at_ m 5 fun t => t.authentic at_ m fun u i x =>
    let r := u.dapRead x m
    r.1.answer (dapPeer at_) i x m r.2

/-- A request for a system reset, which is answered before the quiesce step begins (R398). -/
def asksReset (m : DapMsg) : Bool := fieldNat m.body 0 2 == 0x2850 && fieldNat m.body 2 1 == 1

/-- WRITE over the DAP, applied once for a sequence number. -/
def execDapWrite (at_ : DapFrom) (m : DapMsg) (s : State) : Host.Outcome State Fault Refusal :=
  s.dapIn at_ m 6 fun t => t.authentic at_ m fun u i x =>
    let r := u.dapWrite (dapVlan at_) x m
    if asksReset m then ((u.answer (dapPeer at_) i x m r.2).dapWrite (dapVlan at_) x m).1 else r.1.answer (dapPeer at_) i x m r.2

/-- BLOCK_READ over the DAP. -/
def execDapBlockRead (at_ : DapFrom) (m : DapMsg) (s : State) : Host.Outcome State Fault Refusal :=
  s.dapIn at_ m 7 fun t => t.authentic at_ m fun u i x =>
    let r := u.dapBlock x (fieldNat m.body 0 2) (fieldNat m.body 2 1) 0 [] (fieldNat m.body 4 2)
    r.1.answer (dapPeer at_) i x m r.2

/-- CLOSE ends the session (R465). -/
def execDapClose (at_ : DapFrom) (m : DapMsg) (s : State) : Host.Outcome State Fault Refusal :=
  s.dapIn at_ m 10 fun t => t.authentic at_ m fun u i _ => u.endSession (dapVlan at_) i 0

/-- A session idle for dap_idle seconds ends (R465). -/
def execDapIdleTimeout (vlan : Bool) (slot : Fin 4) (s : State) : Host.Outcome State Fault Refusal :=
  match s.sessionAt vlan slot with
  | none => .next s
  | some x =>
    if x.lastAt + s.mgmt.dapIdle.toNat * 100000000 ≤ s.time then .next (s.endSession vlan slot 1) else .next s

/-! ### Without a session -/

/-- CERT_GET, in every lifecycle (R460, R462). -/
def execCertGet (at_ : DapFrom) (m : DapMsg) (s : State) : Host.Outcome State Fault Refusal :=
  s.dapIn at_ m 11 fun t =>
    let off := fieldNat m.body 0 2
    let cert := t.rowan.idCert
    t.sendDap (dapPeer at_) (plainDap 12 0 (leBytes 2 cert.length ++ leBytes 2 off ++ (cert.drop off).take 1024))

/-- Neighbor Solicitations and Echo Requests for the port's addresses are answered; it carries no IPv4 (R459, R493). -/
def execMgmtIcmpReceive (kind : NeighborKind) (target : BitVec 128) (s : State) : Host.Outcome State Fault Refusal :=
  if kind ≠ .arp ∧ s.balls.mgmtTx ∧ s.mgmt.mac ≠ 0 ∧ s.mgmt.owns target then .next (s.send (.mgmtIcmp kind target))
  else .next s

end Sys2Proof.Machine
end

