-- ==== Sys2Proof/Machine/Drain.lean ====
section
/-!
DEFINITION. Accumulator drains: qdrain, the drain lanes and the recombination (R186 to R188, R221 to
R224), block packing (R40), and the events of a drain.
-/
namespace Sys2Proof.Machine

/-! ### Block packing (R40) -/

/-- emax of an element format. -/
def blockEmax : Fmt → Int
  | .e4m3 => 8
  | .e5m2 | .fp16 => 15
  | .e3m2 => 4
  | .e2m3 | .e2m1 => 2
  | _ => 0

/-- floor(log2) of the largest magnitude; none where every value is zero. -/
def blockLog : List FVal → Option Int
  | [] => none
  | .num _ m e :: vs =>
    match blockLog vs with
    | none => some (floorLog2 m e)
    | some g => some (max g (floorLog2 m e))
  | _ :: vs => blockLog vs

/-- The scale byte of a block without NaN and infinity. -/
def blockScale (f : Fmt) (vs : List FVal) : Nat :=
  match blockLog vs with
  | none => 127
  | some g => (min (max (g - blockEmax f + 127) 0) 254).toNat

/-- One element converted under its scale, saturating; an INT8 element counts 2^−6 of the scale (R43). -/
def blockElem (f : Fmt) (scale : Nat) (rm : RMode) (dnan fromInt : Bool) (v : FVal) (r : Nat) :
    Nat × BitVec 6 :=
  let x := v.scaled (127 - (scale : Int))
  if f = .int8 then encodeInt .int8 (x.scaled 6) rm fromInt r else encodeFloat f x rm ⟨true, dnan⟩ r

/-- One block: scale byte, raw elements, flags. `rs` holds the elements' 16-bit draw fields. -/
def packBlock (f : Fmt) (rm : RMode) (dnan fromInt : Bool) (vs : List FVal) (rs : List Nat) :
    Byte × List Nat × BitVec 6 :=
  if vs.any fun v => !v.finite then
    (0xFF, vs.map fun _ => if f.noNan || f.isInt then 0 else canonicalNan f, fNV)
  else
    let e := blockScale f vs
    let qs := (vs.zip rs).map fun p => blockElem f e rm dnan fromInt p.1 p.2
    (BitVec.ofNat 8 e, qs.map fun q => q.1, qs.foldl (fun a q => a ||| q.2) 0)

/-- Elements packed from the least significant bit upward (R30). -/
def packBits (bits : Nat) (raws : List Nat) : List Byte :=
  leBytes (ceilDiv (bits * raws.length) 8) (raws.foldr (fun r a => r % 2 ^ bits + 2 ^ bits * a) 0)

/-! ### Fields of a drain (R187, R221 to R224) -/

def cfgFunc (cfg : BitVec 8) : BitVec 3 := cfg.extractLsb' 0 3
def cfgRc (cfg : BitVec 8) : Bool := cfg.getLsbD 4
def cfgRelu (cfg : BitVec 8) : Bool := cfg.getLsbD 5

/-- Destination of a drain with rc = 0; none for the reserved kind. -/
def drainDest (w : Word) : Option DrainDest :=
  match (w.extractLsb' 0 2).toNat with
  | 0 => some (.vector (w.extractLsb' 4 5).toNat)
  | 1 => some (.tileBuffer (262144 * (w.extractLsb' 4 2).toNat + 64 * (w.extractLsb' 16 12).toNat))
  | 2 => some (.store (w.extractLsb' 4 1).toFin)
  | _ => none

/-- Destination of a drain with rc = 1, from its operand word. -/
def recombineDest (w : Word) : DrainDest :=
  .recombine (w.extractLsb' 0 16) (w.getLsbD 16) (w.getLsbD 17) (w.extractLsb' 32 16).toNat

/-- Byte of tile-buffer space where the auxiliary output begins. -/
def Drain.aux (d : Drain) : Nat :=
  262144 * (d.operand.extractLsb' 48 2).toNat + 64 * (d.operand.extractLsb' 50 12).toNat

/-- Auxiliary bytes a drain writes to its tile buffer (R223). -/
def Drain.auxBytes (d : Drain) : Nat :=
  if d.st then 16 * d.m
  else if cfgBp d.cfg then (match d.dest with | .store _ => 0 | _ => d.m * d.scaleBytes)
  else 0

/-- The bytes from `first` on do not fit in their tile buffer. -/
def bufferOverrun (first n : Nat) : Bool := decide (262144 < first % 262144 + n)

/-- The output does not fit where the destination puts it (R174, R224). -/
def CoreState.drainMisfit (x : CoreState) (d : Drain) (grp : BitVec 2) : Bool :=
  (match d.dest with
   | .vector _ => decide (2048 * groupSize grp < d.m * d.rowBytes)
   | .tileBuffer b => bufferOverrun b (d.m * d.rowBytes)
   | .recombine _ _ area u =>
     decide ((if area then 64 * x.streamArea else 1048576) < 64 * u + 8192 * d.m)
   | _ => false) ||
  bufferOverrun d.aux d.auxBytes

/-- R223, R224: fmt, N and the options agree. -/
def Drain.badFormat (d : Drain) : Bool :=
  let f := d.format
  if cfgRc d.cfg then f != .fp64 || d.mode != .integer || cfgFunc d.cfg != 0 || cfgBp d.cfg || d.st
  else
    f == .split32 || (cfgBp d.cfg && d.st) ||
    (cfgBp d.cfg && (match blockLen f with | none => true | some b => d.n % b != 0)) ||
    ((f == .e2m1 || f == .int4) && d.n % 2 != 0) || ((f == .e3m2 || f == .e2m3) && d.n % 4 != 0)

/-- The one mode of the covered slots; none where they differ or one has no mode. -/
def Tiles.drainMode (t : Tiles) (slot m : Nat) : SlotMode :=
  let ms := (slotsOf slot m).map t.mode
  match ms with
  | [] => .none
  | a :: rest => if rest.all fun b => b == a then a else .none

/-- Issue checks of qdrain (R174, R223, R224). `known`: gd's kind is not the reserved one. -/
def State.qdrainCauses (s : State) (c : CoreId) (d : Drain) (n : BitVec 10) (rm : BitVec 3) (gd : Word)
    (known : Bool) : List Cause :=
  let x := s.core c
  let grp := gd.extractLsb' 9 2
  failIf (d.fmt == 15 || (RMode.ofField rm x.ctl.rm).isNone || d.cfg.extractLsb' 6 2 != 0)
    (cILLEGAL (s.pc c)) ++
  failIf (badCount n || slotsBad d.slot d.m || d.mode == .none || d.badFormat || !known ||
      x.drainMisfit d grp) (cSHAPE (s.pc c)) ++
  (match d.dest with
   | .vector v => failIf (v % groupSize grp != 0) (cVGROUP (s.pc c))
   | .store e => failIf (decide ((s.eng c (4 + e.val)).st ≠ .active)) (cSTREAM (s.pc c))
   | _ => [])

/-- What a drain takes at issue (R186, R48, R49). -/
def State.drainOf (s : State) (c : CoreId) (cfg : BitVec 8) (st : Bool) (opd gd : Word) (rm : BitVec 3)
    (fmt : BitVec 4) (n : BitVec 10) (m : BitVec 11) (slot : Nat) : Drain :=
  let x := s.core c
  let t := x.ctl
  { seq := x.tile.seq, cfg := cfg, st := st, rm := if rm = 7 then t.rm else rm, fmt := fmt, n := n.toNat,
    m := rowCount m, slot := slot, done := 0, started := false, paused := false, operand := opd,
    dest := if cfgRc cfg then recombineDest opd else (drainDest gd).getD (.vector 0),
    mode := x.tile.drainMode slot (rowCount m), fmtSat := t.fmtSat, fmtDnan := t.fmtDnan,
    row := 0, key := s.rngKey, step := s.train.step.val, tid := t.tid, rngctr := t.rngctr }

/-- R186, R48: the drain is issued and complete; it reads its slots in its own events. -/
def execQdrain (c : CoreId) (cfg : BitVec 8) (st : Bool) (gsc gd : GReg) (rm : BitVec 3) (fmt : BitVec 4)
    (n : BitVec 10) (m : BitVec 11) (slot : Fin 16) (s : State) : Host.Outcome State Fault Refusal :=
  s.issue c 8 fun t =>
    let w := t.getG c gd
    let d := t.drainOf c cfg st (t.getG c gsc) w rm fmt n m slot.val
    t.orTrap (t.qdrainCauses c d n rm w (cfgRc cfg || (drainDest w).isSome))
      (.done (t.mapCore c fun x =>
        { x with tile := { x.tile with drains := x.tile.drains ++ [d], seq := x.tile.seq + 1 }
                 ctl := { x.ctl with rngctr := x.ctl.rngctr + w64 (d.m * d.n) } }))

/-! ### The drain lanes (R221) -/

/-- Value of an accumulator word. -/
def Drain.word (d : Drain) (w : BitVec 48) : FVal :=
  if d.mode = .integer then FVal.ofInt (w.extractLsb' 0 32).toInt else accValue w

/-- The word's sum was clamped. -/
def Drain.wordSat (d : Drain) (w : BitVec 48) : Bool := d.mode == .integer && w.getLsbD 32

/-- Stages 1 to 4 of one word; `bias` is the raw FP32 bias of its column. -/
def Drain.value (d : Drain) (w : BitVec 48) (bias : Nat) : FVal × BitVec 6 :=
  let v := d.word w
  let f0 := flagIf (d.wordSat w) fSAT
  let a := if d.operand.getLsbD 32 then
      rounded true (fMul v (decodeFloat .fp32 (d.operand.extractLsb' 0 32).toNat)) else (v, 0)
  let b := if d.operand.getLsbD 33 then rounded true (fAdd a.1 (decodeFloat .fp32 bias)) else (a.1, 0)
  let r := if cfgRelu d.cfg then fMax b.1 (.zero false) else (b.1, 0)
  if cfgFunc d.cfg = 0 then (r.1, f0 ||| a.2 ||| b.2 ||| r.2)
  else
    let i := roundWork false r.1
    let y := functionStage false (cfgFunc d.cfg) i.1
    (y.1, f0 ||| a.2 ||| b.2 ||| r.2 ||| i.2 ||| y.2)

def Drain.rounding (d : Drain) : RMode := (RMode.ofField d.rm 0).getD .rne

def Drain.draws (d : Drain) : DrawCtx := ⟨d.key, d.step, d.tid, d.rngctr⟩

/-- Raw bias of column n: FP32 n of the named tile buffer. Past the buffer's end the spec gives no value: free. -/
def State.biasOf (s : State) (c : CoreId) (d : Drain) (n : Nat) : Nat :=
  let o := 64 * (d.operand.extractLsb' 36 12).toNat + 4 * n
  if o + 4 ≤ 262144 then leNat (cellsGet (s.tile c).tb (262144 * (d.operand.extractLsb' 34 2).toNat + o) 4)
  else ((Config.freeValue (s.free + n)).setWidth 32).toNat

/-- Values of row m after stage 4, and flags. -/
def State.drainRow (s : State) (c : CoreId) (d : Drain) (m : Nat) : List FVal × BitVec 6 :=
  let vs := (List.range d.n).map fun n => d.value ((s.tile c).accGet (128 * d.slot + m) n) (s.biasOf c d n)
  (vs.map fun v => v.1, vs.foldl (fun a v => a ||| v.2) 0)

/-- 16-bit draw fields of row m. -/
def Drain.fields (d : Drain) (m : Nat) : List Nat :=
  (List.range d.n).map fun n => if d.rounding = .sr then drawField (d.draws.draw (m * d.n + n)) 0 else 0

/-- Blocks of len values. -/
def chunks {α : Type} (len : Nat) : Nat → List α → List (List α)
  | 0, _ => []
  | fuel + 1, xs => if xs.isEmpty then [] else xs.take len :: chunks len fuel (xs.drop len)

/-- Stage 6 of a row: raw elements, scale bytes, flags. -/
def Drain.pack (d : Drain) (vs : List FVal) (rs : List Nat) : List Nat × List Byte × BitVec 6 :=
  if cfgBp d.cfg then
    let len := (blockLen d.format).getD 32
    let bs := ((chunks len vs.length vs).zip (chunks len vs.length rs)).map fun p =>
      packBlock d.format d.rounding d.fmtDnan false p.1 p.2
    (bs.flatMap fun b => b.2.1, bs.map fun b => b.1, bs.foldl (fun a b => a ||| b.2.2) 0)
  else
    let qs := (vs.zip rs).map fun p =>
      encodeElem d.format p.1 d.rounding ⟨d.fmtSat, d.fmtDnan⟩ false p.2
    (qs.map fun q => q.1, [], qs.foldl (fun a q => a ||| q.2) 0)

/-! ### The core reducer (R219, R220, R223) -/

/-- What a lane keeps: its count, mean and sum of squared deviations, and the sum of squares. -/
structure LaneStats where
  n : Nat
  mean : FVal
  m2 : FVal
  sq : FVal
  deriving DecidableEq, Repr

def LaneStats.none : LaneStats := ⟨0, .zero false, .zero false, .zero false⟩

/-- A value joins its lane by Welford's step, every operation rounded to the lane's format (R219; log entry 66, DESIGN CHOICE). -/
def LaneStats.step (wide : Bool) (l : LaneStats × BitVec 6) (v : FVal) : LaneStats × BitVec 6 :=
  let n := l.1.n + 1
  let d := rounded wide (fSub v l.1.mean)
  let q := rounded wide (fDiv d.1 (.ofInt n))
  let mean := rounded wide (fAdd l.1.mean q.1)
  let e := rounded wide (fSub v mean.1)
  let p := rounded wide (fMul d.1 e.1)
  let m2 := rounded wide (fAdd l.1.m2 p.1)
  let v2 := rounded wide (fMul v v)
  let sq := rounded wide (fAdd l.1.sq v2.1)
  (⟨n, mean.1, m2.1, sq.1⟩, l.2 ||| d.2 ||| q.2 ||| mean.2 ||| e.2 ||| p.2 ||| m2.2 ||| v2.2 ||| sq.2)

/-- Two lanes by the parallel merge formula, each operation rounded (R219; log entry 66, DESIGN CHOICE). -/
def LaneStats.merge (wide : Bool) (a b : LaneStats) : LaneStats × BitVec 6 :=
  let n := a.n + b.n
  let d := rounded wide (fSub b.mean a.mean)
  let p := rounded wide (fMul d.1 (.ofInt b.n))
  let q := rounded wide (fDiv p.1 (.ofInt n))
  let mean := rounded wide (fAdd a.mean q.1)
  let dd := rounded wide (fMul d.1 d.1)
  let w := rounded wide (fDiv (.ofInt (a.n * b.n)) (.ofInt n))
  let t := rounded wide (fMul dd.1 w.1)
  let m := rounded wide (fAdd a.m2 b.m2)
  let m2 := rounded wide (fAdd m.1 t.1)
  let sq := rounded wide (fAdd a.sq b.sq)
  (⟨n, mean.1, m2.1, sq.1⟩, d.2 ||| p.2 ||| q.2 ||| mean.2 ||| dd.2 ||| w.2 ||| t.2 ||| m.2 ||| m2.2 ||| sq.2)

/-- The lanes of a stream that took a value: value i goes to lane i modulo their number (log entry 66, DESIGN CHOICE). -/
def laneStats (wide : Bool) (lanes : Nat) (vs : List FVal) : List LaneStats × BitVec 6 :=
  let ls := (List.range (min lanes vs.length)).map fun i =>
    ((List.range (ceilDiv (vs.length - i) lanes)).map fun k => vs.getD (i + k * lanes) (.zero false)).foldl
      (LaneStats.step wide) (LaneStats.none, 0)
  (ls.map fun l => l.1, ls.foldl (fun a l => a ||| l.2) 0)

/-- The lanes merged in pairs, in the order they finish, which is open: `pick` says which two come next (R54, R219). -/
def mergeLanes (wide : Bool) (pick : Nat → Nat) : Nat → List LaneStats → LaneStats × BitVec 6
  | 0, ls => (ls.headD LaneStats.none, 0)
  | k + 1, ls =>
    if ls.length ≤ 1 then (ls.headD LaneStats.none, 0)
    else
      let i := pick (2 * k) % ls.length
      let rest := ls.eraseIdx i
      let j := pick (2 * k + 1) % rest.length
      let m := LaneStats.merge wide (ls.getD i LaneStats.none) (rest.getD j LaneStats.none)
      let r := mergeLanes wide pick k (m.1 :: rest.eraseIdx j)
      (r.1, m.2 ||| r.2)

/-- What the core reducer computes with: FP64 or FP32, and its number of lanes. -/
structure Reducer where
  wide : Bool
  lanes : Nat
  deriving DecidableEq, Repr

/-- A drain's lanes take 256 words in a cycle and keep FP64 (R207, R219). -/
def Reducer.drain : Reducer := ⟨true, 256⟩

/-- The working lanes of a source element type: a beat of 512 bytes over the lane width (R123, R196, R219). -/
def Reducer.working (f : Fmt) : Reducer := ⟨f.workWide, 512 / f.workLanes⟩

/-- Mean, variance and sum of squares as raw bits of a format, with flags. A NaN or an infinity among the values makes all three
NaN (R33, R219, R220). They are converted to nearest even (the model's choice, log entry 66). -/
def State.statistics (s : State) (r : Reducer) (ctl : FmtCtl) (f : Fmt) (vs : List FVal) : List Nat × BitVec 6 × State :=
  if vs.any fun v => !v.finite then
    let x := (encodeFloat f ((vs.find? FVal.isNan).getD FVal.default) .rne ctl 0).1
    ([x, x, x], fNV, s)
  else
    let ls := laneStats r.wide r.lanes vs
    let m := mergeLanes r.wide (fun k => (Config.freeValue (s.free + k)).toNat) ls.1.length ls.1
    let var := rounded r.wide (fDiv m.1.m2 (.ofInt m.1.n))
    let out := [m.1.mean, var.1, m.1.sq].map fun v => encodeFloat f v .rne ctl 0
    (out.map fun o => o.1, out.foldl (fun a o => a ||| o.2) (ls.2 ||| m.2 ||| var.2),
     { s with free := s.free + 2 * ls.1.length })

/-! ### Delivery -/

/-- Bytes written to the tile-buffer space. -/
def State.writeTb (s : State) (c : CoreId) (a : Nat) (bs : List Byte) : State :=
  s.mapTile c fun t => { t with tb := cellsSet t.tb a bs }

/-- Output row m with its scale bytes goes to its destination (R187, R223, R241). -/
def State.deliverRow (s : State) (c : CoreId) (d : Drain) (m : Nat) (bytes scales : List Byte) : State :=
  let aux := fun t : State => if scales.isEmpty then t else t.writeTb c (d.aux + m * d.scaleBytes) scales
  match d.dest with
  | .vector v =>
    let x := s.vec c
    aux (s.setVec c { x with v := cellsSet x.v (2048 * v + m * d.rowBytes) bytes })
  | .tileBuffer b => aux (s.writeTb c (b + m * d.rowBytes) bytes)
  | .store e => s.storeAccept c (4 + e.val) bytes scales
  | .dropped e =>
    s.setEng c (4 + e.val) ((s.eng c (4 + e.val)).count fun k =>
      { k with discarded := k.discarded + w64 (bytes.length + scales.length) })
  | .recombine _ _ _ _ => s

/-- The statistics record of row m (R223). -/
def State.deliverStats (s : State) (c : CoreId) (d : Drain) (m : Nat) (vs : List FVal) : State :=
  if d.st then
    match s.statistics Reducer.drain ⟨d.fmtSat, d.fmtDnan⟩ .fp32 vs with
    | (raws, fl, s1) =>
      (s1.raiseFlags c fl).writeTb c (d.aux + 16 * m) (raws.flatMap (leBytes 4) ++ leBytes 4 vs.length)
  else s

/-- One output row of a drain with rc = 0. -/
def State.outputRow (s : State) (c : CoreId) (d : Drain) (m : Nat) : State :=
  let v := s.drainRow c d m
  let p := d.pack v.1 (d.fields m)
  let s0 := { s with free := s.free + d.n }
  ((s0.raiseFlags c (v.2 ||| p.2.2)).deliverRow c d m (packBits d.format.bits p.1) p.2.1).deliverStats c d m v.1

/-! ### Recombination (R224) -/

def dwAdd (a b : FVal) : FVal × BitVec 6 := rounded true (fAdd a b)
def dwSub (a b : FVal) : FVal := (rounded true (fSub a b)).1

/-- The pair after t is added: hi, lo and flags. Only the rounding of lo loses bits of the sum. -/
def dwAccumulate (hi lo t : FVal) : FVal × FVal × BitVec 6 :=
  let s := dwAdd hi t
  let e := (dwAdd (dwSub hi (dwSub s.1 (dwSub s.1 hi))) (dwSub t (dwSub s.1 hi))).1
  let l := dwAdd lo e
  let h := dwAdd s.1 l.1
  (h.1, dwSub l.1 (dwSub h.1 s.1), ((s.2 ||| h.2) &&& ~~~fNX) ||| l.2)

/-- Raw FP64 bits; a NaN follows fmtctl.dnan (R33). -/
def fp64Raw (dnan : Bool) (v : FVal) : Nat := (encodeFloat .fp64 v .rne ⟨false, dnan⟩ 0).1

/-- One word into its pair of raw FP64 values. -/
def Drain.recombine (d : Drain) (wexp : Int) (init : Bool) (w : BitVec 48) (hi lo : Nat) :
    Nat × Nat × BitVec 6 :=
  let t := roundWork true ((d.word w).scaled wexp)
  let r := if init then (t.1, .zero false, t.2)
    else
      let y := dwAccumulate (decodeFloat .fp64 hi) (decodeFloat .fp64 lo) t.1
      (y.1, y.2.1, y.2.2 ||| t.2)
  if d.wordSat w then (canonicalNan .fp64, fp64Raw d.fmtDnan r.2.1, r.2.2 ||| fSAT)
  else (fp64Raw d.fmtDnan r.1, fp64Raw d.fmtDnan r.2.1, r.2.2)

/-- Bytes of the area a drain recombines into. -/
def State.areaBytes (s : State) (c : CoreId) (area : Bool) (a n : Nat) : List Byte :=
  cellsGet (if area then (s.tile c).buf else (s.tile c).tb) a n

def State.writeArea (s : State) (c : CoreId) (area : Bool) (a : Nat) (bs : List Byte) : State :=
  if area then s.mapTile c fun t => { t with buf := cellsSet t.buf a bs } else s.writeTb c a bs

/-- Row m recombined. -/
def State.recombineRow (s : State) (c : CoreId) (d : Drain) (wexp : Int) (init area : Bool) (unit m : Nat) :
    State :=
  let base := 64 * unit + 8192 * m
  let old := s.areaBytes c area base (16 * d.n)
  let rs := (List.range d.n).map fun n =>
    d.recombine wexp init ((s.tile c).accGet (128 * d.slot + m) n) (fieldNat old (16 * n) 8)
      (fieldNat old (16 * n + 8) 8)
  (s.raiseFlags c (rs.foldl (fun a r => a ||| r.2.2) 0)).writeArea c area base
    (rs.flatMap fun r => leBytes 8 r.1 ++ leBytes 8 r.2.1)

/-! ### Events of a drain (R27, R148, R186) -/

/-- Rows of the slot a drain reads now. -/
def Drain.slotRows (d : Drain) : List Nat := (List.range 128).filterMap fun i =>
  if 128 * d.done + i < d.m then some (128 * d.done + i) else none

/-- One row of a drain. -/
def State.drainOne (s : State) (c : CoreId) (d : Drain) (m : Nat) : State :=
  match d.dest with
  | .recombine wexp init area unit => s.recombineRow c d wexp.toInt init area unit m
  | _ => s.outputRow c d m

/-- The oldest drain, where it is at the slot. -/
def Tiles.drainAt (t : Tiles) (slot : Nat) : Option Drain :=
  match t.drains with
  | [] => none
  | d :: _ => if d.slot + d.done = slot then some d else none

/-- The oldest drain replaced. -/
def State.setDrain (s : State) (c : CoreId) (d : Drain) : State :=
  s.mapTile c fun t => { t with drains := d :: t.drains.drop 1 }

/-- A row of an earlier qmma is still to be written to the slot (R27). -/
def Tiles.slotUnwritten (t : Tiles) (slot seq : Nat) : Bool :=
  let waits := fun r : ArrayRow => decide (r.op.seq < seq) && r.op.slotOf r.m == slot
  t.rows.any waits || (match t.retry with | none => false | some y => y.rows.any waits)

/-- R27. -/
def execDrainSlotReadStart (c : CoreId) (slot : Fin 16) (s : State) : Host.Outcome State Fault Refusal :=
  match (s.tile c).drainAt slot.val with
  | none => .next s
  | some d =>
    if s.coreRuns c && !d.started && !(s.tile c).slotUnwritten slot.val d.seq then
      .next (s.setDrain c { d with started := true })
    else .next s

/-- R148: the drain's output is full. -/
def execDrainPause (c : CoreId) (slot : Fin 16) (s : State) : Host.Outcome State Fault Refusal :=
  match (s.tile c).drainAt slot.val with
  | none => .next s
  | some d =>
    if s.coreRuns c && d.started && !d.paused then .next (s.setDrain c { d with paused := true })
    else .next s

/-- R148. -/
def execDrainResume (c : CoreId) (slot : Fin 16) (s : State) : Host.Outcome State Fault Refusal :=
  match (s.tile c).drainAt slot.val with
  | none => .next s
  | some d =>
    if s.coreRuns c && d.paused then .next (s.setDrain c { d with paused := false }) else .next s

/-- The drain's destination takes no more bytes: a store engine whose window is full (R148, R244). -/
def State.drainFull (s : State) (c : CoreId) (d : Drain) : Bool :=
  match d.dest with
  | .store e => s.storeFull c (4 + e.val)
  | _ => false

/-- Rows of the slot, from the drain's next one on, up to a full output: the rows delivered and the state. -/
def State.drainRows (s : State) (c : CoreId) (d : Drain) : List Nat → Nat × State
  | [] => (0, s)
  | m :: ms =>
    if s.drainFull c d then (0, s)
    else
      match (s.drainOne c d m).drainRows c d ms with
      | (n, t) => (n + 1, t)

/-- R186, R221: the slot's rows reach their destination, where a full output holds the drain at a row; after the last slot the
drain is over. -/
def execDrainSlotReadEnd (c : CoreId) (slot : Fin 16) (s : State) : Host.Outcome State Fault Refusal :=
  match (s.tile c).drainAt slot.val with
  | none => .next s
  | some d =>
    if s.coreRuns c && d.started && !d.paused then
      let rest := d.slotRows.drop d.row
      let (n, s1) := s.drainRows c d rest
      let d1 := { d with done := d.done + 1, started := false, row := 0 }
      if n < rest.length then .next (s1.setDrain c { d with row := d.row + n })
      else if d1.done < ceilDiv d.m 128 then .next (s1.setDrain c d1)
      else .next (s1.mapTile c fun t => { t with drains := t.drains.drop 1 })
    else .next s

end Sys2Proof.Machine
end

