-- ==== Sys2Proof/Machine/Tensor.lean ====
section
/-!
DEFINITION. Tensor descriptors and their operands (R211 to R214), issue checks (R215), progress and
resumption (R216 to R218) shared by the tensor and fixed forms.
-/
namespace Sys2Proof.Machine

/-! ### Descriptors (R212) -/

/-- An operand entry. -/
structure TEntry where
  kind : Nat
  typ : BitVec 4
  bs : Bool
  engine : Nat
  base : Int
  strides : List Int
  ps : Int
  reserved : Bool
  deriving DecidableEq, Repr

/-- A tensor descriptor. -/
structure TDesc where
  e : List Nat
  tid : BitVec 32
  ibase : Word
  rdims : Nat
  bsz : Nat
  smode : Nat
  scale : Nat
  /-- Bytes 40 to 63. -/
  tail : List Byte
  reserved : Bool
  ents : List TEntry
  deriving DecidableEq, Repr

/-- An entry of the descriptor (R212). ps is signed like the strides (the model's reading, log entry 153). -/
def parseEntry (bs : List Byte) (o : Nat) : TEntry :=
  let b0 := fieldNat bs o 1
  let w := fieldNat bs (o + 1) 3
  { kind := b0 % 16, typ := BitVec.ofNat 4 (b0 / 16), bs := w % 2 == 1, engine := w / 2 % 4,
    base := fieldNat bs (o + 4) 4, strides := (List.range 5).map fun j => fieldInt bs (o + 8 + 4 * j) 4,
    ps := fieldInt bs (o + 28) 4, reserved := w / 8 != 0 }

def parseTensor (bs : List Byte) : TDesc :=
  { e := (List.range 5).map fun j => fieldNat bs (4 * j) 4, tid := w32 (fieldNat bs 20 4),
    ibase := w64 (fieldNat bs 24 8), rdims := fieldNat bs 32 1, bsz := fieldNat bs 33 1,
    smode := fieldNat bs 34 1, scale := fieldNat bs 36 4, tail := sliceBytes bs 40 24,
    reserved := fieldNat bs 35 1 != 0, ents := (List.range 8).map fun i => parseEntry bs (64 + 32 * i) }

def TEntry.unused : TEntry := ⟨0, 0, false, 0, 0, [], 0, false⟩

def TDesc.ent (d : TDesc) (i : Nat) : TEntry := d.ents.getD i TEntry.unused

def TDesc.extent (d : TDesc) (j : Nat) : Nat := d.e.getD j 1

/-- Elements of the tensor. -/
def TDesc.count (d : TDesc) : Nat := d.e.foldl (· * ·) 1

/-- Elements of a unit of work: a run along dimension 0, or a reduction group (R216). -/
def TDesc.unitLen (d : TDesc) : Nat := (d.e.take (max d.rdims 1)).foldl (· * ·) 1

/-- Indices of the element at position p (R213). -/
def TDesc.indices (d : TDesc) (p : Nat) : List Nat :=
  [p % d.extent 0, p / d.extent 0 % d.extent 1, p / d.extent 0 / d.extent 1 % d.extent 2,
   p / d.extent 0 / d.extent 1 / d.extent 2 % d.extent 3,
   p / d.extent 0 / d.extent 1 / d.extent 2 / d.extent 3]

/-! ### Operands (R213, R214) -/

/-- A slot in the role its form gives it: an item is an element of `bits` bits; one for each `blk` elements
along dimension 0; one per reduction group where `group`. -/
structure TSlot where
  ent : TEntry
  bits : Nat
  blk : Nat
  group : Bool
  deriving DecidableEq, Repr

/-- Strides and extents of the dimensions an operand walks. -/
def TSlot.dims (t : TSlot) (d : TDesc) : List (Nat × Int) :=
  (List.range 5).map fun j =>
    let n := if j = 0 then ceilDiv (d.extent 0) t.blk else d.extent j
    let s := t.ent.strides.getD j 0
    if t.group ∧ j < d.rdims then (1, 0) else (n, s)

/-- Byte address and bit offset of the item that goes with position p. -/
def TSlot.place (t : TSlot) (d : TDesc) (p : Nat) : Int × Nat :=
  let is := d.indices p
  let idx := fun j : Nat => if t.group ∧ j < d.rdims then 0 else
    if j = 0 then is.getD 0 0 / t.blk else is.getD j 0
  let rest := ((List.range 4).map fun j => (idx (j + 1) : Int) * t.ent.strides.getD (j + 1) 0).sum
  if t.bits < 8 then (t.ent.base + rest + (idx 0 * t.bits / 8 : Nat), idx 0 * t.bits % 8)
  else (t.ent.base + rest + (idx 0 : Int) * t.ent.strides.getD 0 0, 0)

/-- Positions of the items of the n elements from p0 on. -/
def TSlot.items (t : TSlot) (d : TDesc) (p0 n : Nat) : List Nat :=
  if t.group then [p0]
  else ((List.range n).map fun i => p0 + i).filter fun p => p == p0 || p % d.extent 0 % t.blk == 0

/-- Positions of the items of the whole tensor: for a per-group operand one in every group. -/
def TSlot.allItems (t : TSlot) (d : TDesc) : List Nat :=
  if t.group then (List.range (d.count / d.unitLen)).map fun g => g * d.unitLen else t.items d 0 d.count

/-- Lowest and one past the highest byte of an operand of kinds 1 to 3. -/
def TSlot.hull (t : TSlot) (d : TDesc) : Int × Int :=
  let ds := t.dims d
  if t.bits < 8 then
    patternHull t.ent.base (ceilDiv (((ds.getD 0 (1, 0)).1) * t.bits) 8) (ds.drop 1)
  else patternHull t.ent.base (t.bits / 8) ds

/-- Byte range of the item at position p. -/
def TSlot.range (t : TSlot) (d : TDesc) (p : Nat) : Int × Int :=
  let a := t.place d p
  (a.1, a.1 + (ceilDiv (a.2 + t.bits) 8 : Nat))

def rangesMeet (a b : Int × Int) : Bool := decide (a.1 < b.2 ∧ b.1 < a.2)

/-- Two operands of one space share a byte. -/
def TSlot.overlaps (t u : TSlot) (d : TDesc) : Bool :=
  t.ent.kind == u.ent.kind && rangesMeet (t.hull d) (u.hull d) &&
  (t.allItems d).any fun p => (u.allItems d).any fun q => rangesMeet (t.range d p) (u.range d q)

/-- Same kind, base and strides. -/
def TSlot.same (t u : TSlot) : Bool :=
  t.ent.kind == u.ent.kind && t.ent.base == u.ent.base && t.ent.strides == u.ent.strides

/-- The operand shifted by n planes. -/
def TSlot.plane (t : TSlot) (n : Nat) : TSlot := { t with ent := { t.ent with base := t.ent.base + n * t.ent.ps } }

/-- Bytes of the space of kind 2 or 3; kind 1 ends with the tile area. -/
def spaceLimit (kind : Nat) : Nat := if kind = 2 then 1048576 else 65536

/-- A footprint outside the tile-buffer space or the vector registers. -/
def TSlot.outOfSpace (t : TSlot) (d : TDesc) : Bool :=
  (t.ent.kind == 2 || t.ent.kind == 3) &&
  decide ((t.hull d).1 < 0 ∨ (spaceLimit t.ent.kind : Int) < (t.hull d).2)

/-- STREAM_STATE for the slot: a footprint outside the tile area, or no active stream of its direction. -/
def CoreState.badSlot (x : CoreState) (d : TDesc) (t : TSlot) : Bool :=
  match t.ent.kind with
  | 1 => decide ((t.hull d).1 < 0 ∨ ((64 * x.streamArea : Nat) : Int) < (t.hull d).2)
  | 4 => decide ((vget x.str.eng t.ent.engine Engine.idle).st ≠ .active)
  | 5 => decide (2 ≤ t.ent.engine) || decide ((vget x.str.eng (4 + t.ent.engine) Engine.idle).st ≠ .active)
  | _ => false

/-- Elements of a packing group (R30). -/
def packGroupOf (f : Fmt) : Nat :=
  match f with
  | .e2m1 | .int4 => 2
  | .e3m2 | .e2m3 => 4
  | _ => 1

/-! ### Reading and writing -/

def State.spaceGet (s : State) (c : CoreId) (kind a n : Nat) : List Byte :=
  match kind with
  | 1 => cellsGet (s.tile c).buf a n
  | 2 => cellsGet (s.tile c).tb a n
  | _ => cellsGet (s.vec c).v a n

def State.spaceSet (s : State) (c : CoreId) (kind a : Nat) (bs : List Byte) : State :=
  match kind with
  | 1 => s.mapTile c fun t => { t with buf := cellsSet t.buf a bs }
  | 2 => s.writeTb c a bs
  | _ =>
    let x := s.vec c
    s.setVec c { x with v := cellsSet x.v a bs }

/-- What a consumer finds in a stream. -/
inductive Fetched (α : Type) where
  | got (v : α)
  | wait (e : Nat)
  | token (e : Nat) (r : StreamRec) (t : Token)

/-- n bytes taken from a load stream, in order of position, released and counted as consumed: the unit that takes them writes its
outputs in the same step (R242, R243). -/
def Engine.pull (e : Nat) : Nat → Engine → Nat → List Byte → Fetched (List Byte × Engine)
  | 0, _, _, _ => .wait e
  | fuel + 1, x, n, acc =>
    if n = 0 then .got (acc, x)
    else
      match x.front with
      | none => .wait e
      | some r =>
        match r.token with
        | some t => .token e r t
        | none =>
          if !r.whole then .wait e
          else
            let off := x.pos - r.idx * x.desc.rlen
            let m := min n (x.desc.rlen - off)
            let whole := decide (x.desc.rlen ≤ off + m)
            let r1 := { r with rel := off + m, taken := if whole then some 0 else none, released := whole }
            let x1 := ({ x.putRec r1 with pos := x.pos + m } : Engine).count fun k =>
              { k with consumed := k.consumed + w64 (m + (if whole then r.scale.length else 0)) }
            Engine.pull e fuel x1 (n - m) (acc ++ (r.data.drop off).take m)

/-- Raw items of a slot for the n elements from p0 on. -/
def State.readItems (s : State) (c : CoreId) (d : TDesc) (t : TSlot) (p0 n : Nat) : Fetched (List Nat × State) :=
  let ps := t.items d p0 n
  if t.ent.kind = 4 then
    let e := t.ent.engine
    let x := s.eng c e
    let len := ceilDiv (ps.length * t.bits) 8
    match Engine.pull e (x.recs.length + 1) x len [] with
    | .wait e => .wait e
    | .token e r k => .token e r k
    | .got (bs, x1) =>
      .got ((List.range ps.length).map fun i => packedElem bs t.bits i, s.setEng c e x1)
  else
    .got (ps.map fun p =>
      let a := t.place d p
      leNat (s.spaceGet c t.ent.kind a.1.toNat (ceilDiv (a.2 + t.bits) 8)) / 2 ^ a.2 % 2 ^ t.bits, s)

/-- One item written in place. -/
def State.writeItem (s : State) (c : CoreId) (d : TDesc) (t : TSlot) (p raw : Nat) : State :=
  let a := t.place d p
  let n := ceilDiv (a.2 + t.bits) 8
  let old := leNat (s.spaceGet c t.ent.kind a.1.toNat n)
  let new := old - old / 2 ^ a.2 % 2 ^ t.bits * 2 ^ a.2 + raw % 2 ^ t.bits * 2 ^ a.2
  s.spaceSet c t.ent.kind a.1.toNat (leBytes n new)

/-- Raw items written to a slot for the n elements from p0 on; nothing for an unused slot. -/
def State.writeItems (s : State) (c : CoreId) (d : TDesc) (t : TSlot) (p0 n : Nat) (raws : List Nat) : State :=
  match t.ent.kind with
  | 0 => s
  | 5 => s.storeAccept c (4 + t.ent.engine) (packBits t.bits raws) []
  | _ => ((t.items d p0 n).zip raws).foldl (fun u e => u.writeItem c d t e.1 e.2) s

/-! ### Checks every form makes (R215) -/

/-- Slots of a form: number, role, input, output, and whether the slot may stay unused. -/
structure TUse where
  slot : Nat
  role : TSlot
  input : Bool
  optional : Bool
  /-- Placed by address only: streams do not fit. -/
  placed : Bool
  planes : Nat
  deriving DecidableEq, Repr

/-- The kind is one the slot allows. -/
def TUse.kindOk (u : TUse) : Bool :=
  match u.role.ent.kind with
  | 0 => u.optional
  | 1 | 2 | 3 => true
  | 4 => u.input && !u.placed
  | 5 => !u.input && !u.placed
  | _ => false

/-- The slot as the roles it occupies in its space: one per plane. -/
def TUse.roles (u : TUse) : List TSlot := (List.range u.planes).map fun n => u.role.plane n

/-- An output overlaps an input that does not lie in the same way (R214). -/
def badOverlap (d : TDesc) (us : List TUse) : Bool :=
  us.any fun o => !o.input && 1 ≤ o.role.ent.kind && o.role.ent.kind ≤ 3 &&
    us.any fun i => i.input && !(o.role.same i.role && (o.planes == 1 || o.role.ent.ps == i.role.ent.ps)) &&
      o.roles.any fun a => i.roles.any fun b => a.overlaps b d

/-- R215 step 3 for any form: `tailUsed` where bytes 40 to 63 hold data, `rdimsOk` where rdims fits. -/
def TDesc.bad (d : TDesc) (us : List TUse) (tailUsed rdimsOk : Bool) (mult : List Nat) : Bool :=
  d.reserved || (!tailUsed && d.tail.any fun b => b != 0) || d.ents.any (fun e => e.reserved || 5 < e.kind) ||
  d.smode > 3 || d.rdims > 5 || (2 ≤ d.smode && (d.bsz < 4 || 12 < d.bsz)) ||
  d.e.any (fun n => n == 0) || decide (2 ^ 20 < d.extent 0) ||
  (1 ≤ d.rdims && decide (2 ^ 20 < d.unitLen)) ||
  us.any (fun u => !u.kindOk) ||
  (List.range 8).any (fun i => (d.ent i).kind != 0 && us.all fun u => u.slot != i) ||
  mult.any (fun m => d.extent 0 % m != 0) ||
  us.any (fun u => u.roles.any fun t => t.outOfSpace d) || badOverlap d us || !rdimsOk

/-- A drain in progress works in a space the form uses: the form waits (R210). -/
def Tiles.spaceBusy (t : Tiles) (us : List TUse) : Bool :=
  let uses := fun k : Nat => us.any fun u => u.role.ent.kind == k
  t.drains.any fun d =>
    match d.dest with
    | .vector _ => uses 3 || (uses 2 && (d.auxBytes != 0 || d.operand.getLsbD 33))
    | .tileBuffer _ => uses 2
    | .recombine _ _ area _ => if area then uses 1 else uses 2
    | _ => uses 2 && (d.auxBytes != 0 || d.operand.getLsbD 33)

/-! ### Units of work (R216, R217) -/

/-- What running one unit gives. -/
inductive UnitResult where
  | next (s : State)
  | wait (e : Nat)
  | token (e : Nat) (r : StreamRec) (t : Token)

/-- A store engine that takes the form's output has bytes waiting: the form stalls (R13, R244). -/
def State.outputsFull (s : State) (c : CoreId) (us : List TUse) : Bool :=
  us.any fun u => u.role.ent.kind == 5 && s.storeFull c (4 + u.role.ent.engine)

/-- The form in progress waits for a load engine, or for none. -/
def State.setFormWait (s : State) (c : CoreId) (e : Option (Fin 4)) : State :=
  let pc := s.pc c
  s.mapCore c fun x => { x with forms := x.forms.map fun l => if l.pc = pc ∧ l.asleep = false then { l with waits := e } else l }

/-- Units from gp on. The last input consumed is the boundary, whatever of the outputs still waits for a store window (R218). `run` computes one unit from its first position and element count. -/
def State.units (s : State) (c : CoreId) (d : TDesc) (us : List TUse) (gp : GReg) (run : State → Nat → Nat → UnitResult) :
    Nat → Option Nat → Nat → Effect
  | 0, _, p => .done (s.setG c gp (w64 (max p d.count)))
  | left + 1, pause, p =>
    if d.count ≤ p then .done (s.setG c gp (w64 d.count))
    else if s.outputsFull c us then .stay s
    else if pause = some 0 then .stay s
    else
      let n := (p / d.unitLen + 1) * d.unitLen - p
      match run s p n with
      | .wait e => .stay (s.setFormWait c (some (Fin.ofNat 4 e)))
      | .token e r t => .trap (s.setEng c e ((s.eng c e).raiseToken r t)) (t.cause e)
      | .next s1 =>
        ((s1.setG c gp (w64 (p + n))).progress c).units c d us gp run left (pause.map fun k => k - 1) (p + n)

/-- The descriptor and the checks of R215 in order, then the units. `form` gives the slots and the checks of steps 3
and 4 for a descriptor, `run` a unit. -/
structure TForm where
  /-- Step 1. -/
  illegal : Bool
  slots : TDesc → List TUse
  tailUsed : Bool
  rdimsOk : TDesc → Bool
  mult : TDesc → List Nat
  vformat : TDesc → Bool
  run : TDesc → State → Nat → Nat → UnitResult

/-- R215 to R218: one tensor or fixed form. One that is in progress goes on under what it took at issue, its descriptor included
(R49, R83, R212); the streams are looked at when it issues, not while it waits between its units. -/
def State.tensorForm (s : State) (c : CoreId) (f : TdFields) (pause : Option Nat) (form : State → FormLatch → TForm) :
    Host.Outcome State Fault Refusal :=
  s.issue c 8 fun t =>
    let k := t.getK c f.kd
    let l0 := (t.formLatch c).getD (t.newLatch c [])
    if (form t l0).illegal || f.gp == 0 || (RMode.ofField f.rm l0.rm).isNone then .trap t (cILLEGAL (t.pc c))
    else
      let read := match t.formLatch c with
        | some l => (t, Sum.inr l.desc)
        | none => t.checkedReadMany c k (kNum f.kd) [permLoad] k.cursor 320 64
      match read with
      | (t1, .inl e) => .trap t1 e
      | (t1, .inr bs) =>
        let l := { l0 with desc := bs, waits := none, again := false }
        let h := form t1 l
        let d := parseTensor bs
        let us := h.slots d
        if d.bad us h.tailUsed (h.rdimsOk d) (h.mult d) then .trap t1 (cDESCRIPTOR k.cursor)
        else if h.vformat d then .trap t1 (cVFORMAT (t1.pc c))
        else if ((t.formLatch c).isNone || l0.again) && us.any fun u => u.roles.any fun r => (t1.core c).badSlot d r then .trap t1 (cSTREAM (t1.pc c))
        else
          let t2 := t1.putLatch c l
          if (t2.tile c).spaceBusy us then .stay t2
          else
            let p := (t2.getG c f.gp).toNat
            (t2.units c d us f.gp (h.run d) ((d.count - p) / d.unitLen + 2) (t2.pauseAt c pause) p).unlatch c (t2.pc c)

end Sys2Proof.Machine
end

