-- ==== Sys2Proof/Machine/TensorForms.lean ====
section
/-!
DEFINITION. The tensor form tc (R211 to R214) and the fixed forms stats (R220), optim (R227), slice (R225)
and dwround (R226).
-/
namespace Sys2Proof.Machine

/-- What a unit does with items once they are there. -/
def Fetched.andThen (x : Fetched (List Nat × State)) (k : List Nat → State → UnitResult) : UnitResult :=
  match x with
  | .got v => k v.1 v.2
  | .wait e => .wait e
  | .token e r t => .token e r t

/-- Items of a slot, or none of them where the form does not use it. -/
def State.readIf (s : State) (c : CoreId) (d : TDesc) (t : Option TSlot) (p n : Nat) (k : List Nat → State → UnitResult) :
    UnitResult :=
  match t with
  | none => k [] s
  | some t => (s.readItems c d t p n).andThen k

def TEntry.fmt (x : TEntry) : Fmt := (Fmt.ofCode x.typ).getD .fp32

def TEntry.known (x : TEntry) : Bool := (Fmt.ofCode x.typ).isSome

/-- Elements of a block of a block-scaled entry. -/
def TEntry.block (x : TEntry) : Nat := (blockLen x.fmt).getD 32

/-- Block-scaled type that does not exist. -/
def TEntry.badBlock (x : TEntry) : Bool := x.bs && (blockLen x.fmt).isNone

/-- An element role. -/
def elemSlot (x : TEntry) : TSlot := ⟨x, x.fmt.bits, 1, false⟩

def useOf (slot : Nat) (role : TSlot) (input optional : Bool) : TUse := ⟨slot, role, input, optional, false, 1⟩

/-- Multiples the dimension-0 extent needs for an element operand. -/
def TEntry.mult (x : TEntry) : List Nat := if x.bs then [x.block, packGroupOf x.fmt] else [packGroupOf x.fmt]

/-! ### tc -/

def tdSkind (f : TdFields) : BitVec 2 := f.cfg.extractLsb' 0 2
def tdSrcp (f : TdFields) : Bool := f.cfg.getLsbD 2

/-- Type whose working format the form takes: MXINT8 elements are float (R38, R196). -/
def TEntry.workSource (x : TEntry) : Fmt := if x.bs && x.fmt == .int8 then .bf16 else x.fmt

/-- Slots of tc (R214). An output nobody needs beside a reduction may stay unused. -/
def tcSlots (op : BitVec 5) (red : BitVec 2) (d : TDesc) : List TUse :=
  let a := d.ent 0
  let b := d.ent 1
  let o := d.ent 2
  [useOf 0 (elemSlot a) true (!opReadsA op), useOf 2 (elemSlot o) false (red != 0)] ++
  (if opUsesB op then [useOf 1 (elemSlot b) true false] else []) ++
  (if red != 0 then [useOf 3 ⟨d.ent 3, (d.ent 3).fmt.bits, 1, true⟩ false false]
   else if o.bs then [useOf 3 ⟨d.ent 3, 8, o.block, false⟩ false false] else []) ++
  (if 2 ≤ red.toNat then [useOf 4 ⟨d.ent 4, 64, 1, true⟩ false true] else []) ++
  (if opReadsA op && a.bs then [useOf 5 ⟨d.ent 5, 8, a.block, false⟩ true false] else []) ++
  (if opUsesB op && b.bs then [useOf 6 ⟨d.ent 6, 8, b.block, false⟩ true false] else []) ++
  (if d.smode = 2 then [useOf 7 ⟨d.ent 7, 8, 2 ^ d.bsz, false⟩ true false]
   else if d.smode = 3 then [useOf 7 ⟨d.ent 7, 32, 2 ^ d.bsz, false⟩ true false] else [])

/-- R215 step 4 for tc; which types of b go with a's is the model's reading (log entry 152). -/
def tcFormat (op : BitVec 5) (func : BitVec 3) (red : BitVec 2) (skind : BitVec 2) (d : TDesc) : Bool :=
  let a := d.ent 0
  let b := d.ent 1
  let o := d.ent 2
  let sf := a.workSource
  !a.known || !o.known || a.badBlock || o.badBlock || chainFormat op func skind sf o.fmt ||
  (opUsesB op && (!b.known || b.badBlock || b.workSource.isInt != sf.isInt || b.workSource.workWide != sf.workWide)) ||
  (red != 0 && !(d.ent 3).known) || (2 ≤ red.toNat && (d.ent 4).kind != 0 && (d.ent 4).typ != 14) ||
  (sf.isInt && (d.smode == 1 || d.smode == 3)) || (op == opRandb && o.bs)

/-- Stage 1: a raw element under its block scale (R38, R195). -/
def tcUnpack (x : TEntry) (scale : Option Nat) (raw : Nat) : Work × BitVec 6 :=
  match scale with
  | none => (unpackElem x.fmt raw, 0)
  | some e =>
    if e = 255 then (.f FVal.default, fNV)
    else
      let v := if x.fmt = .int8 then (decodeElem .int8 raw).scaled (-6) else decodeElem x.fmt raw
      let r := roundWork x.fmt.workWide (v.scaled ((e : Int) - 127))
      (.f r.1, r.2)

/-- Stage 2 under the descriptor's scale (R195, R212). A NaN scale makes every value NaN, one that is NaN already by R33. -/
def tcScale (k : Chain) (smode raw : Nat) (v : Work) : Work × BitVec 6 :=
  match smode with
  | 2 =>
    if raw = 255 then
      let r := rounded k.wide (fMul v.float FVal.default)
      (.f r.1, r.2 ||| fNV)
    else scaleStage k ((raw : Int) - 127) v
  | 0 => (v, 0)
  | _ =>
    let r := rounded k.wide (fMul v.float (decodeFloat .fp32 raw))
    (.f r.1, r.2)

/-- Item of the block that holds position p: the items of a unit that begins at p0. -/
def blockItem (d : TDesc) (blk p0 : Nat) (items : List Nat) (p : Nat) : Nat :=
  let at_ := fun q : Nat => q / d.extent 0 * ceilDiv (d.extent 0) blk + q % d.extent 0 / blk
  items.getD (at_ p - at_ p0) 0

/-- One element of a tc unit: the value stage 5 sees, its raw bits, the flags up to stage 4 and of stage 6. -/
structure TcElem where
  value : Work
  raw : Nat
  early : BitVec 6
  late : BitVec 6
  deriving DecidableEq, Repr

/-- Stages 3 to 6 of one tc element. -/
def tcElem (k : Chain) (a b : Work) (draw : BitVec 128) (fl : BitVec 6) : TcElem :=
  if k.op = opRandb then
    let r := chainElem k a b draw
    ⟨r.1, r.2.1, fl, 0⟩
  else
    let x := arithStage k a b draw
    let y := funcStage k x.1
    let z := packStage k y.1 (drawField draw 0)
    ⟨y.1, z.1, fl ||| x.2 ||| y.2, z.2⟩

/-- The items of one tc unit. -/
structure TcItems where
  a : List Nat
  b : List Nat
  sa : List Nat
  sb : List Nat
  sc : List Nat
  deriving DecidableEq, Repr

/-- Element i of a unit that begins at p0. -/
def tcElemAt (k : Chain) (d : TDesc) (x : DrawCtx) (it : TcItems) (p0 i : Nat) : TcElem :=
  let a := d.ent 0
  let b := d.ent 1
  let p := p0 + i
  let zero : Work := if k.isInt then .i 0 else .f (.zero false)
  let ua := if opReadsA k.op then
      tcUnpack a (if a.bs then some (blockItem d a.block p0 it.sa p) else none) (it.a.getD i 0) else (zero, 0)
  let ub := if opUsesB k.op then
      tcUnpack b (if b.bs then some (blockItem d b.block p0 it.sb p) else none) (it.b.getD i 0) else (zero, 0)
  let v := tcScale k d.smode (if 2 ≤ d.smode then blockItem d (2 ^ d.bsz) p0 it.sc p else d.scale) ua.1
  tcElem k v.1 ub.1 (x.draw p) (ua.2 ||| ub.2 ||| v.2)

/-- Outputs of the elements: raw items, scale items, flags (R205, R40). -/
def tcPack (k : Chain) (d : TDesc) (x : DrawCtx) (es : List TcElem) (p0 : Nat) : List Nat × List Nat × BitVec 6 :=
  let o := d.ent 2
  let early := es.foldl (fun f e => f ||| e.early) 0
  if o.bs then
    let rs := (List.range es.length).map fun i => if k.rm = .sr then drawField (x.draw (p0 + i)) 0 else 0
    let vs := es.map fun e => e.value.float
    let bs := ((chunks o.block vs.length vs).zip (chunks o.block vs.length rs)).map fun q =>
      packBlock o.fmt k.rm k.ctl.dnan k.isInt q.1 q.2
    (bs.flatMap fun b => b.2.1, bs.map fun b => b.1.toNat, bs.foldl (fun f b => f ||| b.2.2) early)
  else (es.map fun e => e.raw, [], es.foldl (fun f e => f ||| e.late) early)

/-- The reduction of one group to slots 3 and 4 (R202, R203, R214); an index counts from the group's first element (the model's
reading, log entry 151). -/
def State.tcReduce (s : State) (c : CoreId) (d : TDesc) (k : Chain) (red : BitVec 2) (x : DrawCtx)
    (es : List TcElem) (p0 n : Nat) : State :=
  let per := 512 / chainLanes k.sfmt k.dfmt
  let r := laneReduce red k.wide k.isInt per
    ((List.range es.length).zip (es.map fun e => e.value))
  let v := packStage { k with dfmt := (d.ent 3).fmt } r.1 (drawField (x.draw p0) 7)
  let s1 := (s.raiseFlags c (r.2.2 ||| v.2)).writeItems c d ⟨d.ent 3, (d.ent 3).fmt.bits, 1, true⟩ p0 n [v.1]
  match r.2.1 with
  | none => s1
  | some i => s1.writeItems c d ⟨d.ent 4, 64, 1, true⟩ p0 n [i.toNat]

/-- One unit of tc whose items are there. -/
def State.tcCompute (s : State) (c : CoreId) (d : TDesc) (k : Chain) (red : BitVec 2) (fl0 : BitVec 6) (x : DrawCtx)
    (it : TcItems) (p0 n : Nat) : State :=
  let es := (List.range n).map fun i => tcElemAt k d x it p0 i
  let o := tcPack k d x es p0
  let unusedOut := (d.ent 2).kind == 0
  let fl := if unusedOut then es.foldl (fun f e => f ||| e.early) fl0 else fl0 ||| o.2.2
  let s1 := (s.raiseFlags c fl).writeItems c d (elemSlot (d.ent 2)) p0 n o.1
  let s2 := if (d.ent 2).bs then s1.writeItems c d ⟨d.ent 3, 8, (d.ent 2).block, false⟩ p0 n o.2.1 else s1
  if red = 0 then s2 else s2.tcReduce c d k red x es p0 n

/-- One unit of tc: its inputs are taken, then its outputs written. -/
def tcRun (c : CoreId) (d : TDesc) (k : Chain) (red : BitVec 2) (fl0 : BitVec 6) (x : DrawCtx) (s : State) (p n : Nat) :
    UnitResult :=
  let role := fun i : Nat => ((tcSlots k.op red d).find? fun u => u.input && u.slot == i && u.role.ent.kind != 0).map
    fun u => u.role
  s.readIf c d (role 0) p n fun a s =>
  s.readIf c d (role 1) p n fun b s =>
  s.readIf c d (role 5) p n fun sa s =>
  s.readIf c d (role 6) p n fun sb s =>
  s.readIf c d (role 7) p n fun sc s =>
  .next (s.tcCompute c d k red fl0 x ⟨a, b, sa, sb, sc⟩ p n)

/-- What tc takes at issue: chain and scalar flags for a descriptor. -/
def State.tcChain (s : State) (c : CoreId) (t : FormLatch) (op : BitVec 5) (func : BitVec 3) (f : TdFields) (d : TDesc) :
    Chain × BitVec 6 :=
  let raw := if tdSkind f = 0 then 0 else s.getG c f.gs
  let sf := (d.ent 0).workSource
  let r := chainScalars sf op (tdSkind f) (tdSrcp f) raw
  (⟨op, func, sf, (d.ent 2).fmt, (RMode.ofField f.rm t.rm).getD .rne, ⟨t.fmtSat, t.fmtDnan⟩, raw, r.1, r.2.1⟩, r.2.2)

/-- Draws of a tensor form, with the key and step it took at issue (R48, R49). -/
def FormLatch.draws (l : FormLatch) (d : TDesc) : DrawCtx := ⟨l.key, l.step, d.tid, d.ibase⟩

/-- What R211 to R218. A comparison has no mask register to write here and is an illegal encoding. -/
def tcForm (c : CoreId) (op : BitVec 5) (func : BitVec 3) (red : BitVec 2) (f : TdFields) (t : State) (l : FormLatch) :
    TForm :=
  { illegal := chainIllegal op red (tdSkind f) (tdSrcp f) (RMode.ofField f.rm l.rm) ||
      opCompares op || f.cfg.extractLsb' 3 5 != 0
    slots := tcSlots op red
    tailUsed := false
    rdimsOk := fun d => (if red = 0 then d.rdims == 0 else 1 ≤ d.rdims) && !((d.ent 2).bs && red != 0)
    mult := fun d =>
      (if opReadsA op then (d.ent 0).mult else []) ++ (if opUsesB op then (d.ent 1).mult else []) ++
      (d.ent 2).mult ++ (if 2 ≤ d.smode then [2 ^ d.bsz] else [])
    vformat := tcFormat op func red (tdSkind f)
    run := fun d u p n =>
      let k := t.tcChain c l op func f d
      tcRun c d k.1 red k.2 (l.draws d) u p n }

/-- R211 to R218. -/
def execTc (c : CoreId) (op : BitVec 5) (func : BitVec 3) (red : BitVec 2) (f : TdFields) (pause : Option Nat) (s : State) :
    Host.Outcome State Fault Refusal := s.tensorForm c f pause (tcForm c op func red f)

/-! ### stats (R219, R220) -/

/-- Slot 3 of stats: four consecutive elements per group. -/
def statsOut (d : TDesc) : TSlot := ⟨d.ent 3, 4 * (d.ent 3).fmt.bits, 1, true⟩

/-- One group of stats. -/
def statsRun (c : CoreId) (ctl : FmtCtl) (d : TDesc) (s : State) (p n : Nat) : UnitResult :=
  (s.readItems c d (elemSlot (d.ent 0)) p n).andThen fun raws s =>
    let f := (d.ent 3).fmt
    let vs := raws.map fun r => decodeElem (d.ent 0).fmt r
    match s.statistics (Reducer.working (d.ent 0).fmt) ctl f vs with
    | (st, fl, s1) =>
      let cnt := encodeFloat f (.ofInt vs.length) .rne ⟨true, true⟩ 0
      let rec4 := (st ++ [cnt.1]).foldr (fun r a => r + 2 ^ f.bits * a) 0
      .next ((s1.raiseFlags c (fl ||| cnt.2)).writeItems c d (statsOut d) p n [rec4])

/-- The slots, checks and units of the form (R220). -/
def txStatsForm (c : CoreId) (f : TdFields) (_ : State) (l : FormLatch) : TForm :=
  { illegal := f.cfg != 0
    slots := fun d => [useOf 0 (elemSlot (d.ent 0)) true false, useOf 3 (statsOut d) false false]
    tailUsed := false
    rdimsOk := fun d => 1 ≤ d.rdims
    mult := fun d => (d.ent 0).mult
    vformat := fun d => !(d.ent 0).known || (d.ent 0).bs || ((d.ent 3).typ != 0 && (d.ent 3).typ != 1)
    run := fun d u p n => statsRun c ⟨l.fmtSat, l.fmtDnan⟩ d u p n }

/-- R220. -/
def execTxStats (c : CoreId) (f : TdFields) (pause : Option Nat) (s : State) :
    Host.Outcome State Fault Refusal := s.tensorForm c f pause (txStatsForm c f)

/-! ### optim (R227) -/

/-- An operation rounded to FP32. -/
def f32 (x : FVal × BitVec 6) : FVal × BitVec 6 := rounded false x

/-- The header values of optim and its scalar. -/
structure OptimK where
  lr : FVal
  b1 : FVal
  b2 : FVal
  eps : FVal
  wd : FVal
  c1 : FVal
  c2 : FVal
  s0 : FVal
  deriving DecidableEq, Repr

def optimK (d : TDesc) (s0 : Nat) : OptimK :=
  let h := fun i : Nat => decodeFloat .fp32 (fieldNat d.tail (4 * i) 4)
  ⟨h 0, h 1, h 2, h 3, h 4, h 5, decodeFloat .fp32 d.scale, decodeFloat .fp32 s0⟩

/-- One element: new weight, first and second moment, flags. -/
def optimElem (k : OptimK) (grad w m v : FVal) : FVal × FVal × FVal × BitVec 6 :=
  let one := fOne false
  let g := f32 (fMul grad k.s0)
  let d1 := f32 (fSub one k.b1)
  let d2 := f32 (fSub one k.b2)
  let t1 := f32 (fMul d1.1 g.1)
  let m1 := f32 (fFma k.b1 m t1.1)
  let t2 := f32 (fMul d2.1 g.1)
  let t3 := f32 (fMul t2.1 g.1)
  let v1 := f32 (fFma k.b2 v t3.1)
  let n := f32 (fMul m1.1 k.c1)
  let y := f32 (fMul v1.1 k.c2)
  let r := f32 (fSqrt y.1)
  let z := f32 (fAdd r.1 k.eps)
  let u := f32 (fDiv n.1 z.1)
  let q := f32 (fFma k.wd w u.1)
  let w1 := f32 (fFma k.lr.negated q.1 w)
  (w1.1, m1.1, v1.1, g.2 ||| d1.2 ||| d2.2 ||| t1.2 ||| m1.2 ||| t2.2 ||| t3.2 ||| v1.2 ||| n.2 ||| y.2 ||| r.2 |||
    z.2 ||| u.2 ||| q.2 ||| w1.2)

/-- Raw FP32 bits of a result and the flags of stage 6: the value fits, so only an infinity is changed, under fmtctl.sat (R42,
R194). -/
def fp32Raw (ctl : FmtCtl) (v : FVal) : Nat × BitVec 6 := encodeFloat .fp32 v .rne ctl 0

/-- Raw FP32 bits of a weight, which is split as it stands, an infinity too (R34, R41); a NaN is 0x7FC0, 0x0000 (R36). -/
def splitRaw (v : FVal) : Nat × BitVec 6 := if v.isNan then (0x7FC00000, 0) else fp32Raw ⟨false, true⟩ v

/-- The high array of a SPLIT32 slot; its low array is plane 1. -/
def splitSlot (x : TEntry) : TSlot := ⟨x, 16, 1, false⟩

/-- One run of optim. -/
def optimRun (c : CoreId) (d : TDesc) (k : OptimK) (ctl : FmtCtl) (s : State) (p n : Nat) : UnitResult :=
  (s.readItems c d (elemSlot (d.ent 0)) p n).andThen fun g s =>
  (s.readItems c d (splitSlot (d.ent 1)) p n).andThen fun wh s =>
  (s.readItems c d ((splitSlot (d.ent 1)).plane 1) p n).andThen fun wl s =>
  (s.readItems c d (elemSlot (d.ent 2)) p n).andThen fun m s =>
  (s.readItems c d (elemSlot (d.ent 3)) p n).andThen fun v s =>
    let f := fun r : Nat => decodeFloat .fp32 r
    let es := (List.range n).map fun i =>
      optimElem k (f (g.getD i 0)) (f (wh.getD i 0 * 65536 + wl.getD i 0)) (f (m.getD i 0)) (f (v.getD i 0))
    let ws := es.map fun e => splitRaw e.1
    let ms := es.map fun e => fp32Raw ctl e.2.1
    let vs := es.map fun e => fp32Raw ctl e.2.2.1
    let late := (ws ++ ms ++ vs).foldl (fun a r => a ||| r.2) 0
    let s1 := s.raiseFlags c (es.foldl (fun a e => a ||| e.2.2.2) late)
    let s2 := s1.writeItems c d (splitSlot (d.ent 4)) p n (ws.map fun w => w.1 / 65536)
    let s3 := s2.writeItems c d ((splitSlot (d.ent 4)).plane 1) p n (ws.map fun w => w.1 % 65536)
    let s4 := s3.writeItems c d (elemSlot (d.ent 5)) p n (ms.map fun r => r.1)
    .next (s4.writeItems c d (elemSlot (d.ent 6)) p n (vs.map fun r => r.1))

/-- The slots named have the type and no block scales. -/
def TDesc.typed (d : TDesc) (ts : List (Nat × BitVec 4)) : Bool :=
  ts.all fun t => (d.ent t.1).typ == t.2 && !(d.ent t.1).bs

/-- The slots, checks and units of the form (R227). -/
def txOptimForm (c : CoreId) (f : TdFields) (t : State) (l : FormLatch) : TForm :=
  { illegal := f.cfg != 0
    slots := fun d =>
      [useOf 0 (elemSlot (d.ent 0)) true false, ⟨1, splitSlot (d.ent 1), true, false, true, 2⟩,
       useOf 2 (elemSlot (d.ent 2)) true false, useOf 3 (elemSlot (d.ent 3)) true false,
       ⟨4, splitSlot (d.ent 4), false, false, true, 2⟩, useOf 5 (elemSlot (d.ent 5)) false false,
       useOf 6 (elemSlot (d.ent 6)) false false]
    tailUsed := true
    rdimsOk := fun d => d.smode == 0
    mult := fun _ => []
    vformat := fun d => !d.typed [(0, 1), (1, 11), (2, 1), (3, 1), (4, 11), (5, 1), (6, 1)]
    run := fun d u p n =>
      optimRun c d (optimK d ((t.getG c f.gs).extractLsb' 0 32).toNat) ⟨l.fmtSat, l.fmtDnan⟩ u p n }

/-- R227. -/
def execTxOptim (c : CoreId) (f : TdFields) (pause : Option Nat) (s : State) :
    Host.Outcome State Fault Refusal := s.tensorForm c f pause (txOptimForm c f)

/-! ### slice (R225, R152) -/

/-- Lower digit of x and what remains above it. -/
def lowDigit (x : Int) : Int × Int :=
  let d := (x + 512) % 1024 - 512
  (d, (x - d) / 1024)

/-- Digits a1 to a6 of a. -/
def sixDigits (a : Int) : List Int :=
  let d6 := lowDigit a
  let d5 := lowDigit d6.2
  let d4 := lowDigit d5.2
  let d3 := lowDigit d4.2
  let d2 := lowDigit d3.2
  [d2.2, d2.1, d3.1, d4.1, d5.1, d6.1]

/-- Exponent of a group from its maximum. -/
def sliceExp (v : FVal) : Int :=
  match v with
  | .num _ m e => floorLog2 m e + 1
  | _ => 0

/-- Raw digits of one element under exponent e, and flags; none where the group's maximum does not bound it, which the
spec does not give. -/
def sliceElem (v : FVal) (e : Int) : Option (List Nat × BitVec 6) :=
  match v with
  | .zero _ => some (List.replicate 6 0, 0)
  | .num neg m x =>
    let r := roundMag neg m (x + 58 - e) 0 .rne 0
    if r.1 ≤ 2 ^ 58 then
      some ((sixDigits (if neg then -(r.1 : Int) else r.1)).map (rawInt 16), flagIf r.2 fNX)
    else none
  | _ => none

/-- Raw digits of one element, free ones where the spec gives none. -/
def State.sliceDigits (s : State) (v : FVal) (e : Int) (i : Nat) : List Nat × BitVec 6 :=
  match sliceElem v e with
  | some r => r
  | none => ((List.range 6).map fun j => (Config.freeValue (s.free + 6 * i + j)).toNat % 65536, 0)

/-- The digit planes of slot 2. -/
def digitSlot (d : TDesc) : TSlot := ⟨d.ent 2, 16, 1, false⟩

def groupSlot (x : TEntry) (bits : Nat) : TSlot := ⟨x, bits, 1, true⟩

/-- One group of slice. -/
def sliceRun (c : CoreId) (d : TDesc) (s : State) (p n : Nat) : UnitResult :=
  (s.readItems c d (elemSlot (d.ent 0)) p n).andThen fun xs s =>
  (s.readItems c d (groupSlot (d.ent 1) 64) p n).andThen fun mx s =>
    let m := decodeFloat .fp64 (mx.getD 0 0)
    let e := sliceExp m
    let ds := if m.finite then
        (List.range n).map fun i => s.sliceDigits (decodeFloat .fp64 (xs.getD i 0)) e i
      else List.replicate n (List.replicate 6 0, 0)
    let fl := ds.foldl (fun a r => a ||| r.2) (flagIf (!m.finite) fNV)
    let s1 := ({ s with free := s.free + 6 * n }).raiseFlags c fl
    let s2 := (List.range 6).foldl (fun u j =>
      u.writeItems c d ((digitSlot d).plane j) p n (ds.map fun r => r.1.getD j 0)) s1
    .next (s2.writeItems c d (groupSlot (d.ent 3) 32) p n [if m.finite then rawInt 32 e else 0x7FFFFFFF])

/-- The slots, checks and units of the form (R225). -/
def txSliceForm (c : CoreId) (f : TdFields) (_ : State) (_ : FormLatch) : TForm :=
  { illegal := f.cfg != 0
    slots := fun d =>
      [useOf 0 (elemSlot (d.ent 0)) true false, useOf 1 (groupSlot (d.ent 1) 64) true false,
       ⟨2, digitSlot d, false, false, true, 6⟩, useOf 3 (groupSlot (d.ent 3) 32) false false]
    tailUsed := false
    rdimsOk := fun d => d.rdims == 1
    mult := fun _ => []
    vformat := fun d => !d.typed [(0, 0), (1, 0), (2, 12), (3, 13)]
    run := fun d u p n => sliceRun c d u p n }

/-- R225. -/
def execTxSlice (c : CoreId) (f : TdFields) (pause : Option Nat) (s : State) :
    Host.Outcome State Fault Refusal := s.tensorForm c f pause (txSliceForm c f)

/-! ### dwround (R226) -/

/-- One result: raw FP64 and flags. -/
def dwroundElem (rm : RMode) (ctl : FmtCtl) (hi lo : FVal) (ea eb : Int) (r : Nat) : Nat × BitVec 6 :=
  if ea = 0x7FFFFFFF ∨ eb = 0x7FFFFFFF then (canonicalNan .fp64, fNV)
  else
    let s := fAdd hi lo
    let y := encodeFloat .fp64 (s.1.scaled (ea + eb - 116)) rm ctl r
    (y.1, s.2 ||| y.2)

/-- One run of dwround. -/
def dwroundRun (c : CoreId) (d : TDesc) (rm : RMode) (ctl : FmtCtl) (x : DrawCtx) (s : State) (p n : Nat) : UnitResult :=
  (s.readItems c d ⟨d.ent 0, 128, 1, false⟩ p n).andThen fun ps s =>
  (s.readItems c d (elemSlot (d.ent 1)) p n).andThen fun ea s =>
  (s.readItems c d (elemSlot (d.ent 2)) p n).andThen fun eb s =>
    let es := (List.range n).map fun i =>
      let q := ps.getD i 0
      dwroundElem rm ctl (decodeFloat .fp64 (q % 2 ^ 64)) (decodeFloat .fp64 (q / 2 ^ 64))
        (BitVec.ofNat 32 (ea.getD i 0)).toInt (BitVec.ofNat 32 (eb.getD i 0)).toInt (drawField (x.draw (p + i)) 0)
    .next ((s.raiseFlags c (es.foldl (fun a e => a ||| e.2) 0)).writeItems c d (elemSlot (d.ent 3)) p n
      (es.map fun e => e.1))

/-- The slots, checks and units of the form (R226). -/
def txDwroundForm (c : CoreId) (f : TdFields) (_ : State) (l : FormLatch) : TForm :=
  { illegal := f.cfg != 0
    slots := fun d =>
      [useOf 0 ⟨d.ent 0, 128, 1, false⟩ true false, useOf 1 (elemSlot (d.ent 1)) true false,
       useOf 2 (elemSlot (d.ent 2)) true false, useOf 3 (elemSlot (d.ent 3)) false false]
    tailUsed := false
    rdimsOk := fun _ => true
    mult := fun _ => []
    vformat := fun d => !d.typed [(0, 0), (1, 13), (2, 13), (3, 0)]
    run := fun d u p n =>
      dwroundRun c d ((RMode.ofField f.rm l.rm).getD .rne) ⟨l.fmtSat, l.fmtDnan⟩ (l.draws d) u p n }

/-- R226. -/
def execTxDwround (c : CoreId) (f : TdFields) (pause : Option Nat) (s : State) :
    Host.Outcome State Fault Refusal := s.tensorForm c f pause (txDwroundForm c f)

end Sys2Proof.Machine
end

