-- ==== Sys2Proof/Machine/VectorMem.lean ====
section
/-!
DEFINITION. Long-vector memory forms (R126 to R131): addresses, checks, progress and packing of elements
narrower than a byte. They are coherent with the L1 data caches and allocate no line there (R128).
-/
namespace Sys2Proof.Machine

/-- The four addressing modes (R122). -/
inductive VmMode where
  | unit
  | strided
  | indexed
  | structure
  deriving DecidableEq, Repr

/-- Elements and bytes of a packing group of an element narrower than a byte (R30, R126). -/
def packGroup (f : Fmt) : Option (Nat × Nat) :=
  match f with
  | .e2m1 | .int4 => some (2, 1)
  | .e3m2 | .e2m3 => some (4, 3)
  | _ => none

/-- What the fields of a memory form say once its element type is known. -/
structure VmShape where
  fmt : Fmt
  w : Nat
  g : Nat
  /-- Fields of a structure; 1 in the other modes. -/
  nf : Nat
  /-- Bytes of an index. -/
  wi : Nat
  vl : Nat
  start : Nat
  base : Word
  deriving DecidableEq, Repr

/-- Fields reserved in the mode are zero, nf fits it, zm is zero in a store (R122). -/
def vmBadFields (m : VmMode) (store : Bool) (f : VmFields) : Bool :=
  (decide (m ≠ .strided) && f.gs != 0) || (decide (m ≠ .indexed) && (f.vi != 0 || f.iw)) ||
  (if m = .structure then f.nf == 0 else f.nf != 0) || (store && f.zm)

/-- VGROUP of the operand groups (R113, R126). -/
def vmBadGroups (m : VmMode) (store : Bool) (f : VmFields) (h : VmShape) : Bool :=
  f.v.val % h.g != 0 ||
  (decide (m = .structure) && (decide (8 < h.nf * h.g) || decide (32 < f.v.val + h.nf * h.g))) ||
  (decide (m = .indexed) &&
    (let span := indexSpan h.g h.wi h.w
     decide (8 < span) || f.vi.val % span != 0 || (!store && groupsOverlap f.v.val h.g f.vi.val span)))

/-- Sub-byte stores start and end on a packing group (R126). -/
def vmBadPacking (store : Bool) (h : VmShape) : Bool :=
  match packGroup h.fmt with
  | none => false
  | some (n, _) => store && (h.vl % n != 0 || h.start % n != 0)

/-- Issue checks: encoding, groups, element type, vl, then kb (R127 step 1). -/
def State.vmCauses (s : State) (c : CoreId) (m : VmMode) (store : Bool) (f : VmFields) (h : VmShape) :
    List Cause :=
  failIf (vmBadFields m store f) (cILLEGAL (s.pc c)) ++
  failIf (vmBadGroups m store f h) (cVGROUP (s.pc c)) ++
  failIf (decide (m ≠ .unit) && (packGroup h.fmt).isSome) (cVFORMAT (s.pc c)) ++
  failIf (decide (capacity h.g h.w < h.vl) || vmBadPacking store h) (cVLEN (s.pc c)) ++
  capUseCauses (s.getK c f.kb) (kNum f.kb) [if store then permStore else permLoad] 0

/-- Address of element i, or of structure i (R126). -/
def State.vmAddr (s : State) (c : CoreId) (m : VmMode) (f : VmFields) (h : VmShape) (i : Nat) : Word :=
  match m with
  | .unit => h.base + w64 (h.w * i)
  | .strided => h.base + s.getG c f.gs * w64 i
  | .indexed => h.base + w64 ((s.vec c).elem f.vi.val i h.wi)
  | .structure => h.base + w64 (h.w * h.nf * i)

/-! ### Coherent accesses that allocate nothing (R128) -/

/-- Lines that [a, a + len) touches. -/
def linesOf (a len : Nat) : List Nat :=
  (List.range ((a + len - 1) / 128 + 1 - a / 128)).map fun i => a / 128 + i

/-- The requests of core c for the lines of [a, a + len): to the home slice, and to the stack where that does not hold the
line (R16, R253). -/
def State.passLines (s : State) (c : CoreId) (a len : Nat) : State :=
  (linesOf a len).foldl (fun t n => t.passCredits c (if t.l2Has false n then none else t.homeStack (128 * n)) 1) s

/-- A read of len bytes by core c with the values dirty copies hold; true: a word of it is poisoned. -/
def State.coherentRead (s : State) (c : CoreId) (a len : Nat) : State × List Byte × Bool :=
  let s1 := ((linesOf a len).foldl (fun t n => t.cleanLine n) (s.passLines c a len)).settle a len 0
  (s1, s1.homeBytes a len, (s1.firstPoison a len).isSome)

/-- A write of core c that first drops every L1 copy of its lines (R86). -/
def State.coherentWrite (s : State) (c : CoreId) (a : Nat) (bs : List Byte) : State :=
  ((linesOf a bs.length).foldl (fun t n => (t.cleanLine n).dropCopies n none) (s.passLines c a bs.length)).writeHome a bs

/-! ### One element -/

/-- Checks of one element of len bytes at a (R127 step 2). -/
def State.vmElemCauses (s : State) (c : CoreId) (kb : KReg) (a : Word) (len align : Nat) : List Cause :=
  let k := s.getK c kb
  capBoundsCauses k (kNum kb) a len ++ alignCauses (kNum kb) a align ++ s.mapCauses k (kNum kb) a len

/-- The fields of structure i (one field in the other modes) written from its bytes. -/
def Vectors.putFields (x : Vectors) (f : VmFields) (h : VmShape) (i : Nat) (bs : List Byte) : Vectors :=
  (List.range h.nf).foldl (fun y k => y.setElem (f.v.val + k * h.g) i h.w (fieldNat bs (k * h.w) h.w)) x

/-- The bytes of structure i from its fields. -/
def Vectors.takeFields (x : Vectors) (f : VmFields) (h : VmShape) (i : Nat) : List Byte :=
  (List.range h.nf).flatMap fun k => leBytes h.w (x.elem (f.v.val + k * h.g) i h.w)

/-- Element (or structure) i of a load or store. -/
def State.vmElem (s : State) (c : CoreId) (m : VmMode) (store : Bool) (f : VmFields) (h : VmShape)
    (i : Nat) : Elem :=
  let x := s.vec c
  let len := h.w * h.nf
  if x.active f.me f.ms.val i h.w then
    let a := s.vmAddr c m f h i
    match firstCause (s.vmElemCauses c f.kb a len h.w) with
    | some k => .fault s k
    | none =>
      if store then .next (s.coherentWrite c a.toNat (x.takeFields f h i))
      else
        match s.coherentRead c a.toNat len with
        | (s1, bs, bad) =>
          if bad then .fault s1 (cPOISON a (kNum f.kb)) else .next (s1.setVec c (x.putFields f h i bs))
  else if !store && f.zm then .next (s.setVec c (x.putFields f h i []))
  else .next s

/-! ### One packing group (R30, R118, R126, R127) -/

/-- Bits of the elements `js` of a group replaced by those the register holds. -/
def packInto (x : Vectors) (v bits first word : Nat) (js : List Nat) : Nat :=
  js.foldl (fun n j =>
    let p := 2 ^ (bits * (j - first))
    n - n / p % 2 ^ bits * p + x.elem v j 1 % 2 ^ bits * p) word

/-- Packing group q: its elements from the starting index to vl − 1. A store reads the group's bytes only where it holds a
masked-off element too, and checks them for poison then (R118, R126, R127). A load writes no masked-off element of a group that
holds an active one, zm = 1 or not, as the last sentences of R118 have it; one of a group with none follows zm. -/
def State.vmPack (s : State) (c : CoreId) (store : Bool) (f : VmFields) (h : VmShape) (n nb q : Nat) : Elem :=
  let x := s.vec c
  let first := n * q
  let js := (List.range n).map (fun j => first + j) |>.filter fun j => decide (h.start ≤ j ∧ j < h.vl)
  let acts := js.filter fun j => x.active f.me f.ms.val j 1
  let bits := h.fmt.bits
  let lo := (max first h.start - first) * bits / 8
  let hi := ((min (first + n) h.vl - first) * bits + 7) / 8
  let a := h.base + w64 (nb * q + lo)
  let fill := fun (y : Vectors) (word : Nat) => js.foldl (fun z j =>
    if acts.contains j then z.setElem f.v.val j 1 (laneOf h.fmt (word / 2 ^ (bits * (j - first)))) else z) y
  if acts.isEmpty then
    (if store || !f.zm then .next s else .next (s.setVec c (js.foldl (fun z j => z.setElem f.v.val j 1 0) x)))
  else
    match firstCause (s.vmElemCauses c f.kb a (hi - lo) 1) with
    | some k => .fault s k
    | none =>
      if store && acts.length == js.length then
        .next (s.coherentWrite c a.toNat (leBytes nb (packInto x f.v.val bits first 0 acts)))
      else
        match s.coherentRead c a.toNat (hi - lo) with
        | (s1, bs, bad) =>
          if bad then .fault s1 (cPOISON a (kNum f.kb))
          else if store then
            .next (s1.coherentWrite c a.toNat (leBytes nb (packInto x f.v.val bits first (leNat bs) acts)))
          else .next (s1.setVec c (fill x (leNat bs * 256 ^ lo)))

/-! ### The instruction -/

/-- Elements or groups in order; a failure gives the state with the ones below it done. -/
def runElems (elem : State → Nat → Elem) : List Nat → State → State × Option (Nat × Cause)
  | [], s => (s, none)
  | i :: is, s =>
    match elem s i with
    | .next s1 => runElems elem is s1
    | .stop s1 => (s1, none)
    | .fault s1 k => (s1, some (i, k))

def State.setResume (s : State) (c : CoreId) (i : Nat) : State :=
  s.mapCtl c fun t => { t with vresume := BitVec.ofNat 15 i }

/-- Index at which a waiting event stops the form: a later beat boundary below vl (R130). -/
def vmStop (h : VmShape) (pause : Option Nat) : Option Nat :=
  match pause with
  | none => none
  | some n =>
    let b := (h.start / (512 / h.w) + 1 + n) * (512 / h.w)
    if b < h.vl then some b else none

/-- Elements start to stop − 1, then completion, the pause, or the failing element (R129 to R131). A completed beat is progress
(R370). -/
def State.vmRun (s : State) (c : CoreId) (m : VmMode) (store : Bool) (f : VmFields) (h : VmShape)
    (pause : Option Nat) : Effect :=
  let stop := (vmStop h (s.pauseAt c pause)).getD h.vl
  let r :=
    match packGroup h.fmt with
    | none =>
      match runElems (fun t i => t.vmElem c m store f h i)
          ((List.range (stop - h.start)).map fun i => h.start + i) s with
      | (t, none) => (t, none)
      | (t, some (i, k)) => (t, some (i, k))
    | some (n, nb) =>
      match runElems (fun t q => t.vmPack c store f { h with vl := stop } n nb q)
          ((List.range ((stop + n - 1) / n - h.start / n)).map fun q => h.start / n + q) s with
      | (t, none) => (t, none)
      | (t, some (q, k)) => (t, some (max (n * q) h.start, k))
  match r with
  | (t, some (i, k)) =>
    let beat := 512 / h.w
    .trap (if h.start / beat < i / beat then (t.setResume c i).progress c else t.setResume c i) k
  | (t, none) => if stop < h.vl then .stay ((t.setResume c stop).progress c) else .done (t.clearResume c)

/-- A memory form of one mode: issue checks, then its elements, under the vl it issued with (R119). One that is issued again with
vresume at or past the vl that stands then completes (R131). -/
def State.vectorMem (s : State) (c : CoreId) (m : VmMode) (store : Bool) (f : VmFields) (pause : Option Nat) :
    Host.Outcome State Fault Refusal :=
  s.issueVector c 8 fun t =>
    match Fmt.ofCode f.fmt with
    | none => .trap t (cILLEGAL (t.pc c))
    | some fm =>
      let l := (t.formLatch c).getD (t.newLatch c [])
      let h : VmShape :=
        { fmt := fm, w := fm.lanes, g := groupSize f.grp,
          nf := if m = .structure then f.nf.toNat + 1 else 1, wi := if f.iw then 8 else 4,
          vl := l.vl.toNat, start := t.vstart c, base := (t.getK c f.kb).cursor + sext f.off16 }
      t.orTrap (t.vmCauses c m store f h)
        ((if h.vl ≤ h.start ∨ t.vlen c ≤ h.start then .done (t.clearResume c)
          else (t.putLatch c l).vmRun c m store f h pause).unlatch c (t.pc c))

/-- R126. -/
def execVld (c : CoreId) (f : VmFields) (pause : Option Nat) (s : State) : Host.Outcome State Fault Refusal :=
  s.vectorMem c .unit false f pause

/-- R126. -/
def execVst (c : CoreId) (f : VmFields) (pause : Option Nat) (s : State) : Host.Outcome State Fault Refusal :=
  s.vectorMem c .unit true f pause

/-- R126. -/
def execVlds (c : CoreId) (f : VmFields) (pause : Option Nat) (s : State) : Host.Outcome State Fault Refusal :=
  s.vectorMem c .strided false f pause

/-- R126. -/
def execVsts (c : CoreId) (f : VmFields) (pause : Option Nat) (s : State) : Host.Outcome State Fault Refusal :=
  s.vectorMem c .strided true f pause

/-- R126. -/
def execVldx (c : CoreId) (f : VmFields) (pause : Option Nat) (s : State) : Host.Outcome State Fault Refusal :=
  s.vectorMem c .indexed false f pause

/-- R126. -/
def execVstx (c : CoreId) (f : VmFields) (pause : Option Nat) (s : State) : Host.Outcome State Fault Refusal :=
  s.vectorMem c .indexed true f pause

/-- R126. -/
def execVlseg (c : CoreId) (f : VmFields) (pause : Option Nat) (s : State) : Host.Outcome State Fault Refusal :=
  s.vectorMem c .structure false f pause

/-- R126. -/
def execVsseg (c : CoreId) (f : VmFields) (pause : Option Nat) (s : State) : Host.Outcome State Fault Refusal :=
  s.vectorMem c .structure true f pause

end Sys2Proof.Machine
end

