-- ==== Sys2Proof/Machine/Dispatch.lean ====
section
/-!
DEFINITION. One arm per command: the one place that says which meaning a command has.
-/
namespace Sys2Proof.Machine

def exec (i : Instr) (s : State) : Host.Outcome State Fault Refusal :=
  match i with
  | .add c rd rs1 rs2 => Sys2Proof.Machine.execAdd c rd rs1 rs2 s
  | .sub c rd rs1 rs2 => Sys2Proof.Machine.execSub c rd rs1 rs2 s
  | .and c rd rs1 rs2 => Sys2Proof.Machine.execAnd c rd rs1 rs2 s
  | .or c rd rs1 rs2 => Sys2Proof.Machine.execOr c rd rs1 rs2 s
  | .xor c rd rs1 rs2 => Sys2Proof.Machine.execXor c rd rs1 rs2 s
  | .andn c rd rs1 rs2 => Sys2Proof.Machine.execAndn c rd rs1 rs2 s
  | .sll c rd rs1 rs2 => Sys2Proof.Machine.execSll c rd rs1 rs2 s
  | .srl c rd rs1 rs2 => Sys2Proof.Machine.execSrl c rd rs1 rs2 s
  | .sra c rd rs1 rs2 => Sys2Proof.Machine.execSra c rd rs1 rs2 s
  | .rol c rd rs1 rs2 => Sys2Proof.Machine.execRol c rd rs1 rs2 s
  | .ror c rd rs1 rs2 => Sys2Proof.Machine.execRor c rd rs1 rs2 s
  | .slt c rd rs1 rs2 => Sys2Proof.Machine.execSlt c rd rs1 rs2 s
  | .sltu c rd rs1 rs2 => Sys2Proof.Machine.execSltu c rd rs1 rs2 s
  | .min c rd rs1 rs2 => Sys2Proof.Machine.execMin c rd rs1 rs2 s
  | .max c rd rs1 rs2 => Sys2Proof.Machine.execMax c rd rs1 rs2 s
  | .minu c rd rs1 rs2 => Sys2Proof.Machine.execMinu c rd rs1 rs2 s
  | .maxu c rd rs1 rs2 => Sys2Proof.Machine.execMaxu c rd rs1 rs2 s
  | .mul c rd rs1 rs2 => Sys2Proof.Machine.execMul c rd rs1 rs2 s
  | .mulh c rd rs1 rs2 => Sys2Proof.Machine.execMulh c rd rs1 rs2 s
  | .mulhu c rd rs1 rs2 => Sys2Proof.Machine.execMulhu c rd rs1 rs2 s
  | .mulhsu c rd rs1 rs2 => Sys2Proof.Machine.execMulhsu c rd rs1 rs2 s
  | .div c rd rs1 rs2 => Sys2Proof.Machine.execDiv c rd rs1 rs2 s
  | .divu c rd rs1 rs2 => Sys2Proof.Machine.execDivu c rd rs1 rs2 s
  | .rem c rd rs1 rs2 => Sys2Proof.Machine.execRem c rd rs1 rs2 s
  | .remu c rd rs1 rs2 => Sys2Proof.Machine.execRemu c rd rs1 rs2 s
  | .sel c rd rs1 rs2 rs3 => Sys2Proof.Machine.execSel c rd rs1 rs2 rs3 s
  | .addi c rd rs1 imm12 => Sys2Proof.Machine.execAddi c rd rs1 imm12 s
  | .andi c rd rs1 imm12 => Sys2Proof.Machine.execAndi c rd rs1 imm12 s
  | .ori c rd rs1 imm12 => Sys2Proof.Machine.execOri c rd rs1 imm12 s
  | .xori c rd rs1 imm12 => Sys2Proof.Machine.execXori c rd rs1 imm12 s
  | .slli c rd rs1 imm12 => Sys2Proof.Machine.execSlli c rd rs1 imm12 s
  | .srli c rd rs1 imm12 => Sys2Proof.Machine.execSrli c rd rs1 imm12 s
  | .srai c rd rs1 imm12 => Sys2Proof.Machine.execSrai c rd rs1 imm12 s
  | .roli c rd rs1 imm12 => Sys2Proof.Machine.execRoli c rd rs1 imm12 s
  | .clz c rd rs1 => Sys2Proof.Machine.execClz c rd rs1 s
  | .ctz c rd rs1 => Sys2Proof.Machine.execCtz c rd rs1 s
  | .bperm c rd rs1 rs2 rs3 => Sys2Proof.Machine.execBperm c rd rs1 rs2 rs3 s
  | .bfext c rd rs1 pos len => Sys2Proof.Machine.execBfext c rd rs1 pos len s
  | .bfexts c rd rs1 pos len => Sys2Proof.Machine.execBfexts c rd rs1 pos len s
  | .bfins c rd rs1 pos len => Sys2Proof.Machine.execBfins c rd rs1 pos len s
  | .bfextr c rd rs1 rs2 => Sys2Proof.Machine.execBfextr c rd rs1 rs2 s
  | .bfextsr c rd rs1 rs2 => Sys2Proof.Machine.execBfextsr c rd rs1 rs2 s
  | .bfinsr c rd rs1 rs2 => Sys2Proof.Machine.execBfinsr c rd rs1 rs2 s
  | .li c rd imm32 => Sys2Proof.Machine.execLi c rd imm32 s
  | .lih c rd imm32 => Sys2Proof.Machine.execLih c rd imm32 s
  | .beq c rs1 rs2 off12 => Sys2Proof.Machine.execBeq c rs1 rs2 off12 s
  | .bne c rs1 rs2 off12 => Sys2Proof.Machine.execBne c rs1 rs2 off12 s
  | .blt c rs1 rs2 off12 => Sys2Proof.Machine.execBlt c rs1 rs2 off12 s
  | .bge c rs1 rs2 off12 => Sys2Proof.Machine.execBge c rs1 rs2 off12 s
  | .bltu c rs1 rs2 off12 => Sys2Proof.Machine.execBltu c rs1 rs2 off12 s
  | .bgeu c rs1 rs2 off12 => Sys2Proof.Machine.execBgeu c rs1 rs2 off12 s
  | .jal c rd off20 => Sys2Proof.Machine.execJal c rd off20 s
  | .jalr c rd rs1 imm12 => Sys2Proof.Machine.execJalr c rd rs1 imm12 s
  | .ld c fn rd kb off13 => Sys2Proof.Machine.execLd c fn rd kb off13 s
  | .st c fn rs kb off13 => Sys2Proof.Machine.execSt c fn rs kb off13 s
  | .lc c kd kb off13 => Sys2Proof.Machine.execLc c kd kb off13 s
  | .sc c ks kb off13 => Sys2Proof.Machine.execSc c ks kb off13 s
  | .loop c im gc imm10 eoff => Sys2Proof.Machine.execLoop c im gc imm10 eoff s
  | .endloop c => Sys2Proof.Machine.execEndloop c s
  | .fence c => Sys2Proof.Machine.execFence c s
  | .mfc c rd ctl => Sys2Proof.Machine.execMfc c rd ctl s
  | .mtc c ctl rs1 => Sys2Proof.Machine.execMtc c ctl rs1 s
  | .ioIn c rd kc addr => Sys2Proof.Machine.execIoIn c rd kc addr s
  | .ioOut c kc addr gv => Sys2Proof.Machine.execIoOut c kc addr gv s
  | .rmov c size ga gb gc ka kb pause => Sys2Proof.Machine.execRmov c size ga gb gc ka kb pause s
  | .rfill c size ga gb gc ka pause => Sys2Proof.Machine.execRfill c size ga gb gc ka pause s
  | .rcmp c size ga gb gc ka kb pause => Sys2Proof.Machine.execRcmp c size ga gb gc ka kb pause s
  | .rscan c size ga gb gc ka pause => Sys2Proof.Machine.execRscan c size ga gb gc ka pause s
  | .iload c ga gb gc ka kb pause => Sys2Proof.Machine.execIload c ga gb gc ka kb pause s
  | .iflush c ga gc ka pause => Sys2Proof.Machine.execIflush c ga gc ka pause s
  | .dcclean c ga gc ka pause => Sys2Proof.Machine.execDcclean c ga gc ka pause s
  | .dcinval c ga gc ka pause => Sys2Proof.Machine.execDcinval c ga gc ka pause s
  | .l1MissFill c => Sys2Proof.Machine.execL1MissFill c s
  | .kmov c kd ks1 => Sys2Proof.Machine.execKmov c kd ks1 s
  | .kread c gd ks1 f => Sys2Proof.Machine.execKread c gd ks1 f s
  | .kstep c kd ks1 g => Sys2Proof.Machine.execKstep c kd ks1 g s
  | .kpoint c kd ks1 g => Sys2Proof.Machine.execKpoint c kd ks1 g s
  | .knarrow c kd ks1 g => Sys2Proof.Machine.execKnarrow c kd ks1 g s
  | .knarrowx c kd ks1 g => Sys2Proof.Machine.execKnarrowx c kd ks1 g s
  | .kperm c kd ks1 g => Sys2Proof.Machine.execKperm c kd ks1 g s
  | .klock c kd ks1 ks2 => Sys2Proof.Machine.execKlock c kd ks1 ks2 s
  | .kunlock c kd ks1 ks2 => Sys2Proof.Machine.execKunlock c kd ks1 ks2 s
  | .kwithin c gd ks1 ks2 => Sys2Proof.Machine.execKwithin c gd ks1 ks2 s
  | .kstrip c kd ks1 => Sys2Proof.Machine.execKstrip c kd ks1 s
  | .kgo c kd ks1 g => Sys2Proof.Machine.execKgo c kd ks1 g s
  | .kpc c kd g => Sys2Proof.Machine.execKpc c kd g s
  | .kmfc c kd cc => Sys2Proof.Machine.execKmfc c kd cc s
  | .kmtc c cc ks1 => Sys2Proof.Machine.execKmtc c cc ks1 s
  | .shsave c ks1 => Sys2Proof.Machine.execShsave c ks1 s
  | .shload c ks1 => Sys2Proof.Machine.execShload c ks1 s
  | .mfsg c gd n => Sys2Proof.Machine.execMfsg c gd n s
  | .mtsg c n g => Sys2Proof.Machine.execMtsg c n g s
  | .mfsk c kd n => Sys2Proof.Machine.execMfsk c kd n s
  | .mtsk c n ks1 => Sys2Proof.Machine.execMtsk c n ks1 s
  | .mfss c gd => Sys2Proof.Machine.execMfss c gd s
  | .mtss c g => Sys2Proof.Machine.execMtss c g s
  | .xadv c n => Sys2Proof.Machine.execXadv c n s
  | .xret c => Sys2Proof.Machine.execXret c s
  | .ecall c => Sys2Proof.Machine.execEcall c s
  | .brk c => Sys2Proof.Machine.execBrk c s
  | .exceptionEntry c => Sys2Proof.Machine.execExceptionEntry c s
  | .mand c f => Sys2Proof.Machine.execMand c f s
  | .mor c f => Sys2Proof.Machine.execMor c f s
  | .mxor c f => Sys2Proof.Machine.execMxor c f s
  | .mandn c f => Sys2Proof.Machine.execMandn c f s
  | .mnot c f => Sys2Proof.Machine.execMnot c f s
  | .mset c f => Sys2Proof.Machine.execMset c f s
  | .mpopc c f => Sys2Proof.Machine.execMpopc c f s
  | .mfirst c f => Sys2Proof.Machine.execMfirst c f s
  | .mtov c f => Sys2Proof.Machine.execMtov c f s
  | .vtom c f => Sys2Proof.Machine.execVtom c f s
  | .vsetvl c f => Sys2Proof.Machine.execVsetvl c f s
  | .vmv c f => Sys2Proof.Machine.execVmv c f s
  | .vbcast c f => Sys2Proof.Machine.execVbcast c f s
  | .vperm c f => Sys2Proof.Machine.execVperm c f s
  | .vslideup c f => Sys2Proof.Machine.execVslideup c f s
  | .vslidedown c f => Sys2Proof.Machine.execVslidedown c f s
  | .vcompress c f => Sys2Proof.Machine.execVcompress c f s
  | .vexpand c f => Sys2Proof.Machine.execVexpand c f s
  | .vext c f => Sys2Proof.Machine.execVext c f s
  | .vins c f => Sys2Proof.Machine.execVins c f s
  | .vld c f pause => Sys2Proof.Machine.execVld c f pause s
  | .vst c f pause => Sys2Proof.Machine.execVst c f pause s
  | .vlds c f pause => Sys2Proof.Machine.execVlds c f pause s
  | .vsts c f pause => Sys2Proof.Machine.execVsts c f pause s
  | .vldx c f pause => Sys2Proof.Machine.execVldx c f pause s
  | .vstx c f pause => Sys2Proof.Machine.execVstx c f pause s
  | .vlseg c f pause => Sys2Proof.Machine.execVlseg c f pause s
  | .vsseg c f pause => Sys2Proof.Machine.execVsseg c f pause s
  | .vc c op func red f => Sys2Proof.Machine.execVc c op func red f s
  | .vcCompare c cond func red f => Sys2Proof.Machine.execVcCompare c cond func red f s
  | .vcDrop c func red f => Sys2Proof.Machine.execVcDrop c func red f s
  | .vcRandu c func red f => Sys2Proof.Machine.execVcRandu c func red f s
  | .vcRandb c func red f => Sys2Proof.Machine.execVcRandb c func red f s
  | .qstat c gs tsc n k tfmt => Sys2Proof.Machine.execQstat c gs tsc n k tfmt s
  | .qmma c gs tsc ssc neg start tfmt sfmt n k m slot => Sys2Proof.Machine.execQmma c gs tsc ssc neg start tfmt sfmt n k m slot s
  | .qdrain c cfg st gsc gd rm fmt n m slot => Sys2Proof.Machine.execQdrain c cfg st gsc gd rm fmt n m slot s
  | .tld c off16 gu gp len m kb => Sys2Proof.Machine.execTld c off16 gu gp len m kb s
  | .accpeek c gs gd => Sys2Proof.Machine.execAccpeek c gs gd s
  | .accsave c kb pause => Sys2Proof.Machine.execAccsave c kb pause s
  | .accrestore c kb pause => Sys2Proof.Machine.execAccrestore c kb pause s
  | .tc c op func red f pause => Sys2Proof.Machine.execTc c op func red f pause s
  | .txStats c f pause => Sys2Proof.Machine.execTxStats c f pause s
  | .txOptim c f pause => Sys2Proof.Machine.execTxOptim c f pause s
  | .txSlice c f pause => Sys2Proof.Machine.execTxSlice c f pause s
  | .txDwround c f pause => Sys2Proof.Machine.execTxDwround c f pause s
  | .sopen c e kd kb g => Sys2Proof.Machine.execSopen c e kd kb g s
  | .scancel c mask => Sys2Proof.Machine.execScancel c mask s
  | .srestart c e g => Sys2Proof.Machine.execSrestart c e g s
  | .sfence c fm => Sys2Proof.Machine.execSfence c fm s
  | .sstat c g e w => Sys2Proof.Machine.execSstat c g e w s
  | .stationaryRowLoad c => Sys2Proof.Machine.execStationaryRowLoad c s
  | .quinceRowEnter c => Sys2Proof.Machine.execQuinceRowEnter c s
  | .invalidCycle c => Sys2Proof.Machine.execInvalidCycle c s
  | .quinceRowCheck c m err => Sys2Proof.Machine.execQuinceRowCheck c m err s
  | .stationaryReload c => Sys2Proof.Machine.execStationaryReload c s
  | .accRowWrite c => Sys2Proof.Machine.execAccRowWrite c s
  | .arrayHoldEnd c => Sys2Proof.Machine.execArrayHoldEnd c s
  | .drainSlotReadStart c slot => Sys2Proof.Machine.execDrainSlotReadStart c slot s
  | .drainPause c slot => Sys2Proof.Machine.execDrainPause c slot s
  | .drainResume c slot => Sys2Proof.Machine.execDrainResume c slot s
  | .drainSlotReadEnd c slot => Sys2Proof.Machine.execDrainSlotReadEnd c slot s
  | .tokenRaise c => Sys2Proof.Machine.execTokenRaise c s
  | .tldRowArrival c => Sys2Proof.Machine.execTldRowArrival c s
  | .streamRequest c e => Sys2Proof.Machine.execStreamRequest c e s
  | .streamDataArrival c e => Sys2Proof.Machine.execStreamDataArrival c e s
  | .streamUnitRelease c e => Sys2Proof.Machine.execStreamUnitRelease c e s
  | .storeStreamWriteAck c e => Sys2Proof.Machine.execStoreStreamWriteAck c e s
  | .scancelComplete c e => Sys2Proof.Machine.execScancelComplete c e s
  | .srestartComplete c e => Sys2Proof.Machine.execSrestartComplete c e s
  | .sfenceComplete c => Sys2Proof.Machine.execSfenceComplete c s
  | .depthSample c e => Sys2Proof.Machine.execDepthSample c e s
  | .patrolScrubRead st space word err => Sys2Proof.Machine.execPatrolScrubRead st space word err s
  | .rowSpareDone st => Sys2Proof.Machine.execRowSpareDone st s
  | .refresh st bank eye => Sys2Proof.Machine.execRefresh st bank eye s
  | .targetedRefresh st bank row => Sys2Proof.Machine.execTargetedRefresh st bank row s
  | .poisonStormFence st => Sys2Proof.Machine.execPoisonStormFence st s
  | .stackTrainingDone failed => Sys2Proof.Machine.execStackTrainingDone failed s
  | .stackInitDone => Sys2Proof.Machine.execStackInitDone s
  | .scatterAddSegment st => Sys2Proof.Machine.execScatterAddSegment st s
  | .scatterAddCommand st => Sys2Proof.Machine.execScatterAddCommand st s
  | .gatherCommand st => Sys2Proof.Machine.execGatherCommand st s
  | .engineCommandEnd st => Sys2Proof.Machine.execEngineCommandEnd st s
  | .stkFenceWrite r v => Sys2Proof.Machine.execStkFenceWrite r v s
  | .stackSlowCheck st mean others => Sys2Proof.Machine.execStackSlowCheck st mean others s
  | .stepAdvWrite r v => Sys2Proof.Machine.execStepAdvWrite r v s
  | .stepIncWrite r v => Sys2Proof.Machine.execStepIncWrite r v s
  | .snapDrain r v => Sys2Proof.Machine.execSnapDrain r v s
  | .snapRestore r v => Sys2Proof.Machine.execSnapRestore r v s
  | .snapRelease r v => Sys2Proof.Machine.execSnapRelease r v s
  | .snapAccept r v => Sys2Proof.Machine.execSnapAccept r v s
  | .drainSectionsAcked => Sys2Proof.Machine.execDrainSectionsAcked s
  | .drainHeaderAcked => Sys2Proof.Machine.execDrainHeaderAcked s
  | .drainValidAcked => Sys2Proof.Machine.execDrainValidAcked s
  | .drainFail why sec => Sys2Proof.Machine.execDrainFail why sec s
  | .restoreReadDone record => Sys2Proof.Machine.execRestoreReadDone record s
  | .poldoalWrite c => Sys2Proof.Machine.execPoldoalWrite c s
  | .poldoalRead c => Sys2Proof.Machine.execPoldoalRead c s
  | .atomicAdd c => Sys2Proof.Machine.execAtomicAdd c s
  | .atomicMax c => Sys2Proof.Machine.execAtomicMax c s
  | .atomicCas c => Sys2Proof.Machine.execAtomicCas c s
  | .writeAcc c => Sys2Proof.Machine.execWriteAcc c s
  | .poldoalNotify c => Sys2Proof.Machine.execPoldoalNotify c s
  | .poldoalFence c => Sys2Proof.Machine.execPoldoalFence c s
  | .send c => Sys2Proof.Machine.execSend c s
  | .rdmaWrite c => Sys2Proof.Machine.execRdmaWrite c s
  | .rdmaRead c => Sys2Proof.Machine.execRdmaRead c s
  | .fetchAdd c => Sys2Proof.Machine.execFetchAdd c s
  | .cmpSwap c => Sys2Proof.Machine.execCmpSwap c s
  | .packetSend ch full => Sys2Proof.Machine.execPacketSend ch full s
  | .reqReceive f p => Sys2Proof.Machine.execReqReceive f p s
  | .ackTimer ch => Sys2Proof.Machine.execAckTimer ch s
  | .ackReceive f p => Sys2Proof.Machine.execAckReceive f p s
  | .nackReceive f p => Sys2Proof.Machine.execNackReceive f p s
  | .respReceive f p => Sys2Proof.Machine.execRespReceive f p s
  | .retransmitTimeout ch psn => Sys2Proof.Machine.execRetransmitTimeout ch psn s
  | .helloReceive f p => Sys2Proof.Machine.execHelloReceive f p s
  | .helloTimer ch => Sys2Proof.Machine.execHelloTimer ch s
  | .byeReceive f p => Sys2Proof.Machine.execByeReceive f p s
  | .peerTimeout peer => Sys2Proof.Machine.execPeerTimeout peer s
  | .probeTimer peer => Sys2Proof.Machine.execProbeTimer peer s
  | .probeReceive f p => Sys2Proof.Machine.execProbeReceive f p s
  | .probeReplyReceive f p => Sys2Proof.Machine.execProbeReplyReceive f p s
  | .subportDown sub why => Sys2Proof.Machine.execSubportDown sub why s
  | .portFenceWrite r p v => Sys2Proof.Machine.execPortFenceWrite r p v s
  | .pfcFrameReceive f enable times => Sys2Proof.Machine.execPfcFrameReceive f enable times s
  | .pfcXoffSend sub prio => Sys2Proof.Machine.execPfcXoffSend sub prio s
  | .pfcXonSend sub prio => Sys2Proof.Machine.execPfcXonSend sub prio s
  | .neighborEchoReceive f kind target => Sys2Proof.Machine.execNeighborEchoReceive f kind target s
  | .chCmdOpen r c => Sys2Proof.Machine.execChCmdOpen r c s
  | .chCmdClose r c => Sys2Proof.Machine.execChCmdClose r c s
  | .channelDrained ch => Sys2Proof.Machine.execChannelDrained ch s
  | .pqSizeWrite r c v => Sys2Proof.Machine.execPqSizeWrite r c v s
  | .fabricTableWrite r field ent v => Sys2Proof.Machine.execFabricTableWrite r field ent v s
  | .fabricEnableWrite r ent v => Sys2Proof.Machine.execFabricEnableWrite r ent v s
  | .qpCmdLoad r v => Sys2Proof.Machine.execQpCmdLoad r v s
  | .qpCmdReset r v => Sys2Proof.Machine.execQpCmdReset r v s
  | .qpCmdWriteback r v => Sys2Proof.Machine.execQpCmdWriteback r v s
  | .roceRequestReceive f q => Sys2Proof.Machine.execRoceRequestReceive f q s
  | .roceResponseReceive f qp psn a => Sys2Proof.Machine.execRoceResponseReceive f qp psn a s
  | .roceCnpReceive f qp => Sys2Proof.Machine.execRoceCnpReceive f qp s
  | .roceRetryTimeout qp => Sys2Proof.Machine.execRoceRetryTimeout qp s
  | .portModeWrite r p v => Sys2Proof.Machine.execPortModeWrite r p v s
  | .ledgerCheck => Sys2Proof.Machine.execLedgerCheck s
  | .fenceWriteoff pool => Sys2Proof.Machine.execFenceWriteoff pool s
  | .coreFenceWrite r v => Sys2Proof.Machine.execCoreFenceWrite r v s
  | .watchdogWarn c => Sys2Proof.Machine.execWatchdogWarn c s
  | .watchdogFence c => Sys2Proof.Machine.execWatchdogFence c s
  | .dqPost r q item => Sys2Proof.Machine.execDqPost r q item s
  | .dqClaim c rd kc => Sys2Proof.Machine.execDqClaim c rd kc s
  | .dqDone c kc gv => Sys2Proof.Machine.execDqDone c kc gv s
  | .recordAccept => Sys2Proof.Machine.execRecordAccept s
  | .recordWrite => Sys2Proof.Machine.execRecordWrite s
  | .recSelWrite r win v => Sys2Proof.Machine.execRecSelWrite r win v s
  | .recSizeWrite r v => Sys2Proof.Machine.execRecSizeWrite r v s
  | .pwrFailAssert => Sys2Proof.Machine.execPwrFailAssert s
  | .bbPageProgrammed => Sys2Proof.Machine.execBbPageProgrammed s
  | .bbEraseStart => Sys2Proof.Machine.execBbEraseStart s
  | .bbEraseDone => Sys2Proof.Machine.execBbEraseDone s
  | .linkCrcError e => Sys2Proof.Machine.execLinkCrcError e s
  | .doorbellMessage msg => Sys2Proof.Machine.execDoorbellMessage msg s
  | .intSet r v => Sys2Proof.Machine.execIntSet r v s
  | .intClr r v => Sys2Proof.Machine.execIntClr r v s
  | .claim r rd => Sys2Proof.Machine.execClaim r rd s
  | .complete r v => Sys2Proof.Machine.execComplete r v s
  | .powerOnReset supply => Sys2Proof.Machine.execPowerOnReset supply s
  | .resetRelease sysLow spareFail => Sys2Proof.Machine.execResetRelease sysLow spareFail s
  | .rstSysNAssert => Sys2Proof.Machine.execRstSysNAssert s
  | .sysRstWrite r v => Sys2Proof.Machine.execSysRstWrite r v s
  | .systemResetQuiesced => Sys2Proof.Machine.execSystemResetQuiesced s
  | .resetGlitch ball width => Sys2Proof.Machine.execResetGlitch ball width s
  | .coreRstWrite r c v => Sys2Proof.Machine.execCoreRstWrite r c v s
  | .coreResetDone c => Sys2Proof.Machine.execCoreResetDone c s
  | .optionLoadDone => Sys2Proof.Machine.execOptionLoadDone s
  | .optGoWrite r v => Sys2Proof.Machine.execOptGoWrite r v s
  | .romBoot a b => Sys2Proof.Machine.execRomBoot a b s
  | .stage1Boot a b => Sys2Proof.Machine.execStage1Boot a b s
  | .hubFwBoot a b config => Sys2Proof.Machine.execHubFwBoot a b config s
  | .coreRelease => Sys2Proof.Machine.execCoreRelease s
  | .recover img => Sys2Proof.Machine.execRecover img s
  | .sysreset => Sys2Proof.Machine.execSysreset s
  | .keyprog slot hash => Sys2Proof.Machine.execKeyprog slot hash s
  | .lcadv => Sys2Proof.Machine.execLcadv s
  | .extest => Sys2Proof.Machine.execExtest s
  | .samplePreload sampled preload => Sys2Proof.Machine.execSamplePreload sampled preload s
  | .idcode => Sys2Proof.Machine.execIdcode s
  | .bypass => Sys2Proof.Machine.execBypass s
  | .jtagDebug opcode => Sys2Proof.Machine.execJtagDebug opcode s
  | .svnCommit r v => Sys2Proof.Machine.execSvnCommit r v s
  | .fuseProgramDone => Sys2Proof.Machine.execFuseProgramDone s
  | .keyRevoke r v => Sys2Proof.Machine.execKeyRevoke r v s
  | .qCmd r win v => Sys2Proof.Machine.execQCmd r win v s
  | .quoteDone => Sys2Proof.Machine.execQuoteDone s
  | .extGo r win v => Sys2Proof.Machine.execExtGo r win v s
  | .pdCmdOn r d => Sys2Proof.Machine.execPdCmdOn r d s
  | .pdCmdOff r d => Sys2Proof.Machine.execPdCmdOff r d s
  | .rampSlotGrant die stack => Sys2Proof.Machine.execRampSlotGrant die stack s
  | .domainPowerupDone d => Sys2Proof.Machine.execDomainPowerupDone d s
  | .domainShutdownDone d => Sys2Proof.Machine.execDomainShutdownDone d s
  | .sensorSample readings => Sys2Proof.Machine.execSensorSample readings s
  | .powerMeasure watts => Sys2Proof.Machine.execPowerMeasure watts s
  | .pwrCapWrite r v => Sys2Proof.Machine.execPwrCapWrite r v s
  | .marginMonitor c slackPs below => Sys2Proof.Machine.execMarginMonitor c slackPs below s
  | .droopDetect c => Sys2Proof.Machine.execDroopDetect c s
  | .droopEnd c => Sys2Proof.Machine.execDroopEnd c s
  | .fSetWrite r c v => Sys2Proof.Machine.execFSetWrite r c v s
  | .frequencyChange c mv => Sys2Proof.Machine.execFrequencyChange c mv s
  | .vregTimeout c target mv => Sys2Proof.Machine.execVregTimeout c target mv s
  | .collMark r c v => Sys2Proof.Machine.execCollMark r c v s
  | .critWindowEnd => Sys2Proof.Machine.execCritWindowEnd s
  | .refclkLost => Sys2Proof.Machine.execRefclkLost s
  | .dapHello at_ m => Sys2Proof.Machine.execDapHello at_ m s
  | .dapConfirm at_ m => Sys2Proof.Machine.execDapConfirm at_ m s
  | .dapRead at_ m => Sys2Proof.Machine.execDapRead at_ m s
  | .dapWrite at_ m => Sys2Proof.Machine.execDapWrite at_ m s
  | .dapBlockRead at_ m => Sys2Proof.Machine.execDapBlockRead at_ m s
  | .dapClose at_ m => Sys2Proof.Machine.execDapClose at_ m s
  | .certGet at_ m => Sys2Proof.Machine.execCertGet at_ m s
  | .dapIdleTimeout vlan slot => Sys2Proof.Machine.execDapIdleTimeout vlan slot s
  | .challengeTimeout => Sys2Proof.Machine.execChallengeTimeout s
  | .mgmtIcmpReceive kind target => Sys2Proof.Machine.execMgmtIcmpReceive kind target s
  | .optCommit r v => Sys2Proof.Machine.execOptCommit r v s
  | .optCommitPageDone => Sys2Proof.Machine.execOptCommitPageDone s
  | .descSelWrite r c v => Sys2Proof.Machine.execDescSelWrite r c v s
  | .dictionaryWrite r index sub off v => Sys2Proof.Machine.execDictionaryWrite r index sub off v s
  | .pwrFailNRelease => Sys2Proof.Machine.execPwrFailNRelease s
  | .refclkGood => Sys2Proof.Machine.execRefclkGood s
  | .subportLinkUp sub => Sys2Proof.Machine.execSubportLinkUp sub s
  | .stackTemperatureChange st temp => Sys2Proof.Machine.execStackTemperatureChange st temp s
  | .pfcPauseTimeEnd sub prio => Sys2Proof.Machine.execPfcPauseTimeEnd sub prio s
  | .cnpRateRecovery qp => Sys2Proof.Machine.execCnpRateRecovery qp s
  | .rnrRetryTimer qp => Sys2Proof.Machine.execRnrRetryTimer qp s
  | .pauseFrameReceive f => Sys2Proof.Machine.execPauseFrameReceive f s
  | .testLogicReset => Sys2Proof.Machine.execTestLogicReset s
  | .challengeSend => Sys2Proof.Machine.execChallengeSend s
  | .acceptSend => Sys2Proof.Machine.execAcceptSend s

end Sys2Proof.Machine
end

