-- ==== Sys2Proof/Machine/Tick.lean ====
section
/-!
DEFINITION. One tick of the hub reference, 10 ns (R378): local time, core cycles, the watchdog's count, and the counters
that count cycles (R56, R162, R251, R370, R442). The step takes a tick where no command waits.
-/
namespace Sys2Proof.Machine

/-- Whole cycles of the core in this tick, and the quarters left over: f_now is a multiple of 25 MHz. -/
def CoreState.tickCycles (x : CoreState) : Nat × BitVec 2 :=
  let q := x.ctl.cycleFrac.toNat + x.pow.fNow.toNat / 25
  (q / 4, BitVec.ofNat 2 q)

/-- The load engine a tile instruction waits on for its next row. -/
def CoreState.waitsOn (x : CoreState) : Option (Fin 4) :=
  let r := x.ctl.trestart.toNat
  match x.tile.op with
  | some (.qstat q) =>
    if r < q.k ∧ (x.rowOf q.src (statShape q.tfmt q.n q.tsc) r).isNone then some q.src.engine else none
  | some (.qmma q) =>
    if (x.rowOf q.src (streamShape q.sfmt q.k q.ssc) r).isNone then some q.src.engine else none
  | _ => none

/-- A tensor form in progress waits for data of load engine e (R216, R251). -/
def CoreState.formWaitsOn (x : CoreState) (e : Nat) : Bool :=
  x.forms.any fun l => !l.asleep && l.waits.any fun w => w.val == e

/-- A qstat has issued and waits for a row (R162). -/
def CoreState.statWaits (x : CoreState) : Bool :=
  match x.tile.op with
  | some (.qstat _) => x.waitsOn.isSome
  | _ => false

/-- Engine e has a record or bytes to request and no tag, or no bank-group room (R247, R248, R251). -/
def State.engineLimited (s : State) (c : CoreId) (e : Nat) (x : Engine) : Bool :=
  let no := fun (a : Nat) => !(s.mayTag c e && s.bankFree c (s.bankOf a))
  match x.asking with
  | some r => no (x.nextAsk r).2.2.1
  | none => decide (e < 4) && x.mayBegin && no ((x.desc.recAddr x.origin x.next + x.skipOf x.next) % 2 ^ 64)

/-- Cycle counters of engine e after n cycles (R251). -/
def State.tickEngine (s : State) (c : CoreId) (n : Nat) (e : Nat) (x : Engine) : Engine :=
  if x.st ≠ .active then x
  else if 4 ≤ e then
    x.count fun k =>
      { k with windowFull := if x.asking.isSome && !x.queue.isEmpty then k.windowFull + w64 n else k.windowFull
               limited := if s.engineLimited c e x then k.limited + w64 n else k.limited }
  else
    let waits := ((s.core c).waitsOn.any fun w => w.val == e) || (s.core c).formWaitsOn e
    let full := x.asking.isNone && decide (x.next < x.desc.records) && !x.hasToken && !x.hasRoom
    x.count fun k =>
      { k with late := if waits && x.front.isSome then k.late + w64 n else k.late
               unissued := if waits && x.front.isNone then k.unissued + w64 n else k.unissued
               windowFull := if full then k.windowFull + w64 n else k.windowFull
               limited := if s.engineLimited c e x then k.limited + w64 n else k.limited }

/-- A core after a tick: its arithmetic clock runs while its domain is on (R56); what it waits for counts while it runs. -/
def State.tickCore (s : State) (c : CoreId) : CoreState :=
  let x := s.core c
  let n := x.tickCycles.1
  let ctl := { x.ctl with cycle := x.ctl.cycle + w64 n, cycleFrac := x.tickCycles.2 }
  if s.coreRuns c then
    { x with
      ctl := ctl
      wdTicks := if s.watched c then x.wdTicks + 1 else x.wdTicks
      tile := { x.tile with qc :=
        { x.tile.qc with hold := if x.tile.hold then x.tile.qc.hold + w64 n else x.tile.qc.hold
                         stall := if x.statWaits then x.tile.qc.stall + w64 n else x.tile.qc.stall } }
      str := { x.str with eng := x.str.eng.mapFinIdx fun e k _ => s.tickEngine c n e k } }
  else if s.coreOn c then { x with ctl := ctl }
  else x

/-- Cycles of the cores whose domain is on and that are not fenced; all, or those that mark a wait (R442). -/
def State.tickShare (s : State) (onlyMarked : Bool) : Nat :=
  ((List.finRange 64).map fun c =>
    let x := s.core c
    if s.coreOn c && x.fenceable && (!onlyMarked || x.pow.mark) then x.tickCycles.1 else 0).sum

/-- One tick; without REFCLK, one cycle of the 20 MHz always-on oscillator, which is five ticks of local time (R484). -/
def State.tick (s : State) : State :=
  { s with
    cores := Vector.ofFn fun c => s.tickCore c
    time := s.time + if s.rst.refclk then 1 else 5
    pow := { s.pow with marked := s.pow.marked + s.tickShare true, counted := s.pow.counted + s.tickShare false } }

end Sys2Proof.Machine
end

