-- ==== Sys2Proof/Safety.lean ====
section
/-!
DEFINITION. The terms of the statements: memory in its canonical form, fuses that only blow, a core that issues an
instruction now, and what a completed instruction leaves of the core that ran it.
-/
namespace Sys2Proof.Machine

/-! ### Invariants -/

/-- Data space and instruction space are in their canonical form. -/
def State.memWf (s : State) : Bool := Memory.wf s.mem.data && Memory.wf s.mem.istore

/-- A fuse program in progress started at the counter and goes up (R419). -/
def State.fuseUp (s : State) : Prop :=
  match s.rowan.fuse with
  | none => True
  | some p => p.old = s.rowan.svn ∧ p.old ≤ p.goal

/-- From s to t no fuse of Rowan has been restored: programmed keys, revoke bits, the rollback counter, the
lifecycle bits and the seed (R407, R419, R420). -/
structure FusesKept (s t : State) : Prop where
  keys : ∀ k : Fin 4, s.rowan.keys[k] ≠ 0 → t.rowan.keys[k] = s.rowan.keys[k]
  revoked : ∀ i : Nat, s.rowan.revoked.getLsbD i = true → t.rowan.revoked.getLsbD i = true
  svn : s.rowan.svn ≤ t.rowan.svn
  lifecycle : ∀ i : Nat, s.rowan.lcBits.getLsbD i = true → t.rowan.lcBits.getLsbD i = true
  seed : t.rowan.seed = s.rowan.seed

/-! ### One instruction -/

/-- Core c issues an instruction of len bytes now, and its fetch raises no cause and leaves t. -/
def Issues (s : State) (c : CoreId) (len : Nat) (t : State) : Prop := s.canIssue c = true ∧ s.fetch c len = (t, none)

/-- No hardware loop is active and the core does not single-step. -/
def Plain (t : State) (c : CoreId) : Prop := (t.core c).ctl.status.lm = false ∧ (t.core c).ctl.status.ss = false

/-- The core after an instruction of len bytes: the next address, instret, the watchdog (R56, R58, R370). -/
def CoreState.advanced (x : CoreState) (len : Nat) : CoreState :=
  { x with pcc := x.pcc.setCursor (x.pcc.cursor + w64 len), ctl := { x.ctl with instret := x.ctl.instret + 1 },
           wdTicks := 0, wdWarned := false }

/-- The same after a transfer to another program counter. -/
def CoreState.transferred (x : CoreState) (pcc : Cap) : CoreState :=
  { x with pcc := pcc, ctl := { x.ctl with instret := x.ctl.instret + 1 }, wdTicks := 0, wdWarned := false }

/-- A run stops nowhere: the step answers a next state. -/
def Goes (o : Host.Outcome State Fault Refusal) : Prop := ∃ t, o = .next t

/-! ### Scalar instructions: what the rules give -/

/-- A bit field of a from p, n long: bit i of the result (R62). -/
def fieldBit (a : Word) (p n i : Nat) (signed : Bool) : Bool :=
  if n = 0 then false
  else if i < n then (if p + i < 64 then a.getLsbD (p + i) else signed && a.getLsbD 63)
  else signed && (if p + n - 1 < 64 then a.getLsbD (p + n - 1) else a.getLsbD 63)

/-- The integer, bit-field and byte instructions over core c, destination rd and sources a, b, k, with a 12-bit immediate m,
a shift amount sh, a field (p, n) and a 32-bit immediate w: the instruction, its length, and what its value v is, from
the registers g (R60 to R63). -/
def aluTable (g : GReg → Word) (c : CoreId) (rd a b k : GReg) (m : BitVec 12) (sh p n : BitVec 6) (w : BitVec 32) :
    List (Instr × Nat × (Word → Prop)) :=
  [(.add c rd a b, 4, fun v => v.toNat = ((g a).toNat + (g b).toNat) % 2 ^ 64),
   (.sub c rd a b, 4, fun v => (v.toNat + (g b).toNat) % 2 ^ 64 = (g a).toNat),
   (.and c rd a b, 4, fun v => ∀ j < 64, v.getLsbD j = ((g a).getLsbD j && (g b).getLsbD j)),
   (.or c rd a b, 4, fun v => ∀ j < 64, v.getLsbD j = ((g a).getLsbD j || (g b).getLsbD j)),
   (.xor c rd a b, 4, fun v => ∀ j < 64, v.getLsbD j = ((g a).getLsbD j != (g b).getLsbD j)),
   (.andn c rd a b, 4, fun v => ∀ j < 64, v.getLsbD j = ((g a).getLsbD j && !(g b).getLsbD j)),
   (.sll c rd a b, 4, fun v => v.toNat = (g a).toNat * 2 ^ ((g b).toNat % 64) % 2 ^ 64),
   (.srl c rd a b, 4, fun v => v.toNat = (g a).toNat / 2 ^ ((g b).toNat % 64)),
   (.sra c rd a b, 4, fun v => v.toInt = (g a).toInt / 2 ^ ((g b).toNat % 64)),
   (.rol c rd a b, 4, fun v => ∀ j < 64, v.getLsbD ((j + (g b).toNat % 64) % 64) = (g a).getLsbD j),
   (.ror c rd a b, 4, fun v => ∀ j < 64, v.getLsbD j = (g a).getLsbD ((j + (g b).toNat % 64) % 64)),
   (.slt c rd a b, 4, fun v => v = if (g a).toInt < (g b).toInt then 1 else 0),
   (.sltu c rd a b, 4, fun v => v = if (g a).toNat < (g b).toNat then 1 else 0),
   (.min c rd a b, 4, fun v => v.toInt = min (g a).toInt (g b).toInt),
   (.max c rd a b, 4, fun v => v.toInt = max (g a).toInt (g b).toInt),
   (.minu c rd a b, 4, fun v => v.toNat = min (g a).toNat (g b).toNat),
   (.maxu c rd a b, 4, fun v => v.toNat = max (g a).toNat (g b).toNat),
   (.mul c rd a b, 4, fun v => v.toNat = (g a).toNat * (g b).toNat % 2 ^ 64),
   (.mulh c rd a b, 4, fun v => v.toInt = (g a).toInt * (g b).toInt / 2 ^ 64),
   (.mulhu c rd a b, 4, fun v => v.toNat = (g a).toNat * (g b).toNat / 2 ^ 64),
   (.mulhsu c rd a b, 4, fun v => v.toInt = (g a).toInt * (g b).toNat / 2 ^ 64),
   (.div c rd a b, 4,
      fun v => if g b = 0 then v = BitVec.allOnes 64
        else if g a = BitVec.intMin 64 ∧ (g b).toInt = -1 then v = BitVec.intMin 64
        else v.toInt = (g a).toInt.tdiv (g b).toInt),
   (.divu c rd a b, 4, fun v => if g b = 0 then v = BitVec.allOnes 64 else v.toNat = (g a).toNat / (g b).toNat),
   (.rem c rd a b, 4, fun v => if g b = 0 then v = g a else v.toInt = (g a).toInt.tmod (g b).toInt),
   (.remu c rd a b, 4, fun v => if g b = 0 then v = g a else v.toNat = (g a).toNat % (g b).toNat),
   (.sel c rd a b k, 4, fun v => v = if g k = 0 then g b else g a),
   (.addi c rd a m, 4, fun v => v.toNat = ((g a).toNat + (BitVec.ofInt 64 m.toInt).toNat) % 2 ^ 64),
   (.andi c rd a m, 4, fun v => ∀ j < 64, v.getLsbD j = ((g a).getLsbD j && (BitVec.ofInt 64 m.toInt).getLsbD j)),
   (.ori c rd a m, 4, fun v => ∀ j < 64, v.getLsbD j = ((g a).getLsbD j || (BitVec.ofInt 64 m.toInt).getLsbD j)),
   (.xori c rd a m, 4, fun v => ∀ j < 64, v.getLsbD j = ((g a).getLsbD j != (BitVec.ofInt 64 m.toInt).getLsbD j)),
   (.slli c rd a (sh.setWidth 12), 4, fun v => v.toNat = (g a).toNat * 2 ^ sh.toNat % 2 ^ 64),
   (.srli c rd a (sh.setWidth 12), 4, fun v => v.toNat = (g a).toNat / 2 ^ sh.toNat),
   (.srai c rd a (sh.setWidth 12), 4, fun v => v.toInt = (g a).toInt / 2 ^ sh.toNat),
   (.roli c rd a (sh.setWidth 12), 4, fun v => ∀ j < 64, v.getLsbD ((j + sh.toNat) % 64) = (g a).getLsbD j),
   (.clz c rd a, 4,
      fun v => v.toNat ≤ 64 ∧ (∀ j < v.toNat, (g a).getLsbD (63 - j) = false) ∧ (v.toNat < 64 → (g a).getLsbD (63 -
        v.toNat) = true)),
   (.ctz c rd a, 4,
      fun v => v.toNat ≤ 64 ∧ (∀ j < v.toNat, (g a).getLsbD j = false) ∧ (v.toNat < 64 → (g a).getLsbD v.toNat =
        true)),
   (.bperm c rd a b k, 4,
      fun v => ∀ j < 8, let q := ((g k).extractLsb' (8 * j) 4).toNat; v.extractLsb' (8 * j) 8 = if (g k).getLsbD (8 *
        j + 7) then 0 else if q < 8 then (g a).extractLsb' (8 * q) 8 else (g b).extractLsb' (8 * (q - 8)) 8),
   (.bfext c rd a p n, 4, fun v => ∀ j < 64, v.getLsbD j = fieldBit (g a) p.toNat n.toNat j false),
   (.bfexts c rd a p n, 4, fun v => ∀ j < 64, v.getLsbD j = fieldBit (g a) p.toNat n.toNat j true),
   (.bfins c rd a p n, 4,
      fun v => ∀ j < 64, v.getLsbD j = if p.toNat ≤ j ∧ j < p.toNat + n.toNat then (g a).getLsbD (j - p.toNat) else (g
        rd).getLsbD j),
   (.bfextr c rd a b, 4,
      fun v => ∀ j < 64, v.getLsbD j = fieldBit (g a) ((g b).toNat % 64) ((g b).toNat / 256 % 64) j false),
   (.bfextsr c rd a b, 4,
      fun v => ∀ j < 64, v.getLsbD j = fieldBit (g a) ((g b).toNat % 64) ((g b).toNat / 256 % 64) j true),
   (.bfinsr c rd a b, 4,
      fun v => ∀ j < 64, v.getLsbD j = if (g b).toNat % 64 ≤ j ∧ j < (g b).toNat % 64 + (g b).toNat / 256 % 64 then (g
        a).getLsbD (j - (g b).toNat % 64) else (g rd).getLsbD j),
   (.li c rd w, 8, fun v => v = BitVec.ofInt 64 w.toInt),
   (.lih c rd w, 8, fun v => v.toNat = w.toNat * 2 ^ 32 + (g rd).toNat % 2 ^ 32)]

/-- One scalar access of n bytes at a under k may be made (R65 steps 1 to 6). -/
structure MayAccess (t : State) (k : Cap) (p : Nat) (a : Word) (n : Nat) : Prop where
  tagged : k.tag = true
  free : k.isSealed = false
  permitted : k.has p = true
  above : k.base ≤ a.toNat
  below : a.toNat + n ≤ k.top
  aligned : a.toNat % n = 0
  mapped : (t.region a.toNat).mapped = true
  fabric : t.region a.toNat = .hub → k.has permFabric = true

/-- fn, bytes and extension of the loads (R65). -/
def loadTable : List (BitVec 3 × Nat × (Nat → Word)) :=
  [(0, 1, fun v => (BitVec.ofNat 8 v).signExtend 64), (1, 2, fun v => (BitVec.ofNat 16 v).signExtend 64),
   (2, 4, fun v => (BitVec.ofNat 32 v).signExtend 64), (3, 8, fun v => BitVec.ofNat 64 v),
   (4, 1, fun v => BitVec.ofNat 64 v), (5, 2, fun v => BitVec.ofNat 64 v), (6, 4, fun v => BitVec.ofNat 64 v)]

/-- fn and bytes of the stores (R65). -/
def storeTable : List (BitVec 3 × Nat) := [(0, 1), (1, 2), (2, 4), (3, 8)]

/-- Number and value of each control register that mfc reads (R56). -/
def ctlTable (x : CoreState) (c : CoreId) : List (Nat × Word) :=
  let t := x.ctl
  [(0x00, t.status.toWord), (0x01, t.xcause.setWidth 64), (0x02, t.xaddr), (0x03, t.vresume.setWidth 64),
   (0x04, t.trestart.setWidth 64),
   (0x08, (if t.fmtSat then 1 else 0) + (if t.fmtDnan then 2 else 0)),
   (0x09, BitVec.ofNat 64 (t.rm.toNat + 2 ^ 32 * t.tid.toNat)), (0x0A, t.fflags.setWidth 64), (0x0B, t.rngctr),
   (0x0C, t.vl.setWidth 64), (0x0D, if t.oor then 1 else 0),
   (0x10, t.lc0), (0x11, t.ls0), (0x12, t.le0), (0x13, t.lc1), (0x14, t.ls1), (0x15, t.le1),
   (0x18, t.iostat.setWidth 64), (0x1C, t.rplfsr.setWidth 64), (0x20, t.cycle), (0x21, t.instret),
   (0x22, BitVec.ofNat 64 (c.val + 256 * x.phys.toNat))]

/-- Number of each control register that mtc writes without a permission, and the registers after it (R56, R78, R82). -/
def ctlWrites (t : Control) (v : Word) : List (Nat × Control) :=
  [(0x01, { t with xcause := v.setWidth 16 }), (0x02, { t with xaddr := v }), (0x03, { t with vresume := v.setWidth 15 }),
   (0x04, { t with trestart := v.setWidth 11 }), (0x08, { t with fmtSat := v.getLsbD 0, fmtDnan := v.getLsbD 1 }),
   (0x09, { t with rm := v.setWidth 3, tid := BitVec.ofNat 32 (v.toNat / 2 ^ 32) }),
   (0x0D, { t with oor := v.getLsbD 0 }),
   (0x1C, { t with rplfsr := if v.toNat % 65536 = 0 then 0xACE1 else v.setWidth 16 }), (0x0A, { t with fflags := v.setWidth 6 }), (0x0B, { t with rngctr := v }),
   (0x0C, { t with vl := BitVec.ofNat 15 (min v.toNat 16384) }), (0x10, { t with lc0 := v }),
   (0x11, { t with ls0 := BitVec.ofNat 64 (v.toNat / 4 * 4) }), (0x12, { t with le0 := BitVec.ofNat 64 (v.toNat / 4 * 4) }),
   (0x13, { t with lc1 := v }), (0x14, { t with ls1 := BitVec.ofNat 64 (v.toNat / 4 * 4) }),
   (0x15, { t with le1 := BitVec.ofNat 64 (v.toNat / 4 * 4) })]

/-! ### Block repeats, capabilities, shadow bank -/

/-- Instruction i, len bytes long, completes: u is what its own effect leaves, and core c steps past it. -/
def Completes (i : Instr) (s : State) (c : CoreId) (len : Nat) (u : State) : Prop :=
  exec i s = .next (u.setCore c ((u.core c).advanced len))

/-- Instruction i, len bytes long, completes in some u of which P holds, and core c steps past it. -/
def CompletesIn (i : Instr) (s : State) (c : CoreId) (len : Nat) (P : State → Prop) : Prop :=
  ∃ u, Completes i s c len u ∧ P u

/-- Core c raises k at the instruction that runs in t. -/
def Traps (i : Instr) (s t : State) (c : CoreId) (k : Cause) : Prop := exec i s = .next (t.takeCause c k (t.pc c))

/-- k is tagged and unsealed (R98). -/
def Cap.usable (k : Cap) : Prop := k.tag = true ∧ k.isSealed = false

/-- Line n may be cleaned or dropped under k at a (R67). -/
structure MayMaintain (t : State) (k : Cap) (a : Word) : Prop where
  usable : k.usable
  permitted : k.has permLoad = true ∨ k.has permStore = true
  above : k.base ≤ a.toNat
  below : a.toNat + 128 ≤ k.top
  mapped : (t.region a.toNat).mapped = true
  fabric : t.region a.toNat = .hub → k.has permFabric = true

/-- j may seal or unseal: usable, holding p, its cursor within its bounds (R98). -/
structure MaySeal (j : Cap) (p : Nat) : Prop where
  usable : j.usable
  permitted : j.has p = true
  above : j.base ≤ j.cursor.toNat
  below : j.cursor.toNat < j.top

/-- The instructions that write a capability register kd: the instruction, what it needs, the capability (R97, R98, R103). -/
def capTable (t : State) (c : CoreId) (kd ks1 ks2 : KReg) (g : GReg) (n : BitVec 5) : List (Instr × Prop × Cap) :=
  let x := t.core c
  let k := t.getK c ks1
  let j := t.getK c ks2
  let v := t.getG c g
  [(.kmov c kd ks1, True, k),
   (.kstep c kd ks1 g, k.usable, k.setCursor (k.cursor + v)),
   (.kpoint c kd ks1 g, k.usable, k.setCursor v),
   (.kperm c kd ks1 g, k.usable, k.setPerms (k.perms &&& v.setWidth 16)),
   (.klock c kd ks1 ks2,
      k.usable ∧ MaySeal j permSeal ∧ j.cursor ≠ 0 ∧ j.cursor.toNat ≤ 0x7F ∧ ¬(0x60 ≤ j.cursor.toNat ∧ j.cursor.toNat ≤ 0x7D),
      k.sealAs (j.cursor.setWidth 7)),
   (.kunlock c kd ks1 ks2,
      k.tag = true ∧ k.isSealed = true ∧ MaySeal j permUnseal ∧ k.otype.toNat = j.cursor.toNat, k.unseal),
   (.kstrip c kd ks1, True, k.strip),
   (.kpc c kd g, True, x.pcc.setCursor (x.pcc.cursor + v)),
   (.kmfc c kd 0, x.pcc.has permMask = true, x.xvcc),
   (.kmfc c kd 1, x.pcc.has permMask = true, x.xdcc),
   (.mfsk c kd n, n.toNat < 16, vget x.shadow.k n.toNat capNull),
   (.mfsk c kd 16, True, x.shadow.pcc)]

/-- The instructions that write a general register gd from capabilities or the shadow bank (R98, R103). -/
def capReads (t : State) (c : CoreId) (gd : GReg) (ks1 ks2 : KReg) (n : BitVec 5) : List (Instr × Prop × Word) :=
  let x := t.core c
  let k := t.getK c ks1
  let j := t.getK c ks2
  [(.kread c gd ks1 0, True, k.cursor),
   (.kread c gd ks1 1, k.boundsGiven = true, BitVec.ofNat 64 k.base),
   (.kread c gd ks1 2, k.boundsGiven = true, BitVec.ofNat 64 (min (k.top - k.base) (2 ^ 64 - 1))),
   (.kread c gd ks1 3, True, k.perms.setWidth 64),
   (.kread c gd ks1 4, True, k.otype.setWidth 64),
   (.kread c gd ks1 5, True, if k.isSealed then 1 else 0),
   (.kread c gd ks1 6, True, if k.tag then 1 else 0),
   (.kwithin c gd ks1 ks2, True,
      if k.tag = true ∧ j.tag = true ∧ j.base ≤ k.base ∧ k.top ≤ j.top ∧ k.perms &&& ~~~j.perms = 0 then 1 else 0),
   (.mfsg c gd n, n ≠ 0, vget x.shadow.g n.toNat 0),
   (.mfss c gd, True, x.shadow.status.toWord)]

/-- The instructions that write the shadow bank or a capability control register: the core they leave (R97, R103). -/
def shadowWrites (t : State) (c : CoreId) (ks1 : KReg) (g : GReg) (n : BitVec 5) : List (Instr × Prop × CoreState) :=
  let x := t.core c
  let h := x.shadow
  let k := t.getK c ks1
  let v := t.getG c g
  [(.kmtc c 0 ks1, x.pcc.has permMask = true, { x with xvcc := k }),
   (.kmtc c 1 ks1, x.pcc.has permMask = true, { x with xdcc := k }),
   (.mtsg c n g, n ≠ 0, { x with shadow := { h with g := vset h.g n.toNat v } }),
   (.mtsk c n ks1, n.toNat < 16, { x with shadow := { h with k := vset h.k n.toNat k } }),
   (.mtsk c 16 ks1, True, { x with shadow := { h with pcc := k } }),
   (.mtss c g, True,
      { x with shadow := { h with status := ⟨v.getLsbD 0, v.getLsbD 1, h.status.sb, v.getLsbD 3⟩ } }),
   (.xadv c n, True, { x with shadow := { h with pcc := h.pcc.setCursor (h.pcc.cursor + BitVec.ofInt 64 (4 * n.toInt)) } })]

/-- xret's checks pass (R106). -/
structure MayReturn (x : CoreState) : Prop where
  bank : x.ctl.status.sb = true
  tagged : x.shadow.pcc.tag = true
  gate : x.shadow.pcc.isSealed = true ∧ x.shadow.pcc.otype = 0x7F
  exec : x.shadow.pcc.has permExec = true
  above : x.shadow.pcc.base ≤ x.shadow.pcc.cursor.toNat
  below : x.shadow.pcc.cursor.toNat < x.shadow.pcc.top
  aligned : x.shadow.pcc.cursor.toNat % 4 = 0
  mask : x.shadow.status.ie = true ∨ x.pcc.has permMask = true
  debug : x.shadow.status.ss = false ∨ x.pcc.has permDebug = true

/-- Core c, entered from x with its registers saved for a return to `saved` (R101). -/
def EntryOf (x y : CoreState) (saved : Word) : Prop :=
  y.shadow.g = x.g ∧ y.shadow.k = x.k ∧ y.shadow.status = x.ctl.status ∧ y.shadow.pcc.cursor = saved ∧
    y.shadow.pcc.isSealed = true ∧ y.shadow.pcc.otype = 0x7F ∧ y.pcc = x.xvcc ∧ y.g = x.g ∧ y.k = x.k.set 15 x.xdcc ∧
    y.ctl.status = ⟨false, false, true, false⟩

/-! ### Commands from outside the cores -/

/-- Command i answers a next state of which P holds. -/
def Does (i : Instr) (s : State) (P : State → Prop) : Prop := ∃ u, exec i s = .next u ∧ P u

/-- The records on their way to the recorder are those of s and one more (R375). -/
def Logs (s u : State) (sev : BitVec 3) (code : BitVec 16) (source p0 p1 p2 : BitVec 32) : Prop :=
  u.recd.inFlight = s.recd.inFlight ++ [⟨sev, code, source, p0, p1, p2⟩]

/-- Everything but the registers of core c that a fence changes is as it was: no other core changes. -/
def OthersKept (s u : State) (c : CoreId) : Prop := ∀ d : CoreId, d ≠ c → u.core d = s.core d

/-- The items core c holds stand again at the heads of their queues, in the order in which it claimed them, counted in
dq_requeued; it holds none (R373). -/
def Requeued (s u : State) (c : CoreId) : Prop :=
  (u.core c).items = [] ∧ ∀ q : Fin 5,
    let back := ((s.core c).items.filter fun e => e.1 == q).map fun e => e.2
    (u.queue q).items = back ++ (s.queue q).items ∧
      (u.queue q).requeued = (s.queue q).requeued + BitVec.ofNat 32 back.length

/-- The ledgers of the claims that core c holds can take them back: none would fail for it (R366). -/
def ClaimsSound (s : State) (c : CoreId) : Prop :=
  ∀ q : Fin 5, let l := s.ledger (0x78 + q.val)
    l.whole = true ∧ l.wroteOff = false ∧ ((s.core c).items.filter fun e => e.1 == q).length ≤ l.outstanding.val.toNat

/-- Every stream of core c is cancelled: an idle engine stays as it is; a load engine drops what it buffers and what is still to
arrive, a store engine every record whose first request has not issued (R241). -/
def StreamsCancelled (s u : State) (c : CoreId) : Prop :=
  ∀ e : Fin 6, let x := s.eng c e.val
    let y := u.eng c e.val
    (x.st = .idle → y = x) ∧
    (x.st ≠ .idle → y.st = .cancelling ∧
      (e.val < 4 → y.recs = [] ∧ ∀ q ∈ y.reqs, q.dead = true) ∧
      (4 ≤ e.val → y.queue = [] ∧ y.partData = [] ∧ y.partScale = [] ∧ y.reqs = x.reqs ∧
        y.recs = x.recs.filter fun r => decide (r.toAsk < r.size)))

/-- From t to u core c meets a double fault: its second cause has this code and gives this address. It is fenced, its shadow bank
is as it was, its items are back, and the record says so (R102). -/
structure DoubleFault (t u : State) (c : CoreId) (code : BitVec 6) (addr : Word) : Prop where
  xcause : (u.core c).ctl.xcause = 63
  xaddr : (u.core c).ctl.xaddr = addr
  fenced : (u.core c).cond = .fenced
  shadow : (u.core c).shadow = (t.core c).shadow
  stops : u.canIssue c = false
  items : Requeued t u c
  others : OthersKept t u c
  mem : u.mem = t.mem
  reported : ⟨7, 0x0101, BitVec.ofNat 32 c.val, code.setWidth 32, (t.core c).ctl.xcause.setWidth 32, addr.setWidth 32⟩ ∈ u.recd.inFlight

/-- The event that core c takes first is the one with this code (R107, R108). -/
def FirstEvent (s : State) (c : CoreId) (code : BitVec 6) : Prop :=
  let n := (s.core c).notice
  (code = 57 ∧ n.error = true) ∨ (code = 58 ∧ n.error = false ∧ n.watchdog = true) ∨
  (code = 59 ∧ n.error = false ∧ n.watchdog = false ∧ n.power = true) ∨
  (code = 56 ∧ n.error = false ∧ n.watchdog = false ∧ n.power = false ∧ ∃ i, s.deliverable c.val i = true)

/-- A drain in phase n of its record (R299, R300). -/
def DrainIn (s : State) (j : DrainJob) (n : Fin 3) : Prop :=
  s.train.job = some j ∧ j.restore = false ∧ j.phase = n ∧ s.rst.phase = .ready

/-- What an accepted snapshot command samples (R299). -/
def Samples (s : State) (j : DrainJob) (b : Fin 2) (es : List Extent) : Prop :=
  j.buf = b ∧ j.extents = es ∧ j.key = s.train.keyHi.val ++ s.train.keyLo.val ∧ j.step = s.train.step.val ∧
    j.dataPos = s.train.dataPos.val ∧ j.sps = s.train.sps.val ∧ j.stepBase = s.train.stepBase.val ∧
    j.tag = s.train.snapTag ∧ j.time = s.time ∧ j.phase = 0

/-! ### The Dictionary Access Protocol -/

/-- A datagram of type typ arrives where DAP listens, with a right header and length, and leaves t (R459, R460, R468). -/
structure Arrives (s t : State) (x : DapFrom) (m : DapMsg) (typ : Nat) : Prop where
  taken : s.dapArrive x = (t, true)
  formed : dapWellFormed m typ = true

/-- An authenticated message of session x in slot i, with a sequence number the session has not seen (R463). -/
structure InSession (s : State) (vlan : Bool) (i : Fin 4) (x : Session) (m : DapMsg) : Prop where
  slot : s.sessionSlot vlan m.session = some i
  session : s.sessionAt vlan i = some x
  tag : m.tag = some (dapTag x.keyIn m)
  fresh : x.lastSeq < m.seq

/-- The device sends to p at once: its port has a MAC, or the data sub-port sends and its priority 7 is not paused (R321, R493). -/
def CanSend (s : State) (p : DapPeer) : Prop :=
  match p.sub with
  | none => s.mgmt.mac ≠ 0
  | some k => s.subSends k.val = true ∧ (s.sub k.val).paused.getLsbD 7 = false

/-- What is sent is r to p, with the headers of its path (R320, R459, R468). -/
def SendsDap (s u : State) (p : DapPeer) (r : DapMsg) : Prop :=
  u.fab.tx = s.fab.tx ++ [.dap p (p.sub.map fun k => s.dapLink p k) p.ipHead s.mgmt.dapPort r]

/-- The request fields of a READ, WRITE or BLOCK_READ body (R464). -/
def Asks (m : DapMsg) (index sub off len : Nat) : Prop :=
  fieldNat m.body 0 2 = index ∧ fieldNat m.body 2 1 = sub ∧ fieldNat m.body 4 2 = off ∧ fieldNat m.body 6 2 = len

/-- u answers m in slot i to p: session x has moved on to m's number, and a RESPONSE with this status and data is sent and kept. -/
def Answered (s u : State) (p : DapPeer) (i : Fin 4) (x : Session) (m : DapMsg) (status : Byte) (data : List Byte) : Prop :=
  ∃ (r : DapMsg) (y : Session), u.sessionAt p.vlan i = some y ∧ y.id = x.id ∧ y.lastSeq = m.seq ∧ y.stored = some r ∧
    SendsDap s u p r ∧ r.typ = 9 ∧ r.session = x.id ∧ r.tag = some (dapTag x.keyOut { r with tag := none }) ∧
    r.body.getD 0 0xFF = status ∧ r.body.drop 4 = data

/-! ### Vectors (chapters 5 and 8) -/

/-- A vector instruction of core c issues now, no hardware loop is active, and no drain delivers to vector registers. -/
def VecIssues (s t : State) (c : CoreId) : Prop :=
  Issues s c 8 t ∧ Plain t c ∧ (t.core c).tile.drains.any Drain.toVectors = false

/-- cfg and rm are zero and fmt is no reserved code (R114, R122). -/
def VrPlain (f : VrFields) : Prop := f.cfg = 0 ∧ f.rm = 0 ∧ f.fmt ≠ 15

/-- Element e of core c is written: from the starting index to vl − 1 (R111, R115). -/
abbrev inBody (t : State) (c : CoreId) (e : Nat) : Prop :=
  (t.core c).ctl.vresume.toNat ≤ e ∧ e < (t.core c).ctl.vl.toNat

/-- The group of g registers at vd after a form that gives element e of w bytes the value `val e`: elements of the body that
are active take it, masked-off ones zero where zm = 1, and every other element, every other register and every mask is as
before (R115, R116, R118). `body` says which elements the form reaches. -/
structure WritesElems (x y : Vectors) (f : VrFields) (vd g w : Nat) (body : Nat → Prop) (val : Nat → Nat) : Prop where
  active : ∀ e < capacity g w, body e → x.active f.me f.ms.val e w = true → y.elem vd e w = val e
  zeroed : ∀ e < capacity g w, body e → x.active f.me f.ms.val e w = false → f.zm = true → y.elem vd e w = 0
  masked : ∀ e < capacity g w, body e → x.active f.me f.ms.val e w = false → f.zm = false → y.elem vd e w = x.elem vd e w
  tail : ∀ e < capacity g w, ¬body e → y.elem vd e w = x.elem vd e w
  others : ∀ b, (b < 2048 * vd ∨ 2048 * (vd + g) ≤ b) → cellGet y.v b = cellGet x.v b
  masks : y.m = x.m

/-- The same for a mask: all w bits of element e take the value (R120, R121). -/
structure WritesMask (x y : Vectors) (f : VrFields) (w : Nat) (body : Nat → Prop) (val : Nat → Bool) : Prop where
  active : ∀ e b, w * e + w ≤ 16384 → b < w → body e → x.active f.me f.ms.val e w = true →
    flagGet y.m (16384 * f.vd.val + w * e + b) = val e
  zeroed : ∀ e b, w * e + w ≤ 16384 → b < w → body e → x.active f.me f.ms.val e w = false → f.zm = true →
    flagGet y.m (16384 * f.vd.val + w * e + b) = false
  masked : ∀ e b, w * e + w ≤ 16384 → b < w → body e → x.active f.me f.ms.val e w = false → f.zm = false →
    flagGet y.m (16384 * f.vd.val + w * e + b) = flagGet x.m (16384 * f.vd.val + w * e + b)
  tail : ∀ e b, w * e + w ≤ 16384 → b < w → ¬body e →
    flagGet y.m (16384 * f.vd.val + w * e + b) = flagGet x.m (16384 * f.vd.val + w * e + b)
  others : ∀ n, (n < 16384 * f.vd.val ∨ 16384 * (f.vd.val + 1) ≤ n) → flagGet y.m n = flagGet x.m n
  vectors : y.v = x.v

/-- Core x with other vectors and with vresume 0: what a vector form that writes nothing else leaves (R111). -/
def CoreState.withVec (x : CoreState) (y : Vectors) : CoreState := { x with vec := y, ctl := { x.ctl with vresume := 0 } }

/-- The mask operations (R121): the instruction, its mask fields and the bit from the bits of vs1 and vs2. -/
def maskTable (c : CoreId) (f : VrFields) : List (Instr × List (Fin 32) × (Bool → Bool → Bool)) :=
  [(.mand c f, [f.vd, f.vs1, f.vs2], fun a b => a && b), (.mor c f, [f.vd, f.vs1, f.vs2], fun a b => a || b),
   (.mxor c f, [f.vd, f.vs1, f.vs2], fun a b => xor a b), (.mandn c f, [f.vd, f.vs1, f.vs2], fun a b => a && !b),
   (.mnot c f, [f.vd, f.vs1], fun a _ => !a), (.mset c f, [f.vd], fun _ _ => true)]

/-- Elements of the body that are active and whose bit under mask vs1 is 1 (R121). -/
def hitsOf (t : State) (c : CoreId) (f : VrFields) : List Nat :=
  let x := (t.core c).vec
  (List.range (t.core c).ctl.vl.toNat).filter fun e =>
    decide ((t.core c).ctl.vresume.toNat ≤ e) && x.active f.me f.ms.val e (vrWidth f) && x.maskBit f.vs1.val e (vrWidth f)

/-- Active elements below vl, in order (R132). -/
def activeOf (t : State) (c : CoreId) (f : VrFields) : List Nat :=
  (List.range (t.core c).ctl.vl.toNat).filter fun e => (t.core c).vec.active f.me f.ms.val e (vrWidth f)

/-- Operand groups a and b of g registers share none. -/
def groupsApart (a b g : Nat) : Prop := a + g ≤ b ∨ b + g ≤ a

/-- The permutations that move elements of vs1 or of a general register to vd: the instruction, what it needs beyond the common
checks, and the value of element e (R132). -/
def permTable (t : State) (c : CoreId) (f : VrFields) : List (Instr × Prop × (Nat → Nat)) :=
  let x := (t.core c).vec
  let w := vrWidth f
  let g := 2 ^ f.grp.toNat
  let v := (t.getG c f.vs3).toNat
  let vl := (t.core c).ctl.vl.toNat
  let from1 := fun e => x.elem f.vs1.val e w
  [(.vmv c f, f.vs1.val % g = 0, from1),
   (.vbcast c f, True, fun _ => v % 2 ^ (8 * w)),
   (.vslidedown c f, f.vs1.val % g = 0 ∧ groupsApart f.vd.val f.vs1.val g, fun e => if e + v < vl then from1 (e + v) else 0),
   (.vexpand c f, f.me = true ∧ f.vs1.val % g = 0 ∧ groupsApart f.vd.val f.vs1.val g,
      fun e => from1 ((activeOf t c f).filter fun j => decide (j < e)).length)]

/-- The pool of a die's credits or of a stack's request queue (R16, R364). -/
def CreditPool (id : Nat) : Prop := (0x50 ≤ id ∧ id < 0x54) ∨ (0x60 ≤ id ∧ id < 0x70)

/-- Requests have gone from t to u: rows count their activations and what these set off (R267), the ledgers of dies and stacks
what passed through them, with as much outstanding and free as before; all else is as it was. -/
structure Reads (t u : State) : Prop where
  rest : u = { t with stks := u.stks, cont := { t.cont with ledgers := u.cont.ledgers } }
  tracks : ∀ st : StackId, u.stack st = { t.stack st with act := (u.stack st).act, trr := (u.stack st).trr }
  others : ∀ id, ¬CreditPool id → u.ledger id = t.ledger id
  balance : ∀ id, (u.ledger id).outstanding = (t.ledger id).outstanding ∧ (u.ledger id).free = (t.ledger id).free

/-- The instruction of core c starts now: no form waits or sleeps at its address (R49, R83). -/
def FormFresh (t : State) (c : CoreId) : Prop := ∀ l ∈ (t.core c).forms, l.pc ≠ t.pc c

/-- No stack of [a, a + n) is fenced, and no word of it is poisoned or holds an error. -/
structure SoundAt (t : State) (a n : Nat) : Prop where
  serves : ∀ j < n, ∀ st, (t.region (a + j)).stack? = some st → (t.stack st).st ≠ .fenced
  sound : ∀ e ∈ t.mem.latent, e.1 < a / 32 ∨ (a + n - 1) / 32 < e.1 ∨ e.2 = .none
  clean : ∀ j < n, sparseGet (fun _ => (0 : BitVec 3)) t.mem.poison ((a + j) / 32) = 0

/-- The same, and no L1 or victim cache holds a line of it. -/
structure PlainAt (t : State) (a n : Nat) : Prop where
  sound : SoundAt t a n
  uncached : ∀ (c : CoreId) (l : Nat), a / 128 ≤ l → l ≤ (a + n - 1) / 128 → (t.core c).cache.holds l = false

/-- [a, a + n) may be reached under k with permission p (R127 step 2). -/
structure MayReach (t : State) (k : Cap) (a : Word) (n align : Nat) : Prop where
  above : k.base ≤ a.toNat
  below : a.toNat + n ≤ k.top
  space : a.toNat + n ≤ 2 ^ 64
  aligned : a.toNat % align = 0
  mapped : ∀ j < n, (t.region (a.toNat + j)).mapped = true
  fabric : ∀ j < n, t.region (a.toNat + j) = .hub → k.has permFabric = true

/-- Address of element (or structure) e of a memory form of mode m with nf fields of w bytes (R126). -/
def vmElemAddr (t : State) (c : CoreId) (f : VmFields) (m : VmMode) (w nf e : Nat) : Word :=
  let base := (t.getK c f.kb).cursor + BitVec.ofInt 64 f.off16.toInt
  match m with
  | .unit => base + BitVec.ofNat 64 (w * e)
  | .strided => base + t.getG c f.gs * BitVec.ofNat 64 e
  | .indexed => base + BitVec.ofNat 64 ((t.core c).vec.elem f.vi.val e (if f.iw then 8 else 4))
  | .structure => base + BitVec.ofNat 64 (w * nf * e)

/-- Issue conditions of a memory form on elements of w whole bytes (R113, R117, R122, R126, R127 step 1). -/
structure VmIssues (t : State) (c : CoreId) (f : VmFields) (m : VmMode) (store : Bool) (w nf : Nat) : Prop where
  usable : (t.getK c f.kb).usable
  permitted : (t.getK c f.kb).has (if store then permStore else permLoad) = true
  group : f.v.val % 2 ^ f.grp.toNat = 0
  length : (t.core c).ctl.vl.toNat ≤ capacity (2 ^ f.grp.toNat) w
  pitch : m ≠ .strided → f.gs = 0
  index : m ≠ .indexed → f.vi = 0 ∧ f.iw = false
  fields : if m = .structure then f.nf ≠ 0 ∧ nf = f.nf.toNat + 1 ∧ nf * 2 ^ f.grp.toNat ≤ 8 ∧ f.v.val + nf * 2 ^ f.grp.toNat ≤ 32
    else f.nf = 0 ∧ nf = 1
  merging : store = true → f.zm = false
  indices : m = .indexed →
    let span := max 1 (2 ^ f.grp.toNat * (if f.iw then 8 else 4) / w)
    span ≤ 8 ∧ f.vi.val % span = 0 ∧
      (store = false → f.v.val + 2 ^ f.grp.toNat ≤ f.vi.val ∨ f.vi.val + span ≤ f.v.val)

/-- Element e of the body is active under the form's mask. -/
abbrev vmReaches (t : State) (c : CoreId) (f : VmFields) (w e : Nat) : Prop :=
  inBody t c e ∧ (t.core c).vec.active f.me f.ms.val e w = true

/-- The VR fields that say how a VM form writes its destination. -/
def vmAsVr (f : VmFields) : VrFields := ⟨0, 0, f.grp, f.zm, f.me, f.ms, f.fmt, f.fmt, 0, 0, 0, f.v⟩

/-- The issue conditions of a Bramble register form (R113, R117, R196 to R202). -/
structure ChainIssues (t : State) (c : CoreId) (op : BitVec 5) (func : BitVec 3) (red : BitVec 2) (f : VrFields) (sf df : Fmt)
    (rm : RMode) : Prop where
  source : Fmt.ofCode f.sfmt = some sf
  dest : Fmt.ofCode f.fmt = some df
  rounding : RMode.ofField f.rm (t.core c).ctl.rm = some rm
  known : opKnown op = true
  kind : opKind op sf.isInt = true
  scalars : f.cfg.extractLsb' 0 2 ≠ 3 ∧ (f.cfg.getLsbD 2 = true → f.cfg.extractLsb' 0 2 = 1) ∧
    (op = opDrop → f.cfg.extractLsb' 0 2 = 2)
  floats : sf.isInt = true → func = 0 ∧ f.cfg.extractLsb' 0 2 ≠ 1
  axps : op = 0x0A → sf.workWide = false
  randb : op = opRandb → df.isInt = true
  reduced : red ≠ 0 → opUsesB op = false
  pair : 2 ≤ red.toNat → f.vs2 ≠ 31
  sourceless : opReadsA op = false → f.vs1 = 0
  groups : (opReadsA op = true → f.vs1.val % operandGroup (2 ^ f.grp.toNat) sf.lanes (chainLanes sf df) = 0) ∧
    (opUsesB op = true → f.vs2.val % operandGroup (2 ^ f.grp.toNat) sf.lanes (chainLanes sf df) = 0)
  vd : if opCompares op then func = 0 ∧ red = 0 ∧ f.vd.val < 8 ∧ sf = df
    else f.vd.val % operandGroup (2 ^ f.grp.toNat) df.lanes (chainLanes sf df) = 0
  length : (t.core c).ctl.vl.toNat ≤ capacity (2 ^ f.grp.toNat) (chainLanes sf df)

/-- What a register form takes at issue (R83, R198), and the flags of its scalar. -/
def chainTaken (t : State) (c : CoreId) (op : BitVec 5) (func : BitVec 3) (f : VrFields) (sf df : Fmt) (rm : RMode) :
    Chain × BitVec 6 :=
  let x := (t.core c).ctl
  let raw := if f.cfg.extractLsb' 0 2 = 0 then 0 else t.getG c f.vs3
  let r := chainScalars sf op (f.cfg.extractLsb' 0 2) (f.cfg.getLsbD 2) raw
  (⟨op, func, sf, df, rm, ⟨x.fmtSat, x.fmtDnan⟩, raw, r.1, r.2.1⟩, r.2.2)

/-- Active elements of the body and what the stages give each (R118, R194). -/
def chainResults (t : State) (c : CoreId) (f : VrFields) (k : Chain) : List ElemResult :=
  let x := (t.core c).vec
  ((List.range (t.core c).ctl.vl.toNat).filter fun e =>
    decide ((t.core c).ctl.vresume.toNat ≤ e) && x.active f.me f.ms.val e k.dfmt.lanes).map fun e =>
    registerElem k f x (t.vectorDraws c) e

/-- Integer operations of R199 with their exact results. -/
def intTable : List (BitVec 5 × (Int → Int → Int → Int)) :=
  [(0x00, fun a _ _ => a), (0x01, fun a b _ => a + b), (0x02, fun a b _ => a - b), (0x03, fun a b _ => a * b),
   (0x08, fun a _ s => a + s), (0x09, fun a _ s => a * s), (0x0B, fun a b _ => min a b), (0x0C, fun a b _ => max a b),
   (0x0D, fun a _ _ => |a|), (0x0E, fun a _ _ => -a), (0x0F, fun a _ s => max a s)]

/-- i brought into the range of w bits (R43). -/
def saturate (w : Nat) (i : Int) : Int := max (-(2 ^ (w - 1))) (min i (2 ^ (w - 1) - 1))

/-! ### Tiles (chapters 6 and 7) -/

/-- A core that has completed an instruction of len bytes at pc, whatever its pcc holds now. -/
def CoreState.past (x : CoreState) (pc : Word) (len : Nat) : CoreState :=
  { x with pcc := x.pcc.setCursor (pc + w64 len), ctl := { x.ctl with instret := x.ctl.instret + 1 }, wdTicks := 0,
           wdWarned := false }

/-- What tile and stream instructions leave of core c: its registers, capabilities, vectors, caches and place. -/
structure RegsKept (t u : State) (c : CoreId) : Prop where
  g : (u.core c).g = (t.core c).g
  k : (u.core c).k = (t.core c).k
  vec : (u.core c).vec = (t.core c).vec
  pcc : (u.core c).pcc = (t.core c).pcc
  shadow : (u.core c).shadow = (t.core c).shadow
  others : OthersKept t u c
  mem : u.mem = t.mem

/-- The tile instruction of core c reaches its boundary: the next instruction issues (R176). -/
def AtBoundary (s u : State) (c : CoreId) : Prop :=
  (u.core c).tile.op = none ∧ (u.core c).ctl.trestart = 0 ∧ (u.core c).pcc = (s.core c).pcc.setCursor (s.pc c + 8) ∧
    (u.core c).ctl.instret = (s.core c).ctl.instret + 1

/-- qstat's conditions (R174, R179). -/
structure StatIssues (t : State) (c : CoreId) (q : Qstat) : Prop where
  known : qKnown q.tfmt = true
  resumes : t.trestart c = 0 ∨ (t.tile c).restored = false
  n : 1 ≤ q.n ∧ q.n ≤ 512
  k : 1 ≤ q.k ∧ q.k ≤ 512
  format : qStationaryOk q.tfmt = true ∧ (q.tsc = true → qScalable q.tfmt = true)
  operand : (t.core c).badOperand q.src (statShape q.tfmt q.n q.tsc) q.k = false ∧
    (t.core c).badWindowFor q.src (statShape q.tfmt q.n q.tsc) = false
  free : q.src.tileArea = true → (t.tile c).areaBusy = false

/-- qmma's conditions (R174, R180). -/
structure MmaIssues (t : State) (c : CoreId) (q : Qmma) : Prop where
  known : qKnown q.sfmt = true ∧ qKnown q.tfmt = true
  stationary : (t.tile c).stat.usable = true ∧ q.tfmt = (t.tile c).stat.fmt ∧ q.tsc = (t.tile c).stat.tsc ∧
    q.k ≤ (t.tile c).stat.k ∧ q.n ≤ (t.tile c).stat.n
  n : 1 ≤ q.n ∧ q.n ≤ 512
  k : 1 ≤ q.k ∧ q.k ≤ 512
  format : qStreamingOk q.sfmt = true ∧ (q.ssc = true → qScalable q.sfmt = true) ∧ qPairOk q.sfmt q.tfmt q.ssc q.tsc = true
  slots : q.slot + (q.m + 127) / 128 ≤ 16
  modes : q.start = false → ∀ e, q.slot ≤ e → e < q.slot + (q.m + 127) / 128 → (t.tile c).mode e = modeOf q.floatMode
  operand : (t.core c).badOperand q.src (streamShape q.sfmt q.k q.ssc) q.m = false
  free : q.src.tileArea = true → (t.tile c).areaBusy = false

/-- qdrain's conditions for the drain d it starts (R174, R187, R223, R224). -/
structure DrainIssues (t : State) (c : CoreId) (d : Drain) (n : BitVec 10) (rm : BitVec 3) (gd : Word) : Prop where
  format : d.fmt ≠ 15 ∧ (RMode.ofField rm (t.core c).ctl.rm).isSome = true ∧ d.cfg.extractLsb' 6 2 = 0 ∧ d.badFormat = false
  n : 1 ≤ n.toNat ∧ n.toNat ≤ 512
  slots : d.slot + (d.m + 127) / 128 ≤ 16 ∧ d.mode ≠ .none
  dest : (d.cfg.getLsbD 4 = true ∨ gd.extractLsb' 0 2 ≠ 3) ∧ (t.core c).drainMisfit d (gd.extractLsb' 9 2) = false
  vector : ∀ v, d.dest = .vector v → v % 2 ^ (gd.extractLsb' 9 2).toNat = 0
  store : ∀ e : Fin 2, d.dest = .store e → (t.eng c (4 + e.val)).st = .active

/-- n tags of core c can be taken and come back (R247, R364). -/
structure TagsTake (t : State) (c : CoreId) (n : Nat) : Prop where
  opened : (t.ledger c.val).st = .opened
  inUse : (t.ledger c.val).wroteOff = false
  whole : (t.ledger c.val).whole = true
  room : (t.ledger c.val).outstanding.val.toNat + n < 2 ^ 64

/-- accsave and accrestore may use the save area at k (R191). -/
structure MaySave (t : State) (c : CoreId) (k : Cap) (p : Nat) : Prop where
  usable : k.usable
  permitted : k.has p = true ∧ (t.core c).pcc.has permAccsave = true
  reach : MayReach t k k.cursor 6291520 64
  sound : SoundAt t k.cursor.toNat 6291520
  quiet : (t.tile c).rows = [] ∧ (t.tile c).retry = none ∧ (t.tile c).drains = [] ∧ (t.core c).str.fence = []
  tags : TagsTake t c 4 ∧ t.mayRequest c k.cursor.toNat 64 = true ∧ ∀ e < 2048, t.mayRequest c (k.cursor.toNat + 64 + 3072 * e) 3072 = true

/-- The oldest drain of core c is d, at slot `slot`, and the core runs. -/
def DrainHead (s : State) (c : CoreId) (slot : Fin 16) (d : Drain) (rest : List Drain) : Prop :=
  s.coreRuns c = true ∧ (s.tile c).drains = d :: rest ∧ d.slot + d.done = slot.val

/-- Core c with other drains. -/
def withDrains (s : State) (c : CoreId) (ds : List Drain) : State :=
  s.mapTile c fun x => { x with drains := ds }

/-! ### Checks of the array (R156 to R163) -/

/-- The check row of a stationary operand is the one R156 forms of its cells: S_k = Σ σ(B[k][n]). -/
def CheckRowRight (o : Stationary) (f : BitVec 5) (rows : Nat) : Prop :=
  ∀ k < rows, sparseGet (fun _ => (0 : BitVec 16)) o.check k =
    BitVec.ofInt 16 ((List.range o.n).map fun n => qSigma f (o.cell k n)).sum

/-- Nothing strikes the row: no injection and no error of the array. -/
def Unstruck (r : ArrayRow) (err : Option ArrayFault) : Prop := r.flip = none ∧ err = none

/-- What one error in a row is found as (R157, R158, R163): a product that differs modulo 2^16, at its stationary row, kind 0; one
that differs above bit 15 alone, in an F pair, kind 5; an adder whose residue modulo 3 is wrong, kinds 1 to 4; an injected flip
of bit 0 of a product's magnitude, kind 0. The cell may be any of the 512 by 512; past the loaded columns it holds zero. -/
def FoundAs (r : ArrayRow) (o : Stationary) (err : Option ArrayFault) (e : CheckError) : Prop :=
  let here := fun k n : Nat => o.n ≤ n → o.cell k n = 0
  match r.flip, err with
  | none, some (.product k n p) => here k.val n.val ∧ e.k = k ∧
      let off := p - r.op.checkProduct o r.bytes k.val n.val
      (off % 65536 ≠ 0 ∧ e.kind = 0 ∨
       off % 65536 = 0 ∧ qCoversAll r.op.sfmt r.op.tfmt r.op.ssc r.op.tsc = true ∧ 65536 ≤ p.natAbs ∧ e.kind = 5)
  | none, some (.adder kind k _ delta) => delta % 3 ≠ 0 ∧ e.k = k ∧ e.kind.val = kind.val + 1
  | some f, none => here f.1.toNat f.2.toNat ∧ e.k.val = f.1.toNat ∧ e.kind = 0
  | _, _ => False

/-! ### Tensor forms (R211 to R218) -/

/-- The five tensor instructions with their slots, checks and units, under what they took at issue (R49, R83). -/
def tensorTable (c : CoreId) (op : BitVec 5) (func : BitVec 3) (red : BitVec 2) (f : TdFields) (pause : Option Nat) :
    List (Instr × (State → FormLatch → TForm)) :=
  [(.tc c op func red f pause, tcForm c op func red f), (.txStats c f pause, txStatsForm c f),
   (.txOptim c f pause, txOptimForm c f), (.txSlice c f pause, txSliceForm c f), (.txDwround c f pause, txDwroundForm c f)]

/-- What a tensor form of core c runs under, in t1: one that issues reads its descriptor and takes the settings, one in progress
has both (R49, R83, R212). -/
def FormTakes (t t1 : State) (c : CoreId) (f : TdFields) (l : FormLatch) : Prop :=
  (FormFresh t c ∧ ∃ bs, t.checkedReadMany c (t.getK c f.kd) (kNum f.kd) [permLoad] (t.getK c f.kd).cursor 320 64 = (t1, .inr bs) ∧
    l = t.newLatch c bs) ∨
  (t1 = t ∧ ∃ l0, t.formLatch c = some l0 ∧ l = { l0 with waits := none, again := false })

/-- The checks of R215 pass for descriptor d of a form h that runs under l in t1. -/
structure TensorIssues (h : TForm) (t1 : State) (c : CoreId) (f : TdFields) (l : FormLatch) (d : TDesc) : Prop where
  legal : h.illegal = false ∧ f.gp ≠ 0 ∧ (RMode.ofField f.rm l.rm).isSome = true
  read : d = parseTensor l.desc
  descriptor : d.bad (h.slots d) h.tailUsed (h.rdimsOk d) (h.mult d) = false
  format : h.vformat d = false
  streams : ∀ u ∈ h.slots d, ∀ r ∈ u.roles, (t1.core c).badSlot d r = false
  free : (t1.tile c).spaceBusy (h.slots d) = false

/-- The n units from element `at_ 0` on: unit j runs on us j, from element at_ j to the end of its group, and leaves us (j + 1),
gp at the element after it (R216, R217). No store engine that takes an output is full before a unit. -/
structure UnitsRun (h : TForm) (c : CoreId) (gp : GReg) (d : TDesc) (n : Nat) (at_ : Nat → Nat) (us : Nat → State) : Prop where
  inside : ∀ j < n, at_ j < d.count
  next : ∀ j < n, at_ (j + 1) = (at_ j / d.unitLen + 1) * d.unitLen
  runs : ∀ j < n, ∃ v, h.run d (us j) (at_ j) (at_ (j + 1) - at_ j) = .next v ∧
    us (j + 1) = (v.setG c gp (BitVec.ofNat 64 (at_ (j + 1)))).progress c
  room : ∀ j < n, (us j).outputsFull c (h.slots d) = false
  ends : d.count ≤ at_ n

/-! ### Streams (chapter 9) -/

/-- The stream instruction of core c that waited completes (R240, R241). -/
def WaitEnds (s u : State) (c : CoreId) : Prop :=
  (u.core c).str.wait = .none ∧ (u.core c).pcc = (s.core c).pcc.setCursor (s.pc c + 8) ∧
    (u.core c).ctl.instret = (s.core c).ctl.instret + 1

/-- The checks of R233 pass: descriptor d is read in t1, and a stream of it may be opened on engine e at byte position p. -/
structure StreamOpens (t t1 : State) (c : CoreId) (e : Nat) (kd kb : KReg) (d : StreamDesc) (p : Nat) : Prop where
  engine : e < 6
  nofence : (t.core c).str.fence = []
  read : ∃ bs, t.checkedReadMany c (t.getK c kd) (kNum kd) [permLoad] (t.getK c kd).cursor 128 64 = (t1, .inr bs) ∧
    d = parseStream bs ∧ streamReserved bs = false
  descriptor : d.bad (decide (4 ≤ e)) = false
  start : p ≤ d.bytes ∧ (d.pk = false → p % d.rlen = 0)
  window : (t1.core c).badWindow e d = false
  usable : (t1.getK c kb).usable ∧ (t1.getK c kb).has (if 4 ≤ e then permStore else permLoad) = true
  hulls : 4 ≤ e → t1.storeHullCauses (t1.getK c kb) (kNum kb) (t1.getK c kb).cursor d = []

/-- The words of sstat (R250). -/
def statWord (x : Engine) (e : Nat) (w : BitVec 2) : Nat :=
  let code := match x.st with
    | .idle => 0
    | .active => if x.recs.any fun r => r.token.isSome then 2 else 1
    | _ => 3
  if w = 0 then code + (if 4 ≤ e then 4 else 0) + 8 * (x.reqs.length % 256) + 65536 * min (x.unitsUsed (decide (4 ≤ e))) 65535
  else if w = 1 then x.pos
  else match x.tokenRec with
    | none => if w = 2 then 2 ^ 64 - 1 else 0
    | some (r, t) => if w = 2 then r.idx * x.desc.rlen else t.addr.toNat

/-- Engine e of core c takes requests: tags and a bank group are free (R247, R248). -/
def MayAsk (s : State) (c : CoreId) (e : Nat) (a : Nat) : Prop := s.mayTag c e = true ∧ s.bankFree c (s.bankOf a) = true

/-- The tag ledger of core c can take units back (R361, R364). -/
def TagsSound (s : State) (c : CoreId) : Prop :=
  (s.ledger c.val).st = .opened ∧ (s.ledger c.val).whole = true ∧ (s.ledger c.val).wroteOff = false ∧
    1 ≤ (s.ledger c.val).outstanding.val.toNat

/-- From s to u core c changes in its streams alone, and no other core, no memory and no record changes. -/
structure OnlyStreams (s u : State) (c : CoreId) : Prop where
  core : u.core c = { s.core c with str := (u.core c).str }
  others : OthersKept s u c
  mem : u.mem = s.mem
  recd : u.recd = s.recd

/-! ### Memory stacks -/

/-- u holds, from a upward, the FP32 words of s with one element added to each, and is s's memory elsewhere (R271). -/
def AddedAt (s u : State) (a : Nat) (es : List SaElem) : Prop :=
  (∀ (i : Nat) (h : i < es.length), u.homeBytes (a + 4 * i) 4 = leBytes 4 (encodeFloat .fp32
    (fAdd (decodeFloat .fp32 (leNat (s.homeBytes (a + 4 * i) 4))) es[i].v).1 .rne ⟨false, true⟩ 0).1) ∧
  ∀ b, (b < a ∨ a + 4 * es.length ≤ b) → cellGet u.mem.data b = cellGet s.mem.data b

/-- The n FP32 words from a lie aligned on the stack, sound, held by no L1 cache and not dirty in L2, and no element that is added is poisoned. -/
structure MayAdd (s : State) (st : StackId) (a : Nat) (es : List SaElem) : Prop where
  aligned : a % 4 = 0
  here : ∀ j < 4 * es.length, (s.region (a + j)).stack? = some st
  plain : PlainAt s (a / 32 * 32) (4 * es.length + 32)
  clean : ∀ e ∈ es, e.bad = false
  level2 : ∀ l ∈ s.mem.l2, l.inst = false → a / 128 ≤ l.addr → l.addr ≤ (a + 4 * es.length) / 128 → l.dirty = false

/-- The command at the head of the stack's ring is c, with its reserved fields zero (R276, R277). -/
structure CmdAt (s : State) (st : StackId) (c : EngCmd) : Prop where
  waits : s.cmdWaits st = true
  read : s.readCmd st = (s, c)
  good : c.bad = false ∧ c.rsv = 0 ∧ c.irq < 2

/-! ### Fabric -/

/-- A packet of type typ passes the checks of R320, R323, R325 and R346; t is the state that knows its sender lives and its CE
(R322, R352). Nothing waits inside the package. -/
structure PacketIn (s t : State) (f : Frame) (p : Packet) (typ : BitVec 4) : Prop where
  on : s.fabricOn = true
  typ : p.ptype = typ
  passes : (s.poldoalIn f p).2 = true
  arrives : ((s.poldoalIn f p).1.hears p.src).echoCe f.ce p = t
  alone : t.fab.loop = []

/-- The same for a packet that its channel takes (R345); the channel's peer is another device. -/
structure ChannelIn (s t : State) (f : Frame) (p : Packet) (typ : BitVec 4) : Prop extends PacketIn s t f p typ where
  takes : (t.chan p.chan.val).takes p = true
  away : (t.chan p.chan.val).peer ≠ t.fab.devId.val
  sentAway : ∀ e ∈ (t.chan p.chan.val).sent, e.pkt.dst ≠ t.fab.devId.val

/-- The commands by which packets arrive, with their types (R346). -/
def packetRows (f : Frame) (p : Packet) : List (BitVec 4 × Instr) :=
  [(1, .reqReceive f p), (2, .respReceive f p), (3, .ackReceive f p), (4, .nackReceive f p), (5, .probeReceive f p),
   (6, .probeReplyReceive f p), (7, .helloReceive f p), (8, .byeReceive f p)]

/-- Pools of the fabric: slots, units, and the reserves of the ports (R349). -/
def FabricPool (id : Nat) : Prop := id = 0x40 ∨ id = 0x41 ∨ (0x48 ≤ id ∧ id < 0x50)

/-- Every slot and unit that the channels hold can come back: no ledger of the fabric would fail for it (R366). -/
def ReturnsSound (t : State) : Prop :=
  sparseWf (fun _ => chanReset) t.fab.chans = true ∧ ∀ id, FabricPool id → (t.ledger id).st = .opened ∧
    (t.ledger id).whole = true ∧ (t.ledger id).wroteOff = false ∧
    (t.fab.chans.map fun e => e.2.sent.length + e.2.held.length).sum ≤ (t.ledger id).outstanding.val.toNat

/-- A unit charged to port p can be taken and come back (R349). -/
structure UnitFree (t : State) (p : Nat) : Prop where
  pool : (t.ledger 0x41).canTake 1 = true ∧ (t.ledger 0x41).outstanding.val.toNat < 16384
  reserve : (t.ledger (0x48 + p)).canTake 1 = true ∧ (t.ledger (0x48 + p)).outstanding.val.toNat < 256

/-- The priority is not paused on sub-port k (R321). -/
def Unpaused (s : State) (k : Nat) (prio : BitVec 3) : Prop := (s.sub k).paused.getLsbD prio.toNat = false

/-- A packet goes to sub-port j, from which the round robin goes on (R350): it leaves, or, while its priority is paused there,
waits as the last (R321). -/
def SentOn (s u : State) (j : Fin 64) (p : Packet) : Prop :=
  u.fab.rr = j ∧ (Unpaused s j.val s.fab.prio → u.fab.tx = s.fab.tx ++ [s.poldoalItem j p]) ∧
    (¬Unpaused s j.val s.fab.prio → u.fab.tx = s.fab.tx ∧ ∃ w, u.fab.waiting = s.fab.waiting ++ [w] ∧
      w.sub = j ∧ w.prio = s.fab.prio ∧ w.item = s.poldoalItem j p)

/-- A packet like q has left on sub-port j. -/
def HasLeft (u : State) (j : Fin 64) (q : Packet → Prop) : Prop :=
  ∃ (i : Fin 64) (h : TxHead) (w : UdpHead) (p : Packet), .poldoal j i h w p ∈ u.fab.tx ∧ q p

/-- The next REQ of its channel passes its checks, and nothing holds it back (R347, R348). -/
structure InOrder (t : State) (f : Frame) (p : Packet) : Prop where
  next : p.psn = (t.chan p.chan.val).expect
  alone : (t.chan p.chan.val).held = []
  goes : (t.chan p.chan.val).failed = none
  credit : (t.chan p.chan.val).credit ≠ 0
  unit : UnitFree t (f.sub.val / 8)
  allowed : t.reqStatus p = 0
  settled : t.jobsPending p.chan.val = false
  entry : (t.fabricEntry (p.token.toNat % 16384)).sound = true

/-- Every byte of [a, a + n) is held by a stack that is not fenced. -/
def Lands (t : State) (a n : Nat) : Prop := ∀ j < n, ∃ st, (t.region (a + j)).stack? = some st ∧ (t.stack st).st ≠ .fenced

/-- [a, a + n) takes the bytes bs, and no other byte of data space changes. -/
def Wrote (t u : State) (a : Nat) (bs : List Byte) : Prop :=
  (∀ j < bs.length, some (cellGet u.mem.data (a + j)) = bs[j]?) ∧
    ∀ b, (b < a ∨ a + bs.length ≤ b) → cellGet u.mem.data b = cellGet t.mem.data b

/-- Core c's completion ring takes an entry for d with this status and result (R330, R331). -/
def Completed (t u : State) (c : CoreId) (d : PostDesc) (status : Byte) (result : Word) : Prop :=
  let w := (t.core c).win
  let size := max w.pqSize.toNat 1
  let bs := u.homeBytes (0x018004080000 + 2048 * c.val + 16 * (w.completed % size)) 16
  fieldNat bs 0 4 = d.wrid.toNat ∧ fieldNat bs 4 1 = status.toNat ∧ fieldNat bs 5 1 = d.op.toNat ∧
    fieldNat bs 6 1 = (w.completed / size + 1) % 2 ∧ fieldNat bs 8 8 = result.toNat ∧
    (u.core c).win.cqTail = w.cqTail + 1 ∧ (u.core c).win.completed = w.completed + 1

/-- o was posted by core c, whose rings have a size of R327; nothing has come back for it and it has not ended. -/
structure Posted (t : State) (c : CoreId) (o : PostOp) : Prop where
  owner : o.owner = some c
  ring : (t.core c).win.pqSize.toNat ≤ 128
  fresh : o.got = [] ∧ o.fail = none ∧ o.poisoned = false
  runs : o.ended = none

/-- The next descriptor of core c is d, and the entry of the local table it names is sound (R327, R331). -/
structure Posts (s : State) (c : CoreId) (d : PostDesc) : Prop where
  on : s.fabricOn = true
  size : (s.core c).win.pqSize ≠ 0 ∧ (s.core c).win.pqSize.toNat ≤ 128
  waits : BitVec.ofNat 16 (s.core c).win.accepted ≠ (s.core c).win.pqTail
  next : s.readDesc c = d
  sound : SoundAt s ((s.core c).win.ltBase.toNat + 16 * d.lidx.toNat) 16

/-- The rows by which a Poldoal operation is posted (R334), and those of RoCEv2 (R357). -/
def poldoalRows (c : CoreId) : List (Byte × Instr) :=
  [(1, .poldoalWrite c), (2, .poldoalRead c), (3, .atomicAdd c), (4, .atomicMax c), (5, .atomicCas c), (6, .writeAcc c),
   (7, .poldoalNotify c), (8, .poldoalFence c)]

def roceRows (c : CoreId) : List (Byte × Instr) :=
  [(0x10, .send c), (0x11, .rdmaWrite c), (0x12, .rdmaRead c), (0x13, .fetchAdd c), (0x14, .cmpSwap c)]

/-- Every channel to the peer that was not CLOSED or GONE is GONE with no operation left; no other channel changes (R352). -/
def Departed (t u : State) (peer : BitVec 14) : Prop :=
  ∀ n : Nat, ((t.chan n).peer = peer → (t.chan n).st ≠ .closed → (t.chan n).st ≠ .gone →
      (u.chan n).st = .gone ∧ (u.chan n).ops = [] ∧ (u.chan n).sent = [] ∧ (u.chan n).held = []) ∧
    ((t.chan n).peer ≠ peer → u.chan n = t.chan n)

/-- A RoCEv2 packet for queue pair qn, in RTS, arrives and leaves t (R354). -/
structure RoceIn (s t : State) (f : Frame) (qn : Nat) : Prop where
  on : s.fabricOn = true
  arrives : s.roceIn f qn = (t, true)

/-- Frames of queue pair x leave on sub-port k, oldest first, where it sends and their priority is not paused (R321, R351,
R356, R493). -/
def Leaves (s u : State) (x : QueuePair) (k : Fin 64) (items : List (TxHead → TxItem)) : Prop :=
  s.subSends k.val = true → Unpaused s k.val x.prio → u.fab.tx = s.fab.tx ++ items.map fun g => g (s.roceHead x k)

/-- The answer a leaves on the sub-port on which q arrived (R354). -/
def Replies (s u : State) (f : Frame) (q : RoceReq) (a : RoceAnswer) : Prop :=
  let x := s.qp q.qp.val
  Leaves s u x f.sub [answerItem f.sub x.rqpn q.psn a]

/-- The message that a packet of an RDMA WRITE belongs to: its first names range and R_Key, a later one goes on with what the
queue pair receives; only the last may be shorter than the path MTU (R354, R355). -/
structure WriteGoes (t : State) (q : RoceReq) (r : RoceRx) : Prop where
  place : if q.first = true then r = ⟨.write, q.va.toNat, q.len.toNat⟩ ∧ (t.qp q.qp.val).rx = none ∧
      t.rkeyStatus q [permStore] q.len.toNat = 0
    else (t.qp q.qp.val).rx = some r ∧ r.op = .write
  size : if q.last = true then q.payload.length = r.left ∧ r.left ≤ (t.qp q.qp.val).mtu
    else q.payload.length = (t.qp q.qp.val).mtu ∧ (t.qp q.qp.val).mtu < r.left

/-- The one operation of a queue pair is core c's, numbered and not ended. -/
structure OneOp (t : State) (qn : Nat) (c : CoreId) (o : PostOp) : Prop where
  only : (t.qp qn).ops = [o]
  posted : Posted t c o

/-- The drain engine has posted an operation on its target's queue pair for each part of 1 GiB of len bytes at an offset, the
last shorter, the first numbered on from s (R298, R357; log entry 145). -/
def EnginePosts (s u : State) (tgt : SnapTarget) (op : Byte) (off len : Nat) (bs : List Byte) : Prop :=
  ∃ os : List PostOp, (u.qp tgt.qn).ops = (s.qp tgt.qn).ops ++ os ∧ os.length = (len + 2 ^ 30 - 1) / 2 ^ 30 ∧
    ∀ (i : Nat) (o : PostOp), os[i]? = some o → o.owner = none ∧ o.ended = none ∧ o.desc.op = op ∧
      o.desc.raddr = tgt.va + BitVec.ofNat 64 (off + 2 ^ 30 * i) ∧ o.desc.len = min (2 ^ 30) (len - 2 ^ 30 * i) ∧
      o.desc.token = tgt.rkey.setWidth 128 ∧ o.kept = (bs.drop (2 ^ 30 * i)).take (2 ^ 30) ∧
      (i = 0 → o.base.setWidth 24 = (s.qp tgt.qn).spsn)

/-- The target's queue pair carries one RDMA WRITE of the drain engine and nothing else, all of it sent (R298, R354). -/
structure EngineBusy (s : State) (tgt : SnapTarget) (o : PostOp) : Prop where
  up : (s.qp tgt.qn).st = .rts ∧ (s.qp tgt.qn).rnrWait = false
  only : (s.qp tgt.qn).ops = [o]
  own : o.owner = none ∧ o.ended = none ∧ o.desc.op = 0x11
  last : (s.qp tgt.qn).spsn = o.base.setWidth 24 + BitVec.ofNat 24 (roceSpan (s.qp tgt.qn) 0x11 o.desc.len)
  near : ((s.qp tgt.qn).spsn - (s.qp tgt.qn).una).toNat < 2 ^ 23 ∧ roceSpan (s.qp tgt.qn) 0x11 o.desc.len < 2 ^ 23

end Sys2Proof.Machine
end

