-- ==== Sys2Proof/Certificates/Slice0/Obligations.lean ====
section
/-!
DEFINITION. The statements for the provers: how a step takes a command, what every step keeps, and for every command of
the table what it does where it does its own effect.
-/
open Sys2Proof Sys2Proof.Machine

/-- A step with a command at the front of the queue executes it on the rest (the block's form; log entry 2). -/
def Obligations.StepRunsFrontCommand : Prop :=
  ∀ (s : State) (c : Instr) (rest : List Instr), s.pending = c :: rest → step s = exec c { s with pending := rest }

/-- Log entry 40 (the model's choice): with no command waiting, one tick passes; local time advances by one 10 ns tick, or, while
REFCLK is lost, by the five of one oscillator cycle (R484), and nothing in memory, in the fabric or in Rowan changes. -/
def Obligations.IdleStepIsOneTick : Prop :=
  ∀ s : State, s.pending = [] →
    ∃ t, step s = .next t ∧ t.time = s.time + (if s.rst.refclk then 1 else 5) ∧ t.mem = s.mem ∧ t.fab = s.fab ∧ t.rowan = s.rowan ∧ t.recd = s.recd ∧
      t.stks = s.stks ∧ t.pending = [] ∧
      ∀ c : CoreId, (t.core c).g = (s.core c).g ∧ (t.core c).k = (s.core c).k ∧ (t.core c).pcc = (s.core c).pcc

/-- No command of the table adds to the queue or takes from it: the step alone does. -/
def Obligations.CommandsLeaveTheQueue : Prop :=
  ∀ (i : Instr) (s t : State), exec i s = .next t → t.pending = s.pending

/-- No command of the table is ever refused and none faults, in any state. -/
def Obligations.NoCommandStops : Prop :=
  ∀ (i : Instr) (s : State), ∃ t, exec i s = .next t

/-- Every step keeps data space and instruction space in their canonical form. -/
def Obligations.MemoryStaysCanonical : Prop :=
  ∀ s t : State, s.memWf = true → step s = .next t → t.memWf = true

/-- R407, R419, R420: whatever command runs, no fuse of Rowan is ever restored: a programmed key slot keeps its key, a revoke
bit and a lifecycle bit stay set, the rollback counter never falls, the identity seed stands. A fuse program in progress that goes up keeps going up. -/
def Obligations.FusesOnlyBlow : Prop :=
  ∀ s t : State, s.fuseUp → step s = .next t → FusesKept s t ∧ t.fuseUp

/-- The state after reset meets the invariants above. -/
def Obligations.ResetMeetsInvariants : Prop :=
  State.reset.memWf = true ∧ State.reset.fuseUp ∧ State.reset.pending = []

/-- R60 to R63: each integer, bit-field and byte instruction writes rd with the value its rule gives, and otherwise only steps
over itself: the state is the one after the fetch with that core's rd, program counter, instret and watchdog changed. g0
stays zero (`setG`). The shift forms with an immediate have imm12[11:6] = 0. R57, R60: imm12[11:6] of slli, srli, srai and
roli is reserved: another value is ILLEGAL and writes no register. -/
def Obligations.IntegerInstructions : Prop :=
  (∀ (c : CoreId) (rd a b k : GReg) (m : BitVec 12) (sh p n : BitVec 6) (w : BitVec 32) (s t : State),
     ∀ e ∈ aluTable (t.getG c) c rd a b k m sh p n w, Issues s c e.2.1 t → Plain t c →
       ∃ v : Word, e.2.2 v ∧ exec e.1 s = .next (t.setCore c (((t.core c).setG rd v).advanced e.2.1))) ∧
  (∀ (c : CoreId) (rd rs1 : GReg) (imm12 : BitVec 12) (s t : State),
     Issues s c 4 t → imm12.extractLsb' 6 6 ≠ 0 →
     ∀ i ∈ [Instr.slli c rd rs1 imm12, .srli c rd rs1 imm12, .srai c rd rs1 imm12, .roli c rd rs1 imm12],
       exec i s = .next (t.takeCause c (cILLEGAL (t.pc c)) (t.pc c)))

/-- R64: a conditional branch whose condition holds goes to its own address + 4 × off12, where that is 4-byte aligned and within
the bounds of pcc; one whose condition does not hold goes on. No register is written. R64: jal and jalr write the address of
the next instruction to rd and jump; rs1 is read before rd is written. R64: a target that is not 4-byte aligned, though
within bounds, raises TARGET_ALIGN at the jump: rd is not written, pcc is saved as it stands, and xaddr holds the target. -/
def Obligations.BranchesAndJumps : Prop :=
  (∀ (c : CoreId) (a b : GReg) (off : BitVec 12) (s t : State), Issues s c 4 t → Plain t c →
     let pcc := (t.core c).pcc
     let target := pcc.cursor + BitVec.ofInt 64 (4 * off.toInt)
     let x := t.getG c a
     let y := t.getG c b
     ∀ p ∈ [(Instr.beq c a b off, decide (x = y)), (.bne c a b off, decide (x ≠ y)), (.blt c a b off, decide (x.toInt < y.toInt)),
         (.bge c a b off, decide (y.toInt ≤ x.toInt)), (.bltu c a b off, decide (x.toNat < y.toNat)),
         (.bgeu c a b off, decide (y.toNat ≤ x.toNat))],
       (p.2 = false → exec p.1 s = .next (t.setCore c ((t.core c).advanced 4))) ∧
       (p.2 = true → target.toNat % 4 = 0 → pcc.base ≤ target.toNat → target.toNat < pcc.top →
         exec p.1 s = .next (t.setCore c ((t.core c).transferred (pcc.setCursor target))))) ∧
  (∀ (c : CoreId) (rd rs1 : GReg) (off20 : BitVec 20) (imm12 : BitVec 12) (s t : State), Issues s c 4 t → Plain t c →
     let pcc := (t.core c).pcc
     ∀ p ∈ [(Instr.jal c rd off20, pcc.cursor + BitVec.ofInt 64 (4 * off20.toInt)),
         (.jalr c rd rs1 imm12, t.getG c rs1 + BitVec.ofInt 64 imm12.toInt)],
       p.2.toNat % 4 = 0 → pcc.base ≤ p.2.toNat → p.2.toNat < pcc.top →
       exec p.1 s = .next (t.setCore c (((t.core c).setG rd (pcc.cursor + 4)).transferred (pcc.setCursor p.2)))) ∧
  (∀ (c : CoreId) (rd rs1 : GReg) (imm12 : BitVec 12) (s t : State), Issues s c 4 t → Plain t c →
     let pcc := (t.core c).pcc
     let g := t.getG c rs1 + BitVec.ofInt 64 imm12.toInt
     g.toNat % 4 ≠ 0 → pcc.base ≤ g.toNat → g.toNat < pcc.top →
     (t.core c).ctl.status.sb = false → (t.core c).xvcc.entersHandler = true →
     ∃ u, exec (.jalr c rd rs1 imm12) s = .next u ∧ (u.core c).ctl.xaddr = g ∧ (u.core c).ctl.xcause.extractLsb' 0 6 = 3 ∧
       u.getG c rd = t.getG c rd ∧ (u.core c).pcc = (t.core c).xvcc ∧ (u.core c).shadow.pcc.cursor = pcc.cursor)

/-- R65: a load whose checks pass writes the loaded bytes, little-endian and extended as its size says, to rd. R95: a capability
load writes sixteen bytes to kd, and the tag only where kb holds LOADCAP. R65, R108: the checks of a scalar load or store:
tag, seal, permission, bounds, alignment, mapping. The cause of the first that fails is taken and nothing is read or
written; an access to hub buffers without FABRIC gives CAP_PERM, ahead of MISALIGNED. An access that begins within bounds and
ends past the top raises CAP_BOUNDS with xaddr at the top, as a load or store and as `lc` or `sc`. The reserved fn values are
ILLEGAL. That MISALIGNED and UNMAPPED give creg too is log entry 117 (the model's choice). -/
def Obligations.LoadsReadMemory : Prop :=
  (∀ (c : CoreId) (rd : GReg) (kb : KReg) (off : BitVec 13) (s t : State), Issues s c 4 t → Plain t c →
     let k := t.getK c kb
     let a := k.cursor + BitVec.ofInt 64 off.toInt
     ∀ p ∈ loadTable, MayAccess t k permLoad a p.2.1 →
       let r := t.scalarRead c a.toNat p.2.1
       r.2.poison = false →
       exec (.ld c p.1 rd kb off) s =
         .next (r.1.setCore c (((r.1.core c).setG rd (p.2.2 (leNat r.2.bytes))).advanced 4))) ∧
  (∀ (c : CoreId) (kd kb : KReg) (off : BitVec 13) (s t : State), Issues s c 4 t → Plain t c →
     let k := t.getK c kb
     let a := k.cursor + BitVec.ofInt 64 off.toInt
     MayAccess t k permLoad a 16 →
       let r := t.scalarRead c a.toNat 16
       r.2.poison = false →
       exec (.lc c kd kb off) s =
         .next (r.1.setCore c (((r.1.core c).setK kd ⟨BitVec.ofNat 128 (leNat r.2.bytes), r.2.tag && k.has permLoadCap⟩).advanced 4))) ∧
  (∀ (c : CoreId) (rd : GReg) (kb : KReg) (off : BitVec 13) (s t : State), Issues s c 4 t →
     let k := t.getK c kb
     let a := k.cursor + BitVec.ofInt 64 off.toInt
     let r := kNum kb
     (∀ p ∈ (loadTable.map fun e => (Instr.ld c e.1 rd kb off, permLoad, e.2.1)) ++
         (storeTable.map fun e => (Instr.st c e.1 rd kb off, permStore, e.2)),
       let i := p.1
       let n := p.2.2
       let inside := k.usable ∧ k.has p.2.1 = true ∧ k.base ≤ a.toNat ∧ a.toNat + n ≤ k.top
       let hub := ∃ j < n, t.region (a.toNat + j) = .hub
       (k.tag = false → Traps i s t c (cCAPTAG a r)) ∧
       (k.tag = true → k.isSealed = true → Traps i s t c (cCAPSEALED a r)) ∧
       (k.usable → k.has p.2.1 = false → Traps i s t c (cCAPPERM a r)) ∧
       (k.usable → k.has p.2.1 = true → (a.toNat < k.base ∨ k.top ≤ a.toNat) → Traps i s t c (cCAPBOUNDS a r)) ∧
       (k.usable → k.has p.2.1 = true → k.base ≤ a.toNat → a.toNat < k.top → k.top < a.toNat + n → k.top < 2 ^ 64 →
         Traps i s t c (cCAPBOUNDS (BitVec.ofNat 64 k.top) r)) ∧
       (inside → hub → k.has permFabric = false → Traps i s t c (cCAPPERM a r)) ∧
       (inside → (hub → k.has permFabric = true) → a.toNat % n ≠ 0 → Traps i s t c (cMISALIGNED a r)) ∧
       (inside → a.toNat % n = 0 → (t.region a.toNat).mapped = false → Traps i s t c (cUNMAPPED a r))) ∧
     Traps (.ld c 7 rd kb off) s t c (cILLEGAL (t.pc c)) ∧
     ∀ fn : BitVec 3, 4 ≤ fn.toNat → Traps (.st c fn rd kb off) s t c (cILLEGAL (t.pc c))) ∧
  (∀ (c : CoreId) (kd kb : KReg) (off : BitVec 13) (s t : State), Issues s c 4 t →
     let k := t.getK c kb
     let a := k.cursor + BitVec.ofInt 64 off.toInt
     ∀ p ∈ [(Instr.lc c kd kb off, permLoad), (.sc c kd kb off, permStore)], k.usable → k.has p.2 = true →
       ((a.toNat < k.base ∨ k.top ≤ a.toNat) → Traps p.1 s t c (cCAPBOUNDS a (kNum kb))) ∧
       (k.base ≤ a.toNat → a.toNat < k.top → k.top < a.toNat + 16 → k.top < 2 ^ 64 →
         Traps p.1 s t c (cCAPBOUNDS (BitVec.ofNat 64 k.top) (kNum kb))))

/-- R65, R95, R252: a store to hub buffers, or a store of an untagged capability there, changes exactly its bytes of data space;
every other byte, every register and every other part of the device is as before but the program counter and what the die's
credits count (R364; log entry 56, the model's choice). A tagged capability raises TAG_UNSUPPORTED, with creg (log entry 117,
the model's choice). R65, R66, R86, R93, R95: a store to stack memory leaves the core holding the line, with
the bytes stored in it and its other bytes as the core gets them, and changes nothing else of what the core then holds but
the program counter; no other core holds the line. A capability store carries its tag. -/
def Obligations.StoresWriteMemory : Prop :=
  (∀ (c : CoreId) (rs : GReg) (ks kb : KReg) (off : BitVec 13) (s t : State), Issues s c 4 t → Plain t c →
     let k := t.getK c kb
     let a := k.cursor + BitVec.ofInt 64 off.toInt
     let writes := fun (i : Instr) (n : Nat) (v : BitVec 128) => ∃ u, exec i s = .next u ∧
       (∀ j < n, cellGet u.mem.data (a.toNat + j) = v.extractLsb' (8 * j) 8) ∧
       (∀ b, (b < a.toNat ∨ a.toNat + n ≤ b) → cellGet u.mem.data b = cellGet t.mem.data b) ∧
       u = ((t.passCredits c none 1).setMem { t.mem with data := u.mem.data }).setCore c ((t.core c).advanced 4)
     (∀ p ∈ storeTable, MayAccess t k permStore a p.2 → t.region a.toNat = .hub →
       writes (.st c p.1 rs kb off) p.2 ((t.getG c rs).setWidth 128)) ∧
     (MayAccess t k permStore a 16 → t.region a.toNat = .hub →
       ((t.getK c ks).tag = false → writes (.sc c ks kb off) 16 (t.getK c ks).bits) ∧
       ((t.getK c ks).tag = true → k.has permStoreCap = true →
         Traps (.sc c ks kb off) s t c (cTAGUNSUPPORTED a (kNum kb))) ∧
       ((t.getK c ks).tag = true → k.has permStoreCap = false → Traps (.sc c ks kb off) s t c (cSTORETAG a (kNum kb))))) ∧
  (∀ (c : CoreId) (rs : GReg) (ks kb : KReg) (off : BitVec 13) (s t : State), Issues s c 4 t → Plain t c →
     let k := t.getK c kb
     let a := k.cursor + BitVec.ofInt 64 off.toInt
     let n := a.toNat / 128
     let o := a.toNat % 128
     let v := t.touchLine c n true
     let stores := fun (i : Instr) (bs : List Byte) (tag : Bool) => ∃ u l l', exec i s = .next u ∧
       (v.core c).heldLine n = some l ∧ (u.core c).heldLine n = some l' ∧
       (∀ j < bs.length, some (vget l'.bytes (o + j) 0) = bs[j]?) ∧
       (∀ j < 128, (j < o ∨ o + bs.length ≤ j) → vget l'.bytes j 0 = vget l.bytes j 0) ∧
       (vget l.poison (o / 32) false = false → vget l'.tags (o / 16) false = tag) ∧
       u.mem = v.mem ∧ (∀ d : CoreId, d ≠ c → u.core d = v.core d ∧ (u.core d).cache.holds n = false) ∧
       u.core c = { (v.core c).advanced 4 with cache := (u.core c).cache }
     (∀ p ∈ storeTable, MayAccess t k permStore a p.2 → t.region a.toNat ≠ .hub →
       stores (.st c p.1 rs kb off) (leBytes p.2 (t.getG c rs).toNat) false) ∧
     (MayAccess t k permStore a 16 → t.region a.toNat ≠ .hub → ((t.getK c ks).tag = true → k.has permStoreCap = true) →
       stores (.sc c ks kb off) (leBytes 16 (t.getK c ks).bits.toNat) (t.getK c ks).tag))

/-- Log entries 115 and 116 are the model's choices here: the length of the instruction at a loop's end, and `loop` at level 0
whose end is that of a level 1 left behind. R58, R66, R78 to R82: `fence` changes nothing but the program counter. `loop` takes level 0, or level 1 inside an active
level 0, sets its registers and lm, and goes on, past the loop for a count of zero; its illegal forms and nestings trap.
`endloop` ends the innermost active level and continues after the instruction at its end; with none active it only steps.
R80: at the last instruction of an active level a branch, jump, `loop`, `endloop` or exception return is ILLEGAL. R79: the
instruction at le0 that completes with lc0 > 1 counts down and goes back to ls0; with lc0 = 1 it falls through. Shown for
`fence`, which writes nothing of its own. R56, R83, R84, R107: mfc reads any control register into rd, mtc writes any that
may be written, permission for status apart; an access of fflags completes where no drain is in progress. A read-only
register, a number of the table's gaps and a reserved rndctl.rm are ILLEGAL. -/
def Obligations.LoopsAndControlRegisters : Prop :=
  ((∀ (c : CoreId) (s t : State), Issues s c 4 t → Plain t c → exec (.fence c) s = .next (t.setCore c ((t.core c).advanced 4))) ∧
   (∀ (c : CoreId) (im : Bool) (gc : GReg) (imm10 : BitVec 10) (eoff : BitVec 9) (s t : State), Issues s c 4 t →
     (t.core c).ctl.status.ss = false →
     let x := t.core c
     let pc := x.pcc.cursor
     let count := if im then imm10.setWidth 64 else t.getG c gc
     let last := pc + BitVec.ofNat 64 (4 * eoff.toNat)
     let legal := eoff ≠ 0 ∧ (im = false → imm10 = 0) ∧ (im = true → gc = 0)
     let free := x.ctl.status.lm = true → ¬(x.ctl.lc0 ≠ 0 ∧ x.ctl.le0 = pc) ∧ ¬(x.ctl.lc1 ≠ 0 ∧ x.ctl.le1 = pc)
     let inner := x.ctl.lc0 ≠ 0 ∧ x.ctl.lc1 = 0 ∧ x.ctl.ls0.toNat ≤ (pc + 4).toNat ∧ last.toNat ≤ x.ctl.le0.toNat
     let past := x.pcc.setCursor (last + BitVec.ofNat 64 (t.lengthAt c last))
     let loop := Instr.loop c im gc imm10 eoff
     (legal → free → x.ctl.lc0 = 0 → x.ctl.le1 ≠ last → (x.ctl.lc1 ≠ 0 → x.ctl.le1 ≠ pc) →
       let y := { x with ctl := { x.ctl with lc0 := count, ls0 := pc + 4, le0 := last, status := { x.ctl.status with lm := true } } }
       exec loop s = .next (t.setCore c (if count = 0 then y.transferred past else y.advanced 4))) ∧
     (legal → free → inner → last ≠ x.ctl.le0 → x.ctl.le0 ≠ pc →
       let y := { x with ctl := { x.ctl with lc1 := count, ls1 := pc + 4, le1 := last, status := { x.ctl.status with lm := true } } }
       exec loop s = .next (t.setCore c (if count = 0 then y.transferred past else y.advanced 4))) ∧
     (legal → free → ((x.ctl.lc0 ≠ 0 ∧ x.ctl.lc1 ≠ 0) ∨ (x.ctl.lc0 ≠ 0 ∧ ¬inner) ∨ (inner ∧ last = x.ctl.le0) ∨
         (x.ctl.lc0 = 0 ∧ x.ctl.le1 = last)) → Traps loop s t c (cLOOPNEST pc)) ∧
     (free → ¬legal → Traps loop s t c (cILLEGAL pc)) ∧
     (free → x.ctl.status.lm = false ∨ (x.ctl.lc0 = 0 ∧ x.ctl.lc1 = 0) → exec (.endloop c) s = .next (t.setCore c (x.advanced 4))) ∧
     (free → x.ctl.status.lm = true → x.ctl.lc1 ≠ 0 → exec (.endloop c) s = .next (t.setCore c
       ({ x with ctl := { x.ctl with lc1 := 0 } }.transferred (x.pcc.setCursor (x.ctl.le1 + BitVec.ofNat 64 (t.lengthAt c x.ctl.le1)))))) ∧
     (free → x.ctl.status.lm = true → x.ctl.lc1 = 0 → x.ctl.lc0 ≠ 0 → exec (.endloop c) s = .next (t.setCore c
       ({ x with ctl := { x.ctl with lc0 := 0 } }.transferred (x.pcc.setCursor (x.ctl.le0 + BitVec.ofNat 64 (t.lengthAt c x.ctl.le0)))))))) ∧
  (∀ (c : CoreId) (im : Bool) (a b gc : GReg) (imm10 : BitVec 10) (eoff : BitVec 9) (off : BitVec 12) (off20 : BitVec 20) (s t : State),
     Issues s c 4 t → (t.core c).ctl.status.lm = true →
     let x := (t.core c).ctl
     ((x.lc0 ≠ 0 ∧ x.le0 = t.pc c) ∨ (x.lc1 ≠ 0 ∧ x.le1 = t.pc c)) →
     ∀ i ∈ [Instr.beq c a b off, .bne c a b off, .blt c a b off, .bge c a b off, .bltu c a b off, .bgeu c a b off,
         .jal c a off20, .jalr c a b off, .loop c im gc imm10 eoff, .endloop c, .xret c],
       Traps i s t c (cILLEGAL (t.pc c))) ∧
  (∀ (c : CoreId) (s t : State), Issues s c 4 t → (t.core c).ctl.status.ss = false → (t.core c).ctl.status.lm = true →
     (t.core c).ctl.lc1 = 0 → (t.core c).ctl.le0 = t.pc c → (t.core c).ctl.lc0 ≠ 0 →
     let x := t.core c
     let y := { x with ctl := { x.ctl with lc0 := x.ctl.lc0 - 1 } }
     exec (.fence c) s = .next (t.setCore c (if x.ctl.lc0 = 1 then y.advanced 4 else y.transferred (x.pcc.setCursor x.ctl.ls0)))) ∧
  (∀ (c : CoreId) (rd rs1 : GReg) (n : BitVec 6) (s t : State), Issues s c 4 t → Plain t c →
     let x := t.core c
     let v := t.getG c rs1
     (∀ p ∈ ctlTable x c, n.toNat = p.1 → (p.1 = 0x0A → x.tile.drains = []) →
       exec (.mfc c rd n) s = .next (t.setCore c ((x.setG rd p.2).advanced 4))) ∧
     ((∀ p ∈ ctlTable x c, n.toNat ≠ p.1) → Traps (.mfc c rd n) s t c (cILLEGAL (t.pc c))) ∧
     (∀ k ∈ ctlWrites x.ctl v, n.toNat = k.1 → (k.1 = 0x0A → x.tile.drains = []) → (k.1 = 0x09 → v.toNat % 8 ≤ 4) →
       exec (.mtc c n rs1) s = .next (t.setCore c (({ x with ctl := k.2 }).advanced 4))) ∧
     (n = 0x09 → 4 < v.toNat % 8 → Traps (.mtc c n rs1) s t c (cILLEGAL (t.pc c))) ∧
     (n ≠ 0 → (∀ k ∈ ctlWrites x.ctl v, n.toNat ≠ k.1) → Traps (.mtc c n rs1) s t c (cILLEGAL (t.pc c))))

/-- R75, R76; what repeated registers and g0 give is log entry 52 (the model's choice): one element of each block repeat. `rfill` stores gb's low bytes, `rmov` stores what it read; both move the address
registers on by the element's width and count down. `rcmp` moves on where the elements are equal, `rscan` where they differ
from gb; otherwise each stops at the element with its registers as they were. R75, R76: `rfill` of any number of elements
over hub buffers leaves every byte of its range at the pattern, every byte outside it as it was, the count at zero and the
address past the last element. R77: `rmov` whose three registers are not distinct, or whose address or count register is g0,
is ILLEGAL. R76: a block repeat with a count of zero completes and changes nothing but the program counter. R76, R101: where
no event can be delivered, none stops a block repeat between its units. -/
def Obligations.BlockRepeats : Prop :=
  (∀ (c : CoreId) (size : BitVec 2) (ga gb gc : GReg) (ka kb : KReg) (s t : State), Issues s c 4 t → Plain t c →
     let w := 2 ^ size.toNat
     let a := t.getG c ga
     let b := t.getG c gb
     t.getG c gc = 1 →
     (MayAccess t (t.getK c ka) permStore a w → ∀ u,
         u = (t.scalarWrite c a.toNat (leBytes w b.toNat) false).advance c w [ga] gc →
         Completes (.rfill c size ga gb gc ka none) s c 4 u) ∧
     (ga ≠ gb → ga ≠ gc → gb ≠ gc → ga ≠ 0 → gc ≠ 0 →
       MayAccess t (t.getK c ka) permStore a w → MayAccess t (t.getK c kb) permLoad b w →
       let r := t.scalarRead c b.toNat w
       r.2.poison = false → ∀ u, u = (r.1.scalarWrite c a.toNat r.2.bytes false).advance c w [ga, gb] gc →
         Completes (.rmov c size ga gb gc ka kb none) s c 4 u) ∧
     (MayAccess t (t.getK c ka) permLoad a w →
       let r := t.scalarRead c a.toNat w
       r.2.poison = false →
       (∀ u, u = (if r.2.bytes = leBytes w b.toNat then r.1 else r.1.advance c w [ga] gc) →
         Completes (.rscan c size ga gb gc ka none) s c 4 u) ∧
       (MayAccess t (t.getK c kb) permLoad b w →
         let q := r.1.scalarRead c b.toNat w
         q.2.poison = false → ∀ u, u = (if r.2.bytes = q.2.bytes then q.1.advance c w [ga, gb] gc else q.1) →
           Completes (.rcmp c size ga gb gc ka kb none) s c 4 u))) ∧
  (∀ (c : CoreId) (size : BitVec 2) (ga gb gc : GReg) (ka : KReg) (s t : State), Issues s c 4 t → Plain t c →
     let w := 2 ^ size.toNat
     let a := (t.getG c ga).toNat
     let n := (t.getG c gc).toNat
     let k := t.getK c ka
     ga ≠ 0 → gc ≠ 0 → ga ≠ gc → gb ≠ ga → gb ≠ gc → k.usable → k.has permStore = true → k.has permFabric = true →
     a % w = 0 → k.base ≤ a → a + n * w ≤ k.top → 0x018000000000 ≤ a → a + n * w ≤ 0x0180040A0000 →
     CompletesIn (.rfill c size ga gb gc ka none) s c 4 fun u =>
       (∀ i < n, ∀ j < w, cellGet u.mem.data (a + i * w + j) = (t.getG c gb).extractLsb' (8 * j) 8) ∧
       (∀ b, (b < a ∨ a + n * w ≤ b) → cellGet u.mem.data b = cellGet t.mem.data b) ∧
       u.getG c gc = 0 ∧ (u.getG c ga).toNat = a + n * w ∧ u.getG c gb = t.getG c gb) ∧
  (∀ (c : CoreId) (size : BitVec 2) (ga gb gc : GReg) (ka kb : KReg) (pause : Option Nat) (s t : State),
     Issues s c 4 t → Plain t c →
     ((ga = gb ∨ ga = gc ∨ gb = gc ∨ ga = 0 ∨ gc = 0) → Traps (.rmov c size ga gb gc ka kb pause) s t c (cILLEGAL (t.pc c))) ∧
     (t.getG c gc = 0 →
       ∀ i ∈ [Instr.rfill c size ga gb gc ka pause, .rcmp c size ga gb gc ka kb pause, .rscan c size ga gb gc ka pause,
           .iload c ga gb gc ka kb pause, .iflush c ga gc ka pause, .dcclean c ga gc ka pause, .dcinval c ga gc ka pause],
         Completes i s c 4 t) ∧
     ((t.core c).ctl.status.ie = false ∨ (t.core c).ctl.status.sb = true →
       ∀ i ∈ [fun p => Instr.rfill c size ga gb gc ka p, fun p => .rmov c size ga gb gc ka kb p, fun p => .rcmp c size ga gb gc ka kb p,
           fun p => .rscan c size ga gb gc ka p, fun p => .iload c ga gb gc ka kb p, fun p => .iflush c ga gc ka p,
           fun p => .dcclean c ga gc ka p, fun p => .dcinval c ga gc ka p],
         exec (i pause) s = exec (i none) s))

/-- R67, R68, R70, R86: one line of `iload`, `iflush`, `dcclean` and `dcinval`, with the registers moved on. An installed line
is stored as read, with no instruction cache changed; a flushed line leaves every instruction cache; a cleaned line is
written back, and its copies stay, none dirty; an invalidated one is written back and dropped everywhere. R85: the
outstanding miss fills the L1 data cache, in the lowest free way of its set or in way rplfsr[1:0] (log entry 114), and the
replacement register steps once. A core with no miss outstanding is left as it is. -/
def Obligations.LineInstructions : Prop :=
  (∀ (c : CoreId) (ga gb gc : GReg) (ka kb : KReg) (s t : State), Issues s c 4 t → Plain t c →
     let a := t.getG c ga
     let b := t.getG c gb
     let k := t.getK c ka
     let n := a.toNat / 128
     let line := BitVec.ofNat 64 (128 * n)
     let writtenBack := fun u : State => ∀ (d : CoreId) (l : Line), (t.core d).cache.dirtyCopy n = some l →
       (∀ e : CoreId, e ≠ d → (t.core e).cache.dirtyCopy n = none) → (∀ i < 128, vget l.clobbered i false = false) →
       (t.homeStack (128 * n)).isSome = true → ∀ i < 128, cellGet u.mem.data (128 * n + i) = vget l.bytes i 0
     t.getG c gc = 1 →
     (k.usable → k.has permExec = true → k.has permStore = true → a.toNat % 128 = 0 → k.base ≤ a.toNat →
       a.toNat + 128 ≤ k.top → a.toNat + 128 ≤ istoreEnd t.scfg.ilvActive →
       MayAccess t (t.getK c kb) permLoad b 128 →
       let r := t.scalarRead c b.toNat 128
       r.2.poison = false → ∀ u, u = (r.1.writeInstLine n r.2.bytes).advance c 128 [ga, gb] gc →
         Completes (.iload c ga gb gc ka kb none) s c 4 u ∧
         (∀ d : CoreId, (u.core d).cache.icache = (t.core d).cache.icache) ∧
         (r.1.stackFenced (r.1.placeOfInst (128 * n)).st = false →
           (∀ j < 128, some (cellGet u.mem.istore (128 * n + j)) = r.2.bytes[j]?) ∧
           ∀ j, (j < 128 * n ∨ 128 * n + 128 ≤ j) → cellGet u.mem.istore j = cellGet t.mem.istore j)) ∧
     (k.usable → k.has permExec = true → k.base ≤ line.toNat → line.toNat + 128 ≤ k.top →
       line.toNat + 128 ≤ istoreEnd t.scfg.ilvActive →
       ∀ u, u = (t.dropInstLine n).advance c 128 [ga] gc → Completes (.iflush c ga gc ka none) s c 4 u ∧
         u.mem = t.mem ∧ ∀ d : CoreId, (∀ l ∈ (u.core d).cache.icache, l.addr ≠ n) ∧
           ∀ l, l.addr ≠ n → (l ∈ (u.core d).cache.icache ↔ l ∈ (t.core d).cache.icache)) ∧
     (MayMaintain t k line →
       (∀ u, u = (t.cleanLine n).advance c 128 [ga] gc →
         Completes (.dcclean c ga gc ka none) s c 4 u ∧ writtenBack u ∧
         ∀ d : CoreId, (u.core d).cache.dirtyCopy n = none ∧ (u.core d).cache.holds n = (t.core d).cache.holds n) ∧
       (∀ u, u = ((t.cleanLine n).dropCopies n none).advance c 128 [ga] gc →
         Completes (.dcinval c ga gc ka none) s c 4 u ∧ writtenBack u ∧
         ∀ d : CoreId, ((u.core d).cache).holds n = false))) ∧
  (∀ (c : CoreId) (s : State),
     ((s.core c).cache.miss = none → exec (.l1MissFill c) s = .next s) ∧
     ∀ l : CacheLine, (s.core c).cache.miss = some l →
       ∃ u, exec (.l1MissFill c) s = .next u ∧ (u.core c).cache.miss = none ∧
         (∃ k ∈ (u.core c).cache.l1, k.addr = l.addr ∧ k.line = l.line ∧ k.dirty = l.dirty ∧
           k.way = (freeWay ((s.core c).cache.setOf l.addr)).getD ((u.core c).ctl.rplfsr.extractLsb' 0 2).toFin) ∧
         (u.core c).ctl = { (s.core c).ctl with rplfsr := rplStep (s.core c).ctl.rplfsr } ∧
         u.core c = { s.core c with ctl := (u.core c).ctl, cache := (u.core c).cache } ∧
         (u.core c).cache.icache = (s.core c).cache.icache ∧ OthersKept s u c)

/-- R97, R98, R103: the instructions that write one capability register, with what each needs and gives. R98, R103: the
instructions that read a capability or the shadow bank into a general register. R92: `knarrow` and `knarrowx` take the
smallest exponent that fits, round the base down and the top up to it, keep the cursor, permissions and type, and raise
CAP_MONO where the rounded bounds leave ks1's, or where `knarrowx` would round. -/
def Obligations.CapabilityOperations : Prop :=
  (∀ (c : CoreId) (kd ks1 ks2 : KReg) (g : GReg) (n : BitVec 5) (s t : State), Issues s c 4 t → Plain t c →
     ∀ e ∈ capTable t c kd ks1 ks2 g n, e.2.1 → Completes e.1 s c 4 (t.setK c kd e.2.2)) ∧
  (∀ (c : CoreId) (gd : GReg) (ks1 ks2 : KReg) (n : BitVec 5) (s t : State), Issues s c 4 t → Plain t c →
     ∀ e ∈ capReads t c gd ks1 ks2 n, e.2.1 → Completes e.1 s c 4 (t.setG c gd e.2.2)) ∧
  (∀ (c : CoreId) (kd ks1 : KReg) (g : GReg) (e : Nat) (s t : State), Issues s c 4 t → Plain t c →
     let k := t.getK c ks1
     let a := k.cursor.toNat
     let n := (t.getG c g).toNat
     let lo := a / 2 ^ e * 2 ^ e
     let hi := (a + n + 2 ^ e - 1) / 2 ^ e * 2 ^ e
     let fits := fun d => (a + n + 2 ^ d - 1) / 2 ^ d - a / 2 ^ d ≤ 0x1E000
     k.usable → e ≤ 47 → fits e → (∀ d < e, ¬fits d) →
     (k.base ≤ lo → hi ≤ k.top → ∃ r : Cap, Completes (.knarrow c kd ks1 g) s c 4 (t.setK c kd r) ∧
       r.base = lo ∧ r.top = hi ∧ r.cursor = k.cursor ∧ r.perms = k.perms ∧ r.usable ∧
       (lo = a → hi = a + n → Completes (.knarrowx c kd ks1 g) s c 4 (t.setK c kd r)) ∧
       ((lo ≠ a ∨ hi ≠ a + n) → Traps (.knarrowx c kd ks1 g) s t c (cCAPMONO k.cursor (kNum ks1)))) ∧
     ((lo < k.base ∨ k.top < hi) → Traps (.knarrow c kd ks1 g) s t c (cCAPMONO k.cursor (kNum ks1))))

/-- R91, R96: a derived capability never exceeds the one it comes from. Where the result is tagged, its bounds are those of ks1
(or narrower, `knarrow`) and its permissions are among those of ks1, for every ks1 with bounds some instruction gives. -/
def Obligations.DerivedNeverExceeds : Prop :=
  ∀ (k : Cap) (v p : Word) (n : Nat) (exact : Bool) (ty : BitVec 7), k.boundsGiven = true →
    (∀ r ∈ [k.setCursor v, k.setPerms (k.perms &&& p.setWidth 16), k.sealAs ty, k.unseal, k.strip],
      r.tag = true → k.tag = true ∧ r.base = k.base ∧ r.top = k.top ∧ r.perms &&& ~~~k.perms = 0) ∧
    (∀ r, k.narrow n exact = some r →
      r.tag = k.tag ∧ r.isSealed = k.isSealed ∧ k.base ≤ r.base ∧ r.top ≤ k.top ∧ r.perms = k.perms)

/-- R99: `kgo` through an unsealed capability adds g to its cursor; through a gate it enters at the cursor, g0 given. kd takes
pcc at the next instruction, sealed as a gate. R88, R97: without MASK in pcc, kmfc and kmtc raise CAP_PERM and change no
capability control register. R107: mtc status sets ie, lm and ss and leaves sb; a change of ie needs MASK in pcc and setting
ss needs DEBUG. R97, R103: the instructions that write the shadow bank or a capability control register. -/
def Obligations.CapabilityControl : Prop :=
  (∀ (c : CoreId) (kd ks1 : KReg) (g : GReg) (s t : State), Issues s c 4 t → Plain t c →
     let k := t.getK c ks1
     let pcc := (t.core c).pcc
     let v := if k.isSealed then k.cursor else k.cursor + t.getG c g
     k.tag = true → k.has permExec = true → (k.isSealed = true → k.otype = 0x7E ∧ g = 0) →
     (k.exp = 63 ∨ (k.exp.toNat ≤ 47 ∧ k.lm.toNat ≤ 0x1E000)) →
     k.base ≤ v.toNat → v.toNat < k.top → v.toNat % 4 = 0 →
     ∃ target : Cap, target.cursor = v ∧ target.usable ∧ target.base = k.base ∧ target.top = k.top ∧ target.perms = k.perms ∧
       exec (.kgo c kd ks1 g) s =
         .next (t.setCore c (((t.core c).setK kd ((pcc.setCursor (pcc.cursor + 4)).sealAs 0x7E)).transferred target))) ∧
  (∀ (c : CoreId) (kd ks1 : KReg) (cc : BitVec 5) (s t : State), Issues s c 4 t →
     cc.toNat ≤ 1 → (t.core c).pcc.has permMask = false →
     Traps (.kmfc c kd cc) s t c cPCCPERM ∧ Traps (.kmtc c cc ks1) s t c cPCCPERM) ∧
  (∀ (c : CoreId) (rs1 : GReg) (s t : State), Issues s c 4 t → Plain t c →
     let x := t.core c
     let v := t.getG c rs1
     ((v.getLsbD 0 = x.ctl.status.ie ∨ x.pcc.has permMask = true) → (v.getLsbD 3 = false ∨ x.pcc.has permDebug = true) →
       v.getLsbD 1 = false →
       Completes (.mtc c 0 rs1) s c 4 (t.setCore c { x with ctl := { x.ctl with
         status := ⟨v.getLsbD 0, false, x.ctl.status.sb, v.getLsbD 3⟩ } })) ∧
     (v.getLsbD 0 ≠ x.ctl.status.ie → x.pcc.has permMask = false → Traps (.mtc c 0 rs1) s t c cPCCPERM) ∧
     (v.getLsbD 3 = true → x.pcc.has permDebug = false → Traps (.mtc c 0 rs1) s t c cPCCPERM)) ∧
  (∀ (c : CoreId) (ks1 : KReg) (g : GReg) (n : BitVec 5) (s t : State), Issues s c 4 t → Plain t c →
     ∀ e ∈ shadowWrites t c ks1 g n, e.2.1 → Completes e.1 s c 4 (t.setCore c e.2.2))

/-- The model's choices here: log entry 51 (the bank while it is saved), 117 (creg and xaddr of TAG_UNSUPPORTED) and 132 (xaddr of
`shload`'s POISON). R103: `shsave` to hub buffers leaves the 640-byte image of the bank there, the bank itself as it was, and sb clear; every
other byte is unchanged. To stack memory it stores the granules of the area one after the other, tags with them. A tagged
capability of the bank raises TAG_UNSUPPORTED in hub buffers. R103: `shload` fills the bank from the 640-byte area, its tags
kept only with LOADCAP, and sets sb; from hub buffers every tag is clear and memory is as it was. -/
def Obligations.ShadowFrames : Prop :=
  (∀ (c : CoreId) (ks1 : KReg) (s t : State), Issues s c 4 t → Plain t c →
     let k := t.getK c ks1
     let a := k.cursor.toNat
     let h := (t.core c).shadow
     k.usable → k.has permStore = true → k.has permStoreCap = true → a % 16 = 0 → k.base ≤ a → a + 640 ≤ k.top →
     (k.has permFabric = true → 0x018000000000 ≤ a → a + 640 ≤ 0x0180040A0000 →
       ((∀ r : KReg, (h.k[r]).tag = false) → h.pcc.tag = false →
         CompletesIn (.shsave c ks1) s c 4 fun u =>
           (u.core c).shadow = h ∧ (u.core c).ctl.status.sb = false ∧ (u.core c).g = (t.core c).g ∧
           (∀ r : GReg, r ≠ 0 → leNat (cellsGet u.mem.data (a + 8 * (r.val - 1)) 8) = (h.g[r]).toNat) ∧
           leNat (cellsGet u.mem.data (a + 248) 8) = h.status.toWord.toNat ∧
           (∀ r : KReg, leNat (cellsGet u.mem.data (a + 256 + 16 * r.val) 16) = (h.k[r]).bits.toNat) ∧
           leNat (cellsGet u.mem.data (a + 512) 16) = h.pcc.bits.toNat ∧
           (∀ j < 112, cellGet u.mem.data (a + 528 + j) = 0) ∧
           ∀ b, (b < a ∨ a + 640 ≤ b) → cellGet u.mem.data b = cellGet t.mem.data b) ∧
       ((∃ r : KReg, (h.k[r]).tag = true) ∨ h.pcc.tag = true →
         Traps (.shsave c ks1) s t c (cTAGUNSUPPORTED k.cursor (kNum ks1)))) ∧
     ((∀ j < 640, (t.region (a + j)).mapped = true ∧ t.region (a + j) ≠ .hub) →
       CompletesIn (.shsave c ks1) s c 4 fun u =>
         u = (t.writeGranules c a h.granules).mapCtl c (fun x => { x with status := { x.status with sb := false } }) ∧
         (u.core c).shadow = h ∧ (u.core c).g = (t.core c).g ∧ (u.core c).k = (t.core c).k)) ∧
  (∀ (c : CoreId) (ks1 : KReg) (s t : State), Issues s c 4 t → Plain t c →
     let k := t.getK c ks1
     let a := k.cursor.toNat
     k.usable → k.has permLoad = true → a % 16 = 0 → k.base ≤ a → a + 640 ≤ k.top →
     (k.has permFabric = true → 0x018000000000 ≤ a → a + 640 ≤ 0x0180040A0000 →
       CompletesIn (.shload c ks1) s c 4 fun u =>
         let h := (u.core c).shadow
         (u.core c).ctl.status.sb = true ∧ u.mem = t.mem ∧ (u.core c).g = (t.core c).g ∧ (u.core c).k = (t.core c).k ∧
         (∀ r : GReg, r ≠ 0 → (h.g[r]).toNat = leNat (cellsGet t.mem.data (a + 8 * (r.val - 1)) 8)) ∧
         (∀ r : KReg, (h.k[r]).tag = false ∧ (h.k[r]).bits.toNat = leNat (cellsGet t.mem.data (a + 256 + 16 * r.val) 16)) ∧
         h.pcc.tag = false ∧ h.pcc.bits.toNat = leNat (cellsGet t.mem.data (a + 512) 16) ∧
         h.status.toWord.toNat = leNat (cellsGet t.mem.data (a + 248) 8) % 16) ∧
     ((∀ j < 640, (t.region (a + j)).mapped = true ∧ t.region (a + j) ≠ .hub) →
       ∀ t1 : State,
         (∀ gs, t.readGranules c a 33 = (t1, .inr gs) →
           CompletesIn (.shload c ks1) s c 4 fun u => u.mem = t1.mem ∧ (u.core c).g = (t.core c).g ∧ (u.core c).k = (t.core c).k ∧
             (u.core c).ctl.status.sb = true ∧ (u.core c).shadow = shadowOf gs (k.has permLoadCap)) ∧
         (∀ x, t.readGranules c a 33 = (t1, .inl x) →
           exec (.shload c ks1) s = .next (t1.takeCause c (cPOISON (BitVec.ofNat 64 x) (kNum ks1)) (t.pc c)))))

/-- R106: `xret` restores the registers, the status with sb clear and pcc unsealed, where its checks pass, and a form that an
exception interrupted at that address goes on (log entry 129). A check that fails is reported in xcause and xaddr in place, and
the handler goes on: ILLEGAL with sb = 0, cause 11 where the saved pcc is no return gate to an instruction, CAP_PERM where
the status needs a permission that pcc lacks. -/
def Obligations.ReturnRestores : Prop :=
  ∀ (c : CoreId) (s t : State), Issues s c 4 t → Plain t c →
    let x := t.core c
    (MayReturn x →
      exec (.xret c) s = .next (t.setCore c (({ x with
        g := x.shadow.g, k := x.shadow.k, ctl := { x.ctl with status := { x.shadow.status with sb := false } },
        forms := x.forms.map fun l => if l.pc = x.shadow.pcc.cursor then { l with asleep := false, again := true } else l } : CoreState).transferred
          x.shadow.pcc.unseal))) ∧
    (x.ctl.status.sb = false →
      Completes (.xret c) s c 4 (t.setCore c { x with ctl := { x.ctl with xcause := 0, xaddr := t.pc c } })) ∧
    let p := x.shadow.pcc
    let gate := p.tag = true ∧ p.isSealed = true ∧ p.otype = 0x7F ∧ p.has permExec = true ∧ p.base ≤ p.cursor.toNat ∧
      p.cursor.toNat < p.top ∧ p.cursor.toNat % 4 = 0
    (x.ctl.status.sb = true → ¬gate →
      Completes (.xret c) s c 4 (t.setCore c { x with ctl := { x.ctl with xcause := 11 + 4096, xaddr := p.cursor } })) ∧
    (x.ctl.status.sb = true → gate →
      ((x.shadow.status.ie = false ∧ x.pcc.has permMask = false) ∨ (x.shadow.status.ss = true ∧ x.pcc.has permDebug = false)) →
      Completes (.xret c) s c 4 (t.setCore c { x with ctl := { x.ctl with xcause := 6 + 4096, xaddr := 0 } }))

/-- R101: `ecall` and `brk` complete and enter the handler: the bank holds the registers, the status and pcc at the next
instruction; pcc is xvcc, k15 is xdcc, the status masks events; xcause holds 13 or 12 and xaddr the instruction. R101, R107,
R108: an event is taken between instructions, or between the rows of a tile load, where ie = 1 and sb = 0: of ERROR (57),
WATCHDOG_WARN (58), POWER_NOTICE (59) and INTERRUPT (56) the first in this order that is pending; its notice goes, an interrupt
source stays pending for its claim, xcause has the asynchronous bit, xaddr is 0, and the program returns where it was. Masked,
it stays pending. With none deliverable the word at pcc is looked at (R57, R59; log entry 21, the model's choice): one that
spells no instruction raises ILLEGAL, any other leaves the state as it is. R101, R109: a synchronous cause enters the handler
with pcc at the instruction that raised it, and xcause and xaddr say which it was. R102: where sb = 1, or xvcc enters no
handler, every cause and every event is a double fault: xcause holds 63, xaddr what the second cause gives, the core is
fenced, its bank is as it was, and a record of severity 7 with the code 0x0101 is on its way. -/
def Obligations.EntriesAreTaken : Prop :=
  (∀ (c : CoreId) (s t : State), Issues s c 4 t → Plain t c →
     ∀ p ∈ [(Instr.ecall c, (13 : BitVec 6)), (.brk c, 12)],
       ((t.core c).ctl.status.sb = false → (t.core c).xvcc.entersHandler = true →
         Does p.1 s fun u => EntryOf (t.core c) (u.core c) (t.pc c + 4) ∧ (u.core c).ctl.xcause = p.2.setWidth 16 ∧
           (u.core c).ctl.xaddr = t.pc c ∧ u.mem = t.mem ∧ (u.core c).ctl.instret = (t.core c).ctl.instret + 1) ∧
       (((t.core c).ctl.status.sb = true ∨ (t.core c).xvcc.entersHandler = false) →
         Does p.1 s fun u => DoubleFault t u c p.2 (t.pc c))) ∧
  (∀ (c : CoreId) (code : BitVec 6) (q : TldJob) (s : State), s.coreRuns c = true →
     ((s.core c).tile.op = none ∨ (s.core c).tile.op = some (.tld q)) → (s.core c).str.wait = .none →
     let x := s.core c
     x.ctl.status.ie = true → x.ctl.status.sb = false → FirstEvent s c code →
     (x.xvcc.entersHandler = true →
       Does (.exceptionEntry c) s fun u => EntryOf x (u.core c) x.pcc.cursor ∧ (u.core c).ctl.xcause = code.setWidth 16 + 64 ∧
         (u.core c).ctl.xaddr = 0 ∧ (u.core c).tile.op = none ∧ u.int = s.int ∧ u.mem = s.mem ∧ OthersKept s u c ∧
         (u.core c).notice.error = (x.notice.error && code != 57) ∧ (u.core c).notice.watchdog = (x.notice.watchdog && code != 58) ∧
         (u.core c).notice.power = (x.notice.power && code != 59)) ∧
     (x.xvcc.entersHandler = false → Does (.exceptionEntry c) s fun u => DoubleFault s u c code 0)) ∧
  (∀ (c : CoreId) (s : State), s.coreRuns c = true → (s.core c).tile.op = none → (s.core c).str.wait = .none →
     let x := s.core c
     x.ctl.status.ie = false ∨ x.ctl.status.sb = true →
       let len := s.lengthAt c (s.pc c)
       ∀ t : State, Issues s c len t →
         let w := BitVec.ofNat 64 (t.instNat c (s.pc c).toNat len)
         ((decodeLanhibin c w).isSome = true → exec (.exceptionEntry c) s = .next s) ∧
         (decodeLanhibin c w = none → Traps (.exceptionEntry c) s t c (cILLEGAL (t.pc c)))) ∧
  (∀ (c : CoreId) (gd : GReg) (s t : State) (k : Cause), s.canIssue c = true →
     (s.fetch c 4 = (t, none) → Traps (.mfsg c gd 0) s t c (cILLEGAL (t.pc c))) ∧
     (s.fetch c 4 = (t, some k) → ∀ i ∈ [Instr.ecall c, .brk c, .xret c, .mfsg c gd 0], Traps i s t c k)) ∧
  (∀ (i : Instr) (c : CoreId) (s t : State) (k : Cause), Traps i s t c k →
     let x := t.core c
     (x.ctl.status.sb = false → x.xvcc.entersHandler = true →
       Does i s fun u => EntryOf x (u.core c) (t.pc c) ∧ (u.core c).ctl.xaddr = k.addr ∧ u.mem = t.mem ∧ OthersKept t u c ∧
         (u.core c).ctl.xcause = BitVec.ofNat 16 (k.code.toNat + (if k.deferred then 128 else 0) + 256 * k.creg.toNat +
           (if k.cpcc then 4096 else 0) + 8192 * k.engine.toNat)) ∧
     ((x.ctl.status.sb = true ∨ x.xvcc.entersHandler = false) →
       Does i s fun u => DoubleFault t u c k.code k.addr))

/-- R120, R121: the six mask operations write all w bits of each element of md from the governing bits of vs1 and vs2, under the
mask, vl and vresume, and nothing else. R117, R121: mpopc counts and mfirst finds, and with vl = 0 neither writes; mtov and
vtom move a whole mask, vsetvl sets vl. That mtov, vtom and vsetvl leave vresume alone and vsetvl makes no VLEN check is log
entry 23 (the model's choice). -/
def Obligations.MaskInstructions : Prop :=
  (∀ (c : CoreId) (f : VrFields) (s t : State), VecIssues s t c → VrPlain f →
     let x := t.core c
     let w := vrWidth f
     x.ctl.vl.toNat ≤ capacity (2 ^ f.grp.toNat) w →
     ∀ p ∈ maskTable c f, (∀ r ∈ p.2.1, r.val < 8) →
       ∃ y, exec p.1 s = .next (t.setCore c ((x.withVec y).advanced 8)) ∧
         WritesMask x.vec y f w (inBody t c) fun e =>
           p.2.2 (flagGet x.vec.m (16384 * f.vs1.val + w * e)) (flagGet x.vec.m (16384 * f.vs2.val + w * e))) ∧
  (∀ (c : CoreId) (f : VrFields) (s t : State), VecIssues s t c → VrPlain f →
     let x := t.core c
     let n := min (t.getG c f.vs3).toNat (2048 * 2 ^ f.grp.toNat / vrWidth f)
     (f.vs1.val < 8 → x.ctl.vl = 0 → ∀ i ∈ [Instr.mpopc c f, .mfirst c f],
       exec i s = .next (t.setCore c ((x.withVec x.vec).advanced 8))) ∧
     (f.vs1.val < 8 → x.ctl.vl ≠ 0 → x.ctl.vl.toNat ≤ capacity (2 ^ f.grp.toNat) (vrWidth f) →
       exec (.mpopc c f) s =
         .next (t.setCore c (((x.setG f.vd (BitVec.ofNat 64 (hitsOf t c f).length)).withVec x.vec).advanced 8)) ∧
       exec (.mfirst c f) s =
         .next (t.setCore c (((x.setG f.vd (match hitsOf t c f with
           | [] => BitVec.allOnes 64
           | e :: _ => BitVec.ofNat 64 e)).withVec x.vec).advanced 8))) ∧
     (f.vs1.val < 8 →
       ∃ v, exec (.mtov c f) s = .next (t.setCore c (({ x with vec := { x.vec with v := v } }).advanced 8)) ∧
         (∀ j < 2048, ∀ b < 8, (cellGet v (2048 * f.vd.val + j)).getLsbD b = flagGet x.vec.m (16384 * f.vs1.val + 8 * j + b)) ∧
         ∀ b, (b < 2048 * f.vd.val ∨ 2048 * (f.vd.val + 1) ≤ b) → cellGet v b = cellGet x.vec.v b) ∧
     (f.vd.val < 8 →
       ∃ m, exec (.vtom c f) s = .next (t.setCore c (({ x with vec := { x.vec with m := m } }).advanced 8)) ∧
         (∀ j < 2048, ∀ b < 8, flagGet m (16384 * f.vd.val + 8 * j + b) = (cellGet x.vec.v (2048 * f.vs1.val + j)).getLsbD b) ∧
         ∀ b, (b < 16384 * f.vd.val ∨ 16384 * (f.vd.val + 1) ≤ b) → flagGet m b = flagGet x.vec.m b) ∧
     exec (.vsetvl c f) s =
       .next (t.setCore c ((({ x with ctl := { x.ctl with vl := BitVec.ofNat 15 n } }).setG f.vd (BitVec.ofNat 64 n)).advanced 8)))

/-- R117, R131 to R133: the permutations and moves: what each element of vd becomes, or what reaches the general register. With
vresume at or past vl vext and vins write nothing but vresume. The model's choices here: log entries 24 (group checks), 126 (raw
lanes) and 128 (below vl the element and oor of vext and vins do not depend on vresume). R132, R133: vperm takes element vs2[e] of vs1; an index at or beyond vl gives 0 and sets
vxf.oor. -/
def Obligations.VectorPermutations : Prop :=
  (∀ (c : CoreId) (f : VrFields) (s t : State), VecIssues s t c → VrPlain f → f.sfmt = f.fmt →
     let x := t.core c
     let w := vrWidth f
     let g := 2 ^ f.grp.toNat
     let v := (t.getG c f.vs3).toNat
     let vl := x.ctl.vl.toNat
     vl ≤ capacity g w →
     (∀ p ∈ permTable t c f, f.vd.val % g = 0 → p.2.1 →
       ∃ y, exec p.1 s = .next (t.setCore c ((x.withVec y).advanced 8)) ∧ WritesElems x.vec y f f.vd.val g w (inBody t c) p.2.2) ∧
     (f.vd.val % g = 0 → f.vs1.val % g = 0 → groupsApart f.vd.val f.vs1.val g →
       (∃ y, exec (.vslideup c f) s = .next (t.setCore c ((x.withVec y).advanced 8)) ∧
         WritesElems x.vec y f f.vd.val g w (fun e => inBody t c e ∧ v ≤ e) fun e => x.vec.elem f.vs1.val (e - v) w) ∧
       (f.me = true →
         ∃ y, exec (.vcompress c f) s = .next (t.setCore c ((x.withVec y).advanced 8)) ∧ y.m = x.vec.m ∧
           (∀ b, (b < 2048 * f.vd.val ∨ 2048 * (f.vd.val + g) ≤ b) → cellGet y.v b = cellGet x.vec.v b) ∧
           ∀ k < capacity g w, y.elem f.vd.val k w = match (activeOf t c f)[k]? with
             | some e => if x.ctl.vresume.toNat ≤ e then x.vec.elem f.vs1.val e w else x.vec.elem f.vd.val k w
             | none => x.vec.elem f.vd.val k w)) ∧
     (vl ≤ x.ctl.vresume.toNat → f.vs1.val % g = 0 → f.vd.val % g = 0 → f.me = false → f.zm = false → f.ms = 0 →
       ∀ i ∈ [Instr.vext c f, .vins c f], exec i s = .next (t.setCore c ((x.withVec x.vec).advanced 8))) ∧
     (x.ctl.vresume.toNat < vl → f.me = false → f.zm = false → f.ms = 0 → f.vs1.val % g = 0 →
       exec (.vext c f) s = .next (t.setCore c ((({ x with ctl := { x.ctl with oor := x.ctl.oor || decide (vl ≤ v) } }.setG f.vd
         (if v < vl then BitVec.ofNat 64 (x.vec.elem f.vs1.val v w) else 0)).withVec x.vec).advanced 8))) ∧
     (x.ctl.vresume.toNat < vl → f.vd.val % g = 0 →
       let p := (t.getG c f.vs1).toNat
       ∃ y, exec (.vins c f) s =
           .next (t.setCore c (({ x with ctl := { x.ctl with oor := x.ctl.oor || decide (vl ≤ p) } }.withVec y).advanced 8)) ∧
         WritesElems x.vec y f f.vd.val g w (fun e => inBody t c e ∧ e = p) fun _ => v % 2 ^ (8 * w))) ∧
  (∀ (c : CoreId) (f : VrFields) (s t : State), VecIssues s t c → VrPlain f →
     let x := t.core c
     let w := vrWidth f
     let g := 2 ^ f.grp.toNat
     let vl := x.ctl.vl.toNat
     ∀ wi, (f.sfmt = 12 ∧ wi = 2) ∨ (f.sfmt = 13 ∧ wi = 4) →
     let span := max 1 (g * wi / w)
     let idx := fun e => x.vec.elem f.vs2.val e wi
     vl ≤ capacity g w → f.vd.val % g = 0 → f.vs1.val % g = 0 → span ≤ 8 → f.vs2.val % span = 0 →
     groupsApart f.vd.val f.vs1.val g → (f.vd.val + g ≤ f.vs2.val ∨ f.vs2.val + span ≤ f.vd.val) →
     ∃ y b, exec (.vperm c f) s = .next (t.setCore c (({ x with ctl := { x.ctl with oor := x.ctl.oor || b } }.withVec y).advanced 8)) ∧
       (b = true ↔ ∃ e, inBody t c e ∧ x.vec.active f.me f.ms.val e w = true ∧ vl ≤ idx e) ∧
       WritesElems x.vec y f f.vd.val g w (inBody t c) fun e => if idx e < vl then x.vec.elem f.vs1.val (idx e) w else 0)

/-- R126 to R129: a long-vector load whose elements may all be reached gives each active element, or each field of each active
structure, the bytes at its address; it writes nothing but its registers. The stacks it reads count the activations of their
rows (R267), the credits its requests pass are counted (R364; log entry 56, the model's choice). -/
def Obligations.VectorLoads : Prop :=
  ∀ (c : CoreId) (f : VmFields) (fm : Fmt) (nf : Nat) (s t : State), VecIssues s t c → FormFresh t c →
    Fmt.ofCode f.fmt = some fm → 8 ≤ fm.bits →
    let x := t.core c
    let w := fm.lanes
    let g := 2 ^ f.grp.toNat
    ∀ p ∈ [(Instr.vld c f none, VmMode.unit), (.vlds c f none, .strided), (.vldx c f none, .indexed), (.vlseg c f none, .structure)],
      let a := fun e => vmElemAddr t c f p.2 w nf e
      VmIssues t c f p.2 false w nf →
      (∀ e, vmReaches t c f w e → MayReach t (t.getK c f.kb) (a e) (w * nf) w ∧ PlainAt t (a e).toNat (w * nf)) →
      ∃ y v, exec p.1 s = .next (v.setCore c ((x.withVec y).advanced 8)) ∧ Reads t v ∧
        (∀ q < nf, ∀ e < capacity g w,
          (vmReaches t c f w e → y.elem (f.v.val + q * g) e w = leNat (cellsGet t.mem.data ((a e).toNat + w * q) w)) ∧
          (¬vmReaches t c f w e →
            y.elem (f.v.val + q * g) e w = if inBody t c e ∧ f.zm = true then 0 else x.vec.elem (f.v.val + q * g) e w)) ∧
        y.m = x.vec.m ∧
        ∀ b, (b < 2048 * f.v.val ∨ 2048 * (f.v.val + nf * g) ≤ b) → cellGet y.v b = cellGet x.vec.v b

/-- R93, R126 to R129: a long-vector store puts the bytes of each active element, or of the fields of each active structure, at
its address, the later element where two meet; no other byte changes, and no register but vresume. Granules it reaches lose
their tags. The stacks it writes count the activations of their rows (R267), the credits its requests pass are
counted (R364; log entry 56, the model's choice). -/
def Obligations.VectorStores : Prop :=
  ∀ (c : CoreId) (f : VmFields) (fm : Fmt) (nf : Nat) (s t : State), VecIssues s t c → FormFresh t c →
    Fmt.ofCode f.fmt = some fm → 8 ≤ fm.bits →
    let x := t.core c
    let w := fm.lanes
    let g := 2 ^ f.grp.toNat
    ∀ p ∈ [(Instr.vst c f none, VmMode.unit), (.vsts c f none, .strided), (.vstx c f none, .indexed), (.vsseg c f none, .structure)],
      let a := fun e => vmElemAddr t c f p.2 w nf e
      let covers := fun e b => vmReaches t c f w e ∧ (a e).toNat ≤ b ∧ b < (a e).toNat + w * nf
      VmIssues t c f p.2 true w nf →
      (∀ e, vmReaches t c f w e → MayReach t (t.getK c f.kb) (a e) (w * nf) w ∧ PlainAt t (a e).toNat (w * nf)) →
      ∃ m v, exec p.1 s = .next ((v.setMem m).setCore c ((x.withVec x.vec).advanced 8)) ∧ Reads t v ∧
        (∀ e b, covers e b → (∀ e', covers e' b → e' ≤ e) →
          let o := b - (a e).toNat
          (cellGet m.data b).toNat = x.vec.elem (f.v.val + o / w * g) e w / 256 ^ (o % w) % 256) ∧
        (∀ b, (∀ e, ¬covers e b) → cellGet m.data b = cellGet t.mem.data b) ∧
        (∀ e b, covers e b → (t.homeStack b).isSome = true → flagGet m.tags (b / 16) = false) ∧
        m.istore = t.mem.istore

/-- R30, R118, R126: elements narrower than a byte are packed in memory: a unit-stride load takes them from their bits, a store
puts them back and leaves the bits of masked-off elements. A load writes no masked-off element of a packing group that holds
an active one. R194, R196 to R202: a Bramble register form, and a comparison, a dropout or a generator among them, writes
what the stages give each active element, ORs the flags of the scalar and of the active elements into fflags, adds vl to
rngctr and clears vresume. R117: with vl = 0 it writes nothing. R44, R45: a magnitude m · 2^e rounded to a multiple of 2^(e
+ k): to nearest with ties to even, toward zero, down, up, and stochastically with the 16-bit field r. -/
def Obligations.BrambleForms : Prop :=
  (∀ (c : CoreId) (f : VmFields) (fm : Fmt) (n nb : Nat) (s t : State), VecIssues s t c → FormFresh t c →
     Fmt.ofCode f.fmt = some fm → packGroup fm = some (n, nb) →
     let x := t.core c
     let vl := x.ctl.vl.toNat
     let start := x.ctl.vresume.toNat
     let a := ((t.getK c f.kb).cursor + BitVec.ofInt 64 f.off16.toInt).toNat
     let k := t.getK c f.kb
     let field := fun (m : List Host.Cell) e => leNat (cellsGet m (a + nb * (e / n)) nb) / 2 ^ (fm.bits * (e % n)) % 2 ^ fm.bits
     let mixed := fun e => ∃ j, j / n = e / n ∧ vmReaches t c f 1 j
     k.base ≤ a → a + nb * ((vl + n - 1) / n) ≤ k.top → a + nb * ((vl + n - 1) / n) ≤ 2 ^ 64 →
     (∀ j < nb * ((vl + n - 1) / n), (t.region (a + j)).mapped = true ∧ (t.region (a + j) = .hub → k.has permFabric = true)) →
     PlainAt t a (nb * ((vl + n - 1) / n)) →
     (VmIssues t c f .unit false 1 1 →
       ∃ y v, exec (.vld c f none) s = .next (v.setCore c ((x.withVec y).advanced 8)) ∧ Reads t v ∧ y.m = x.vec.m ∧
         (∀ e < capacity (2 ^ f.grp.toNat) 1,
           (vmReaches t c f 1 e → y.elem f.v.val e 1 = laneOf fm (field t.mem.data e)) ∧
           (¬vmReaches t c f 1 e →
             (inBody t c e → f.zm = true → ¬mixed e → y.elem f.v.val e 1 = 0) ∧
             (¬inBody t c e ∨ f.zm = false ∨ mixed e → y.elem f.v.val e 1 = x.vec.elem f.v.val e 1))) ∧
         ∀ b, (b < 2048 * f.v.val ∨ 2048 * (f.v.val + 2 ^ f.grp.toNat) ≤ b) → cellGet y.v b = cellGet x.vec.v b) ∧
     (VmIssues t c f .unit true 1 1 → vl % n = 0 → start % n = 0 →
       ∃ m v, exec (.vst c f none) s = .next ((v.setMem m).setCore c ((x.withVec x.vec).advanced 8)) ∧ Reads t v ∧
         (∀ e < vl, field m.data e =
           if vmReaches t c f 1 e then x.vec.elem f.v.val e 1 % 2 ^ fm.bits else field t.mem.data e) ∧
         ∀ b, (b < a ∨ a + nb * (vl / n) ≤ b) → cellGet m.data b = cellGet t.mem.data b)) ∧
  (∀ (c : CoreId) (op : BitVec 5) (cond : BitVec 2) (func : BitVec 3) (f : VrFields) (sf df : Fmt) (rm : RMode) (s t : State),
     VecIssues s t c →
     ∀ p ∈ [(Instr.vc c op func 0 f, op), (.vcCompare c cond func 0 f, opCeq + cond.setWidth 5), (.vcDrop c func 0 f, opDrop),
         (.vcRandu c func 0 f, opRandu), (.vcRandb c func 0 f, opRandb)],
       ChainIssues t c p.2 func 0 f sf df rm →
       let x := t.core c
       let k := chainTaken t c p.2 func f sf df rm
       let rs := chainResults t c f k.1
       let res := fun e => registerElem k.1 f x.vec (t.vectorDraws c) e
       (x.ctl.vl = 0 → exec p.1 s = .next (t.setCore c ((x.withVec x.vec).advanced 8))) ∧
       (x.ctl.vl ≠ 0 → ∃ y, exec p.1 s = .next (t.setCore c (({ x with vec := y, ctl := { x.ctl with
           fflags := x.ctl.fflags ||| rs.foldl (fun v (r : ElemResult) => v ||| r.flags) k.2,
           rngctr := x.ctl.rngctr + x.ctl.vl.setWidth 64, vresume := 0 } }).advanced 8)) ∧
         if opCompares p.2 then WritesMask x.vec y f df.lanes (inBody t c) fun e => (res e).raw != 0
         else WritesElems x.vec y f f.vd.val (operandGroup (2 ^ f.grp.toNat) df.lanes (chainLanes sf df)) df.lanes (inBody t c)
           fun e => laneOf df (res e).raw)) ∧
  (∀ (neg : Bool) (m k r : Nat) (e : Int) (mode : RMode), 0 < k → r < 65536 →
     let p := roundMag neg m e (e + k) mode r
     let n := p.1
     let up := if mode = .rdn then neg else !neg
     (p.2 = true ↔ ¬2 ^ k ∣ m) ∧
     (mode = .rtz → n = m / 2 ^ k) ∧
     (mode = .rne → 2 * n * 2 ^ k ≤ 2 * m + 2 ^ k ∧ 2 * m ≤ 2 * n * 2 ^ k + 2 ^ k ∧
       (2 * n * 2 ^ k = 2 * m + 2 ^ k ∨ 2 * m = 2 * n * 2 ^ k + 2 ^ k → n % 2 = 0)) ∧
     (mode = .rdn ∨ mode = .rup → if up then m ≤ n * 2 ^ k ∧ n * 2 ^ k < m + 2 ^ k else n * 2 ^ k ≤ m ∧ m < n * 2 ^ k + 2 ^ k) ∧
     (mode = .sr → n = if 65536 ≤ m % 2 ^ k * 65536 / 2 ^ k + r then m / 2 ^ k + 1 else m / 2 ^ k))

/-- R202, R203: a register form that reduces also writes the reduction of its active elements to the general register in vs2,
and the winner's index to the next one for a maximum or minimum; vs2 = 0 discards them. With vl = 0 it writes nothing
(R117). R43, R197, R199: on one integer format, with no scale and no function, an element is the exact result brought into
the range of the format. -/
def Obligations.BrambleReductions : Prop :=
  (∀ (c : CoreId) (op : BitVec 5) (func : BitVec 3) (red : BitVec 2) (f : VrFields) (sf df : Fmt) (rm : RMode) (s t : State),
     VecIssues s t c → red ≠ 0 → ChainIssues t c op func red f sf df rm →
     let x := t.core c
     let k := (chainTaken t c op func f sf df rm).1
     let r := laneReduce red k.wide k.isInt (512 / chainLanes sf df) ((chainResults t c f k).map fun e => (e.idx, e.value))
     let raw := BitVec.ofNat 64 (packStage k r.1 (drawField ((t.vectorDraws c).draw 0) 7)).1
     (x.ctl.vl = 0 → exec (.vc c op func red f) s = .next (t.setCore c ((x.withVec x.vec).advanced 8))) ∧
     (x.ctl.vl ≠ 0 → ∃ u, exec (.vc c op func red f) s = .next u ∧
       (f.vs2 = 0 → (u.core c).g = x.g) ∧
       (f.vs2 ≠ 0 → u.getG c f.vs2 = raw ∧ (∀ i, r.2.1 = some i → u.getG c (f.vs2 + 1) = i) ∧
         (∀ q : GReg, q ≠ f.vs2 → (r.2.1 = none ∨ q ≠ f.vs2 + 1) → u.getG c q = t.getG c q)) ∧
       (r.2.1 = none ↔ red = 1) ∧ (u.core c).k = x.k ∧ u.mem = t.mem ∧ u.recd = t.recd ∧
       (u.core c).pcc = x.pcc.setCursor (x.pcc.cursor + 8))) ∧
  (∀ (df : Fmt) (rm : RMode) (ctl : FmtCtl) (func : BitVec 3) (a b s0 : Int) (raw : Word) (s1 : FVal) (d : BitVec 128),
     df.isInt = true → func = 0 → ∀ e ∈ intTable,
       let w := df.bits
       a = saturate w a → b = saturate w b → s0 = saturate (if df.workWide then 64 else 32) s0 →
       (chainElem ⟨e.1, func, df, df, rm, ctl, raw, .i s0, s1⟩ (.i a) (.i b) d).2.1 =
         (BitVec.ofInt w (saturate w (e.2 a b s0))).toNat)

/-- R144, R166, R176, R180, R182: qstat, qmma and tld issue: they hold their core until their rows have been loaded, admitted or
have arrived; a qmma that starts sets the mode of the slots it covers. With trestart past its last row each completes at
once. R48, R186: qdrain completes at once: the drain waits behind the others, and rngctr moves on by its elements. R27,
R148, R186, R187, R221: the oldest drain starts a slot no earlier row is still to reach, pauses and resumes while its output
is full, and at the slot's end has given the slot's rows, from its next one on, to its destination, up to a full output,
which holds it at a row; no accumulator, register or memory changes. A row that goes to a tile buffer without scales stands
there converted to its format. -/
def Obligations.TileInstructions : Prop :=
  (∀ (c : CoreId) (gs gu gp : GReg) (kb : KReg) (tsc ssc neg start : Bool) (tfmt sfmt : BitVec 5) (n k : BitVec 10) (m : BitVec 11)
     (slot : Fin 16) (off : BitVec 16) (len : BitVec 12) (s t : State), Issues s c 8 t → Plain t c →
     let x := t.core c
     let rows := if m = 0 then 2048 else m.toNat
     let at_ := x.ctl.trestart.toNat
     (∀ q : Qstat, q = ⟨x.tile.seq, tsc, tfmt, n.toNat, k.toNat, parseOperand (t.getG c gs)⟩ → StatIssues t c q →
       Does (.qstat c gs tsc n k tfmt) s fun u => (u.core c).tile.seq = x.tile.seq + 1 ∧
         (u.core c).tile.acc = x.tile.acc ∧ (u.core c).tile.modes = x.tile.modes ∧ (u.core c).g = x.g ∧ u.mem = t.mem ∧
         OthersKept t u c ∧
         (at_ < 512 → (u.core c).tile.op = some (.qstat q) ∧ (u.core c).ctl = x.ctl ∧ RegsKept t u c) ∧
         (512 ≤ at_ → AtBoundary t u c ∧ (u.core c).tile.stat.usable = true)) ∧
     (∀ q : Qmma, q = ⟨x.tile.seq, tsc, ssc, neg, start, tfmt, sfmt, n.toNat, k.toNat, rows, slot.val,
         parseOperand (t.getG c gs), x.pcc.cursor⟩ → MmaIssues t c q →
       Does (.qmma c gs tsc ssc neg start tfmt sfmt n k m slot) s fun u =>
         (u.core c).tile.seq = x.tile.seq + 1 ∧ (u.core c).tile.acc = x.tile.acc ∧ (u.core c).g = x.g ∧ u.mem = t.mem ∧
         OthersKept t u c ∧
         (at_ < rows → (u.core c).tile.op = some (.qmma q) ∧ (u.core c).ctl = x.ctl ∧ RegsKept t u c) ∧
         (rows ≤ at_ → AtBoundary t u c) ∧
         ∀ e < 16, (u.core c).tile.mode e =
           if start = true ∧ slot.val ≤ e ∧ e < slot.val + (rows + 127) / 128 then modeOf q.floatMode else x.tile.mode e) ∧
     (∀ j : TldJob, j = ⟨(t.getK c kb).cursor + BitVec.ofInt 64 off.toInt, t.getG c gp, (t.getG c gu).toNat % 65536, len.toNat, rows,
         kb, t.getK c kb⟩ → (t.getK c kb).usable → (t.getK c kb).has permLoad = true → 1 ≤ j.len → j.len ≤ 2048 →
         j.unit + rows * ((j.len + 63) / 64) ≤ 256 * x.tile.tblocks.toNat → x.str.fence = [] → x.tile.areaBusy = false →
       (at_ < rows → exec (.tld c off gu gp len m kb) s = .next (t.setCore c { x with tile := { x.tile with op := some (.tld j) } })) ∧
       (rows ≤ at_ → exec (.tld c off gu gp len m kb) s =
         .next (t.setCore c (({ x with ctl := { x.ctl with trestart := 0 } }).advanced 8))))) ∧
  (∀ (c : CoreId) (cfg : BitVec 8) (st : Bool) (gsc gd : GReg) (rm : BitVec 3) (fmt : BitVec 4) (n : BitVec 10) (m : BitVec 11)
     (slot : Fin 16) (s t : State), Issues s c 8 t → Plain t c →
     let x := t.core c
     let d := t.drainOf c cfg st (t.getG c gsc) (t.getG c gd) rm fmt n m slot.val
     DrainIssues t c d n rm (t.getG c gd) →
     let count : Nat := (if m = 0 then 2048 else m.toNat) * n.toNat
     exec (.qdrain c cfg st gsc gd rm fmt n m slot) s =
       .next (t.setCore c (({ x with tile := { x.tile with drains := x.tile.drains ++ [d], seq := x.tile.seq + 1 },
                                     ctl := { x.ctl with rngctr := x.ctl.rngctr + BitVec.ofNat 64 count } }).advanced 8))) ∧
  (∀ (c : CoreId) (slot : Fin 16) (d : Drain) (rest : List Drain) (s : State), DrainHead s c slot d rest →
     let ready := d.started = true ∧ d.paused = false
     let after := if d.done + 1 < (d.m + 127) / 128 then { d with done := d.done + 1, started := false, row := 0 } :: rest else rest
     (d.started = false → (s.tile c).slotUnwritten slot.val d.seq = false →
       exec (.drainSlotReadStart c slot) s = .next (withDrains s c ({ d with started := true } :: rest))) ∧
     (ready → exec (.drainPause c slot) s = .next (withDrains s c ({ d with paused := true } :: rest))) ∧
     (d.paused = true → exec (.drainResume c slot) s = .next (withDrains s c ({ d with paused := false } :: rest))) ∧
     (ready → Does (.drainSlotReadEnd c slot) s fun u =>
       (((u.tile c).drains = after ∨ ∃ n, 128 * d.done + d.row + n < d.m ∧ d.row + n < 128 ∧
           (u.tile c).drains = { d with row := d.row + n } :: rest ∧ ∃ e, d.dest = .store e ∧ u.storeFull c (4 + e.val) = true)) ∧
       (u.tile c).acc = (s.tile c).acc ∧ (u.tile c).modes = (s.tile c).modes ∧ (u.core c).g = (s.core c).g ∧ (u.core c).k = (s.core c).k ∧
       (u.core c).pcc = (s.core c).pcc ∧ u.mem = s.mem ∧ OthersKept s u c) ∧
     (∀ b, ready → d.dest = .tileBuffer b → d.cfg.getLsbD 3 = false → d.st = false → d.operand.getLsbD 33 = false →
       8 ∣ d.format.bits →
       Does (.drainSlotReadEnd c slot) s fun u => (u.tile c).drains = after ∧
         let w := d.format.bits / 8
         (∀ m, 128 * d.done + d.row ≤ m → m < 128 * d.done + 128 → m < d.m → ∀ n < d.n,
           leNat (cellsGet (u.tile c).tb (b + m * d.n * w + n * w) w) =
             (encodeElem d.format (d.value ((s.tile c).accGet (128 * d.slot + m) n) 0).1 d.rounding ⟨d.fmtSat, d.fmtDnan⟩ false
               (if d.rounding = .sr then drawField (d.draws.draw (m * d.n + n)) 0 else 0)).1 % 2 ^ d.format.bits) ∧
         ∀ j, (j < b + (128 * d.done + d.row) * d.n * w ∨ b + (128 * d.done + 128) * d.n * w ≤ j) →
           cellGet (u.tile c).tb j = cellGet (s.tile c).tb j))

/-- R166, R189 to R191: accpeek reads one accumulator word or accmode, and needs DEBUG. accsave writes the modes and every word
from the entry at trestart on to memory, and accrestore takes them back, after which the stationary operand is unusable; a
save that begins anew writes the 64 bytes of the header first. R247, R248: both need tags and their bank groups free. -/
def Obligations.AccumulatorsAreSaved : Prop :=
  ∀ (c : CoreId) (gs gd : GReg) (kb : KReg) (pause : Option Nat) (s t : State), Issues s c 8 t → Plain t c →
    t.pauseAt c pause = none →
    let x := t.core c
    let v := t.getG c gs
    let k := t.getK c kb
    let a := k.cursor.toNat
    let r := x.ctl.trestart.toNat
    let word := fun (w : State) e n => leNat (cellsGet w.mem.data (a + 64 + 3072 * e + 6 * n) 6)
    (x.pcc.has permDebug = true →
      (v.getLsbD 20 = true → exec (.accpeek c gs gd) s = .next (t.setCore c ((x.setG gd (BitVec.ofNat 64 x.tile.accmode)).advanced 8))) ∧
      (v.getLsbD 20 = false → x.tile.slotPending (v.toNat % 2048 / 128) = false →
        exec (.accpeek c gs gd) s = .next (t.setCore c ((x.setG gd
          ((x.tile.accGet (v.toNat % 2048) (v.toNat / 2048 % 512)).setWidth 64)).advanced 8)))) ∧
    (x.pcc.has permDebug = false → Traps (.accpeek c gs gd) s t c cPCCPERM) ∧
    (MaySave t c k permStore →
      Does (.accsave c kb pause) s fun u => (∀ e < 2048, r ≤ e → ∀ n < 512, word u e n = (x.tile.accGet e n).toNat) ∧
        (r = 0 → leNat (cellsGet u.mem.data a 4) = x.tile.accmode ∧ ∀ j, 4 ≤ j → j < 64 → cellGet u.mem.data (a + j) = 0) ∧
        (∀ b, (b < a ∨ a + 6291520 ≤ b ∨ (r ≠ 0 ∧ b < a + 64 + 3072 * r)) → cellGet u.mem.data b = cellGet t.mem.data b) ∧
        (u.core c).ctl = { x.ctl with trestart := 0, instret := x.ctl.instret + 1 } ∧ (u.core c).g = x.g ∧ (u.core c).k = x.k ∧
        (u.core c).tile = { x.tile with waitsAt := none } ∧ (u.core c).vec = x.vec ∧
        (u.core c).pcc = x.pcc.setCursor (x.pcc.cursor + 8)) ∧
    (MaySave t c k permLoad → (∀ i < 16, leNat (cellsGet t.mem.data a 4) / 4 ^ i % 4 ≠ 3) →
      Does (.accrestore c kb pause) s fun u =>
        (∀ e < 2048, ∀ n < 512, if r ≤ e then ((u.core c).tile.accGet e n).toNat = word t e n
          else (u.core c).tile.accGet e n = x.tile.accGet e n) ∧
        (u.core c).tile.accmode = leNat (cellsGet t.mem.data a 4) ∧ (u.core c).tile.stat.usable = false ∧
        (u.core c).tile.restored = true ∧ (u.core c).ctl = { x.ctl with trestart := 0, instret := x.ctl.instret + 1 } ∧
        (u.core c).g = x.g ∧ (u.core c).k = x.k ∧ (u.core c).vec = x.vec ∧ (u.core c).pcc = x.pcc.setCursor (x.pcc.cursor + 8) ∧
        u.mem = t.mem ∧ OthersKept t u c)

/-- R135, R144, R176, R179: the next stationary row enters the cells, zeros past row K − 1; after row 511 the operand is usable
and the next instruction issues. R147, R150, R159, R162, R163: the next row of a qmma enters the array with its column sums,
an integer one exact in 48 bits; after the last the next instruction issues. An armed injection strikes the row that enters,
once. A row that must stream again enters before any other once the operand is loaded again. A cycle in which no row can
enter is counted as invalid. -/
def Obligations.TileRowsEnter : Prop :=
  (∀ (c : CoreId) (q : Qstat) (d : RowData) (s : State),
     let x := s.core c
     let r := x.ctl.trestart.toNat
     s.coreRuns c = true → Plain s c → x.tile.op = some (.qstat q) → x.tile.hold = false → x.tile.retry = none → r < 512 →
     (r < q.k → x.rowOf q.src (statShape q.tfmt q.n q.tsc) r = some d) →
     Does (.stationaryRowLoad c) s fun u =>
       (∀ n < 512, (u.core c).tile.stat.cell r n = if r < q.k ∧ n < q.n then packedElem d.bytes (qWidth q.tfmt) n else 0) ∧
       (∀ k < 512, k ≠ r → ∀ n < 512, (u.core c).tile.stat.cell k n = x.tile.stat.cell k n) ∧
       (u.core c).tile.acc = x.tile.acc ∧ (u.core c).g = x.g ∧ u.mem = s.mem ∧ OthersKept s u c ∧
       (r < 511 → (u.core c).tile.op = x.tile.op ∧ (u.core c).ctl.trestart.toNat = r + 1 ∧ (u.core c).pcc = x.pcc) ∧
       (r = 511 → AtBoundary s u c ∧ (u.core c).tile.stat.usable = true ∧ (u.core c).tile.stat.fmt = q.tfmt ∧
         (u.core c).tile.stat.k = q.k ∧ (u.core c).tile.stat.n = q.n)) ∧
  (∀ (c : CoreId) (q : Qmma) (d : RowData) (s : State),
     let x := s.core c
     let r := x.ctl.trestart.toNat
     let j := s.inject
     let strikes := j.armed = true ∧ j.core.toNat = c.val
     s.coreRuns c = true → Plain s c → x.tile.op = some (.qmma q) → x.tile.hold = false →
     (x.tile.retry = none → x.rowOf q.src (streamShape q.sfmt q.k q.ssc) r = some d → x.tile.slotOpen q r = true → r < q.m →
       q.m ≤ 2048 →
       Does (.quinceRowEnter c) s fun u =>
         (∃ a : ArrayRow, (u.core c).tile.rows = x.tile.rows ++ [a] ∧ a.m = r ∧ a.op = q ∧ a.bytes = d.bytes ∧ a.checked = false ∧
           a.pass = 1 ∧ a.sums.length = q.n ∧ (strikes → a.flip = some (j.k, j.n) ∧ a.again = j.twice) ∧ (¬strikes → a.flip = none) ∧
           (q.floatMode = false → ∀ n < q.n, a.sums.getD n 0 = BitVec.ofInt 48
             ((if q.neg then -1 else 1) * ((List.range q.k).map fun k =>
               qInt q.sfmt (packedElem d.bytes (qWidth q.sfmt) k) * qInt q.tfmt (x.tile.stat.cell k n)).sum))) ∧
         (strikes → u.inject.armed = false) ∧
         (u.core c).tile.qc.valid = x.tile.qc.valid + BitVec.ofNat 64 (qCycles q.sfmt) ∧ (u.core c).tile.acc = x.tile.acc ∧
         (u.core c).g = x.g ∧ u.mem = s.mem ∧ OthersKept s u c ∧
         (r + 1 < q.m → (u.core c).tile.op = x.tile.op ∧ (u.core c).ctl.trestart.toNat = r + 1 ∧ (u.core c).pcc = x.pcc) ∧
         (r + 1 = q.m → AtBoundary s u c)) ∧
     (∀ (a : ArrayRow) (more : List ArrayRow), x.tile.retry = some ⟨a :: more, true⟩ → x.tile.slotOpen a.op a.m = true → ¬strikes →
       exec (.quinceRowEnter c) s = .next (s.setCore c { x with tile := { x.tile with
         rows := x.tile.rows ++ [{ a with flip := if a.again then a.flip else none, again := false }]
         retry := if more = [] then none else some ⟨more, true⟩
         qc := { x.tile.qc with valid := x.tile.qc.valid + BitVec.ofNat 64 (qCycles a.op.sfmt) } } })) ∧
     (x.tile.retry = none → (∀ e, x.rowOf q.src (streamShape q.sfmt q.k q.ssc) r = some e → x.tile.slotOpen q r = false) →
       exec (.invalidCycle c) s = .next (s.setCore c { x with tile := { x.tile with
         qc := { x.tile.qc with invalid := x.tile.qc.invalid + 1 } } })))

/-- R156 to R161, R108: a row that nothing strikes has passed its checks. One error, of a product, an adder or an injection, is
found at its stationary row with its check kind: in the first pass it sends the row and the rows after it back to stream
again, in the second it fences the core, with QUINCE_CHECK and the address of the qmma in xcause and xaddr. A row that
passes after a retry is recorded. R138, R148, R159, R165, R168, R180: the oldest checked row's sums reach its accumulator
entry: a start replaces, otherwise they are added, integers clamped to 32 bits with a sticky mark; a slot that a drain still
has to read holds the array until it has been read; a retry loads the operand again once the array is empty. -/
def Obligations.TileRowsLeave : Prop :=
  (∀ (c : CoreId) (r : ArrayRow) (done rest : List ArrayRow) (err : Option ArrayFault) (s : State),
     let x := s.core c
     let o := x.tile.operandOf r
     s.coreRuns c = true → x.tile.hold = false → x.tile.rows = done ++ r :: rest → (∀ y ∈ done, y.checked = true ∨ y.m ≠ r.m) →
     r.checked = false → CheckRowRight o r.op.tfmt r.op.k →
     (Unstruck r err → Does (.quinceRowCheck c r.m err) s fun u =>
       (u.core c).tile.rows = done ++ { r with checked := true } :: rest ∧
       (u.core c).tile.qc.rows = x.tile.qc.rows + 1 ∧ (u.core c).g = x.g ∧ (u.core c).pcc = x.pcc ∧ u.mem = s.mem ∧
       OthersKept s u c ∧ (r.first = none → u.recd = s.recd) ∧
       ∀ e, r.first = some e → Logs s u 2 0x0401 (BitVec.ofNat 32 c.val) (BitVec.ofNat 32 (r.m % 2048))
         (BitVec.ofNat 32 (e.k.val + 512 * e.kind.val)) (r.op.pc.setWidth 32)) ∧
     (∀ e, FoundAs r o err e →
       (r.pass = 1 → Does (.quinceRowCheck c r.m err) s fun u => (u.core c).tile.rows = done ∧
         (∃ y more, (u.core c).tile.retry = some y ∧ y.reloaded = false ∧ y.rows = { r with pass := 2, checked := false, first := some e } :: more ∧
           more.map (fun o : ArrayRow => (o.m, o.pass, o.checked)) =
             (rest ++ (match x.tile.retry with | none => [] | some z => z.rows)).map fun o : ArrayRow => (o.m, 1, false)) ∧
         (u.core c).tile.qc.first = x.tile.qc.first + 1 ∧
         (u.core c).tile.qc.residue = x.tile.qc.residue + (if 1 ≤ e.kind.val ∧ e.kind.val ≤ 4 then 1 else 0) ∧
         (u.core c).g = x.g ∧ (u.core c).pcc = x.pcc ∧ u.mem = s.mem ∧ OthersKept s u c) ∧
       (r.pass = 2 → ClaimsSound s c → Does (.quinceRowCheck c r.m err) s fun u => (u.core c).cond = .fenced ∧ (u.core c).ctl.xcause = 44 ∧
         (u.core c).ctl.xaddr = r.op.pc ∧ OthersKept s u c ∧ u.mem = s.mem ∧
         Logs s u 6 0x0402 (BitVec.ofNat 32 c.val) (BitVec.ofNat 32 (r.m % 2048))
           (BitVec.ofNat 32 (e.k.val + 512 * e.kind.val)) (r.op.pc.setWidth 32)))) ∧
  (∀ (c : CoreId) (r : ArrayRow) (rest : List ArrayRow) (s : State),
     let x := s.core c
     let e := 128 * r.op.slot + r.m
     s.coreRuns c = true →
     (x.tile.rows = r :: rest → x.tile.hold = false → r.checked = true → r.sums.length ≤ 512 →
       (x.tile.slotRead r.op r.m = true →
         Does (.accRowWrite c) s fun u => (u.core c).tile.rows = rest ∧
           (∀ n < r.sums.length,
             let old := x.tile.accGet e n
             let sum := r.sums.getD n 0
             let new := (u.core c).tile.accGet e n
             (r.op.floatMode = true → new = if r.op.start then sum else accAdd old (accValue sum)) ∧
             (r.op.floatMode = false →
               let exact := (if r.op.start then 0 else (old.setWidth 32).toInt) + sum.toInt
               (new.setWidth 32).toInt = saturate 32 exact ∧
               new.getLsbD 32 = ((!r.op.start && old.getLsbD 32) || decide (saturate 32 exact ≠ exact)))) ∧
           (∀ f n, n < 512 → (f ≠ e ∨ r.sums.length ≤ n) → (u.core c).tile.accGet f n = x.tile.accGet f n) ∧ RegsKept s u c) ∧
       (x.tile.slotRead r.op r.m = false → exec (.accRowWrite c) s = .next (s.setCore c { x with tile := { x.tile with hold := true } }))) ∧
     (x.tile.hold = true → (∀ y more, x.tile.rows = y :: more → x.tile.slotRead y.op y.m = true) →
       exec (.arrayHoldEnd c) s = .next (s.setCore c { x with tile := { x.tile with hold := false } })) ∧
     (∀ y : Retry, x.tile.retry = some y → y.reloaded = false → x.tile.rows = [] →
       exec (.stationaryReload c) s = .next (s.setCore c { x with tile := { x.tile with
         retry := some { y with reloaded := true },
         qc := { x.tile.qc with stall := x.tile.qc.stall + 512, retried := x.tile.qc.retried + 1 } } })))

/-- R109, R178, R239: a row of a qstat or a qmma whose record holds a token raises the token's cause, as a deferred fault, once
the rows admitted before it are done: the core enters its handler with the tile instruction's address saved. R182, R183,
R185, R247: the next row of a tld lands in its units of the tile area, and the tags of its requests are back, taken and given
back in this one step (the model's choice, log entry 138); after the last row the next instruction issues. -/
def Obligations.TileLoads : Prop :=
  (∀ (c : CoreId) (src : Operand) (r : StreamRec) (k : Token) (s : State),
     let x := s.core c
     let e := src.engine
     ((∃ q, x.tile.op = some (.qmma q) ∧ q.src = src) ∨
       ∃ q, x.tile.op = some (.qstat q) ∧ q.src = src ∧ x.ctl.trestart.toNat < q.k) →
     s.coreRuns c = true → x.tile.rows = [] → x.tile.retry = none → src.tileArea = false →
     x.str.eng[e.val].front = some r → r.token = some k → x.ctl.status.sb = false → x.xvcc.entersHandler = true →
     Does (.tokenRaise c) s fun u => EntryOf x (u.core c) x.pcc.cursor ∧ (u.core c).ctl.xaddr = k.addr ∧
       (u.core c).ctl.xcause = xcauseWord k.code false true k.creg false (BitVec.ofNat 3 e.val) ∧ (u.core c).tile.op = none ∧
       (u.core c).tile.acc = x.tile.acc ∧ OthersKept s u c ∧ u.mem = s.mem) ∧
  (∀ (c : CoreId) (j : TldJob) (s : State),
     let x := s.core c
     let r := x.ctl.trestart.toNat
     let a := j.base + BitVec.ofNat 64 r * j.pitch
     let units := (j.len + 63) / 64
     s.coreRuns c = true → Plain s c → x.tile.op = some (.tld j) → r < j.m → j.m ≤ 2048 → 0 < j.len → j.len ≤ 2048 →
     x.tile.holds (j.unit + r * units) units = false → MayReach s j.cap a j.len 1 → SoundAt s a.toNat j.len →
     TagsTake s c 2 → s.mayRequest c a.toNat j.len = true →
     Does (.tldRowArrival c) s fun u =>
       (∀ i < j.len, cellGet (u.core c).tile.buf (64 * (j.unit + r * units) + i) = cellGet s.mem.data (a.toNat + i)) ∧
       (∀ b, (b < 64 * (j.unit + r * units) ∨ 64 * (j.unit + r * units) + j.len ≤ b) →
         cellGet (u.core c).tile.buf b = cellGet x.tile.buf b) ∧
       (u.core c).g = x.g ∧ u.mem = s.mem ∧ OthersKept s u c ∧ (u.ledger c.val).outstanding.val = (s.ledger c.val).outstanding.val ∧
       (r + 1 < j.m → (u.core c).tile.op = x.tile.op ∧ (u.core c).ctl.trestart.toNat = r + 1 ∧ (u.core c).pcc = x.pcc) ∧
       (r + 1 = j.m → AtBoundary s u c))

/-- R49, R83, R212, R215 to R218: a tensor form whose descriptor passes its checks and whose operands are no streams completes:
gp holds the number of elements, and of its core only fflags, the counters, the spaces of its outputs and gp differ.
Whatever its operands, it runs its units in order from the element in gp, under the descriptor and the settings it took at
issue, each unit counted as progress, and is done after the last. R152, R225, R226: the six digits of slice sum to the
number they were cut from and stay in their range; dwround gives the sum of the pair under the two exponents, rounded once,
or a NaN where an exponent marks one. -/
def Obligations.TensorInstructions : Prop :=
  (∀ (c : CoreId) (op : BitVec 5) (func : BitVec 3) (red : BitVec 2) (f : TdFields) (pause : Option Nat) (s t t1 : State),
     Issues s c 8 t → Plain t c → t.pauseAt c pause = none →
     ∀ p ∈ tensorTable c op func red f pause, ∀ (l : FormLatch) (d : TDesc),
       let h := p.2 t1 l
       let x := t1.core c
       FormTakes t t1 c f l → TensorIssues h t1 c f l d →
       ((∀ u ∈ h.slots d, u.role.ent.kind ≠ 4 ∧ u.role.ent.kind ≠ 5) → Does p.1 s fun u =>
         let y := u.core c
         u.getG c f.gp = BitVec.ofNat 64 d.count ∧ (∀ r, r ≠ f.gp → u.getG c r = t1.getG c r) ∧ y.k = x.k ∧ y.str = x.str ∧
         y.tile.acc = x.tile.acc ∧ y.tile.modes = x.tile.modes ∧ y.vec.m = x.vec.m ∧ y.pcc = x.pcc.setCursor (x.pcc.cursor + 8) ∧
         y.ctl = { x.ctl with fflags := y.ctl.fflags, instret := x.ctl.instret + 1 } ∧ u.mem = t1.mem ∧ OthersKept t1 u c) ∧
       ∀ (n : Nat) (at_ : Nat → Nat) (us : Nat → State), us 0 = t1.putLatch c l → at_ 0 = (t1.getG c f.gp).toNat →
         UnitsRun h c f.gp d n at_ us →
         let u := ((us n).setG c f.gp (BitVec.ofNat 64 d.count)).dropLatch c (t.pc c)
         exec p.1 s = .next (u.setCore c ((u.core c).past (t.pc c) 8))) ∧
  ((∀ a : Int, |a| ≤ 2 ^ 58 →
     (sixDigits a).length = 6 ∧ (sixDigits a).foldl (fun x y => 1024 * x + y) 0 = a ∧
     (∀ y ∈ (sixDigits a).drop 1, -512 ≤ y ∧ y ≤ 511) ∧ |(sixDigits a).headD 0| ≤ 257) ∧
   (∀ (rm : RMode) (ctl : FmtCtl) (hi lo : FVal) (ea eb : Int) (r : Nat),
     (ea = 0x7FFFFFFF ∨ eb = 0x7FFFFFFF → dwroundElem rm ctl hi lo ea eb r = (0x7FF8000000000000, fNV)) ∧
     (ea ≠ 0x7FFFFFFF → eb ≠ 0x7FFFFFFF → (dwroundElem rm ctl hi lo ea eb r).1 =
       (encodeFloat .fp64 ((fAdd hi lo).1.scaled (ea + eb - 116)) rm ctl r).1)))

/-- R228, R231 to R233: sopen, its checks passed, starts the engine at the position in g, with kb's cursor as its origin; a
stream with nothing to deliver is idle at once. R246: sfence adds a fence that notes how far each named store engine must
have written, and a stream or tile instruction that follows waits for it. R250: sstat reads an engine's state words. An
engine number of 6 or 7 is ILLEGAL in sopen, srestart and sstat. R240, R241: scancel drops what its engines hold, takes the
drains off them and waits until they are idle; srestart drops what a load stream holds and waits; the completion of each
lets the core go on, the restarted stream at its new position. R108, R240: a position that the stream cannot restart at raises
DESCRIPTOR with the address of the descriptor that sopen read, ahead of STREAM_STATE, which an engine that has no stream or
stores raises. -/
def Obligations.StreamControl : Prop :=
  (∀ (c : CoreId) (e w2 : BitVec 3) (kd kb : KReg) (g gu gp : GReg) (w : BitVec 2) (off : BitVec 16) (len : BitVec 12) (m : BitVec 11)
     (pause : Option Nat) (s t : State), Issues s c 8 t → Plain t c →
     let x := t.core c
     (∀ (t1 : State) (d : StreamDesc), let p := (t1.getG c g).toNat
       StreamOpens t t1 c e.toNat kd kb d p →
       Does (.sopen c e kd kb g) s fun u =>
         let y := u.eng c e.toNat
         y.desc = d ∧ y.pos = p ∧ y.next = p / d.rlen ∧ y.recs = [] ∧ y.queue = [] ∧ y.kb = t1.getK c kb ∧
         y.origin = (t1.getK c kb).cursor ∧ y.descAt = (t1.getK c kd).cursor ∧
         (p < d.bytes → y.st = .active) ∧ (p = d.bytes → (t1.eng c e.toNat).reqs = [] → y.st = .idle) ∧
         (∀ o, o ≠ e.toNat → u.eng c o = t1.eng c o) ∧ u.core c = ({ t1.core c with str := (u.core c).str }).past (t.pc c) 8 ∧
         OthersKept t1 u c ∧ u.mem = t1.mem) ∧
     exec (.sfence c w2) s = .next (t.setCore c (({ x with str := { x.str with
       fence := x.str.fence ++ [(⟨(x.fenceMark 4 (w2.getLsbD 0)).1, (x.fenceMark 4 (w2.getLsbD 0)).2,
         (x.fenceMark 5 (w2.getLsbD 1)).1, (x.fenceMark 5 (w2.getLsbD 1)).2⟩ : StreamFence)] } }).advanced 8)) ∧
     (x.str.fence ≠ [] → ∀ i ∈ [Instr.sopen c e kd kb g, .srestart c e g, .tld c off gu gp len m kb, .accsave c kb pause,
         .accrestore c kb pause], exec i s = .next t) ∧
     (e.toNat < 6 → exec (.sstat c g e w) s =
       .next (t.setCore c ((x.setG g (BitVec.ofNat 64 (statWord (t.eng c e.toNat) e.toNat w))).advanced 8))) ∧
     (6 ≤ e.toNat → Traps (.sstat c g e w) s t c (cILLEGAL (t.pc c)) ∧
       (x.str.fence = [] → Traps (.sopen c e kd kb g) s t c (cILLEGAL (t.pc c)) ∧
         Traps (.srestart c e g) s t c (cILLEGAL (t.pc c))))) ∧
  (∀ (c : CoreId) (mask : BitVec 6) (e : Fin 4) (o : Fin 6) (g : GReg) (s t : State),
     (Issues s c 8 t → Plain t c →
       let x := t.core c
       let named := fun i : Nat => mask.getLsbD i = true
       (Does (.scancel c mask) s fun u =>
         (∀ i < 6, u.eng c i = if named i then (t.eng c i).cancel (decide (4 ≤ i)) else t.eng c i) ∧ (u.core c).g = x.g ∧
         u.mem = t.mem ∧ OthersKept t u c ∧
         (∀ i : Fin 2, named (4 + i.val) → ∀ d ∈ (u.core c).tile.drains, d.dest ≠ .store i) ∧
         ((∀ i < 6, (t.eng c i).st ≠ .cancelling ∧ (named i → (t.eng c i).st = .idle)) → (u.core c).str.wait = x.str.wait ∧
           (u.core c).pcc = x.pcc.setCursor (x.pcc.cursor + 8)) ∧
         ((∃ i < 6, (t.eng c i).st = .cancelling ∨ (named i ∧ (t.eng c i).st ≠ .idle)) → (u.core c).str.wait = .cancel ∧ (u.core c).pcc = x.pcc)) ∧
       ((t.eng c e.val).st = .active → x.str.fence = [] →
         (t.getG c g).toNat ≤ (t.eng c e.val).desc.bytes →
         ((t.eng c e.val).desc.pk = false → (t.getG c g).toNat % (t.eng c e.val).desc.rlen = 0) →
         Does (.srestart c (BitVec.ofNat 3 e.val) g) s fun u => (u.core c).str.wait = .restart e ∧
           (u.eng c e.val).st = .restarting ∧ (u.eng c e.val).resume = (t.getG c g).toNat ∧ (u.eng c e.val).recs = [] ∧
           (∀ q ∈ (u.eng c e.val).reqs, q.dead = true) ∧ (u.eng c e.val).reqs.length = (t.eng c e.val).reqs.length ∧
           OnlyStreams t u c) ∧
       (x.str.fence = [] →
         let y := t.eng c o.val
         let pos := (t.getG c g).toNat
         let bad := y.st ≠ .idle ∧ (y.desc.bytes < pos ∨ (y.desc.pk = false ∧ pos % y.desc.rlen ≠ 0))
         (bad → Traps (.srestart c (BitVec.ofNat 3 o.val) g) s t c (cDESCRIPTOR y.descAt)) ∧
         (¬bad → (y.st ≠ .active ∨ 4 ≤ o.val) → Traps (.srestart c (BitVec.ofNat 3 o.val) g) s t c (cSTREAM (t.pc c))))) ∧
     ((s.eng c o.val).st = .cancelling → (s.eng c o.val).reqs = [] → (s.eng c o.val).recs = [] → Plain s c →
       Does (.scancelComplete c o) s fun u => (u.eng c o.val).st = .idle ∧ (∀ i, i ≠ o.val → u.eng c i = s.eng c i) ∧
         ((s.core c).str.wait = .cancel → s.coreRuns c = true → (∀ i < 6, i ≠ o.val → (s.eng c i).st ≠ .cancelling) →
           WaitEnds s u c)) ∧
     ((s.eng c e.val).st = .restarting → (s.eng c e.val).reqs = [] → (s.eng c e.val).recs = [] → 0 < (s.eng c e.val).desc.rlen →
       (s.eng c e.val).resume ≤ (s.eng c e.val).desc.bytes → (s.core c).str.wait = .restart e → s.coreRuns c = true → Plain s c →
       Does (.srestartComplete c e) s fun u =>
         (u.eng c e.val).st = (if (s.eng c e.val).resume < (s.eng c e.val).desc.bytes then .active else .idle) ∧ (u.eng c e.val).pos = (s.eng c e.val).resume ∧
         (u.eng c e.val).next = (s.eng c e.val).resume / (s.eng c e.val).desc.rlen ∧ WaitEnds s u c))

/-- R235 to R238, R247: a load engine's next record, or the rest of one already begun, is asked for in requests of one 2 KiB
block, one tag each; one whose check fails is not asked for and takes a token. The data of the oldest request reaches its
records and the tag comes back; what was asked for a stream since cancelled, or by a core since fenced, is discarded. R228,
R234: records their consumer has released leave the window at its head; a stream that has delivered everything is idle.
R245, R246: the write of the oldest store request is acknowledged: its bytes are in memory, and nothing else changed there;
fences whose engines have written far enough are over. R251: bytes written count as consumed; a sample counts the depth of an
active engine. That data comes for the oldest request first and is read as it comes, and that writes are acknowledged in
order, is the model's choice (log entries 43, 44). -/
def Obligations.StreamTransfers : Prop :=
  (∀ (c : CoreId) (e : Fin 4) (s : State),
     let x := s.eng c e.val
     let asks := fun u : State =>
       (∃ q, (u.eng c e.val).reqs = x.reqs ++ [q] ∧ q.dead = false ∧ q.pieces ≠ [] ∧
         ∀ p ∈ q.pieces, ∀ p' ∈ q.pieces, p.addr / 2048 = p'.addr / 2048 ∧ p.addr % 2048 + p.len ≤ 2048) ∧
       (u.ledger c.val).outstanding.val = (s.ledger c.val).outstanding.val + 1 ∧ OnlyStreams s u c
     (s.coreRuns c = true → x.st = .active →
       (∀ r, x.asking = some r → MayAsk s c e.val (x.nextAsk r).2.2.1 → Does (.streamRequest c e) s asks) ∧
       (x.asking = none → x.mayBegin = true →
         let r := s.newRecord x x.next
         (r.token = none → r.toAsk ≠ 0 → (∀ o ∈ x.recs, o.idx ≠ r.idx) → MayAsk s c e.val ((x.begun r).nextAsk r).2.2.1 →
           Does (.streamRequest c e) s fun u => asks u ∧ x.next < (u.eng c e.val).next) ∧
         (r.token.isSome = true → exec (.streamRequest c e) s = .next (s.setEng c e.val (x.begun r))))) ∧
     ∀ (q : StreamReq) (qs : List StreamReq), x.reqs = q :: qs → TagsSound s c →
       let back := fun u : State => (u.eng c e.val).reqs = qs ∧
         (u.ledger c.val).outstanding.val = (s.ledger c.val).outstanding.val - 1 ∧ OnlyStreams s u c
       let apart := fun p p' : ReqPiece => p.idx ≠ p'.idx ∨ p.isScale ≠ p'.isScale ∨ p.off + p.len ≤ p'.off ∨ p'.off + p'.len ≤ p.off
       let part := fun (p : ReqPiece) (r : StreamRec) => if p.isScale then r.scale else r.data
       (q.dead = false → (s.core c).cond ≠ .fenced → (x.recs.map fun r => r.idx).Nodup → (∀ r ∈ x.recs, r.token = none) →
         q.pieces.Pairwise apart →
         (∀ p ∈ q.pieces, 0 < p.len ∧ SoundAt s (p.addr / 64 * 64) ((p.addr + p.len + 63) / 64 * 64 - p.addr / 64 * 64) ∧
           ∀ r ∈ x.recs, r.idx = p.idx → p.off + p.len ≤ (part p r).length) →
         Does (.streamDataArrival c e) s fun u => back u ∧
           (u.eng c e.val).recs.map (fun r => r.idx) = x.recs.map (fun r => r.idx) ∧
           ∀ r ∈ x.recs, ∀ r' ∈ (u.eng c e.val).recs, r'.idx = r.idx → r'.token = none ∧
             r'.toCome = r.toCome - ((q.pieces.filter fun p => p.idx == r.idx).map fun p => p.len).sum ∧
             ∀ p ∈ q.pieces, p.idx = r.idx → ∀ j < p.len, (part p r')[p.off + j]? = some (cellGet s.mem.data (p.addr + j))) ∧
       (q.dead = true ∨ (s.core c).cond = .fenced → Does (.streamDataArrival c e) s fun u => back u ∧ (u.eng c e.val).recs = x.recs ∧
         (u.eng c e.val).cnt.discarded = x.cnt.discarded + BitVec.ofNat 64 ((q.pieces.map fun p => p.len).sum))) ∧
  (∀ (c : CoreId) (e : Fin 4) (o : Fin 6) (b : Fin 2) (s : State),
     (let x := s.eng c e.val
      let left := x.recs.dropWhile fun r => r.released
      Does (.streamUnitRelease c e) s fun u => (u.eng c e.val).recs = left ∧ (u.eng c e.val).cnt = x.cnt ∧
        (u.eng c e.val).pos = x.pos ∧ (u.eng c e.val).st = (if x.st = .active ∧ x.desc.bytes ≤ x.pos ∧ left = [] ∧ x.reqs = [] ∧
          x.desc.records ≤ x.next then .idle else x.st) ∧ OnlyStreams s u c) ∧
     (∀ (q : StreamReq) (qs : List StreamReq),
       let x := s.eng c (4 + b.val)
       x.reqs = q :: qs → x.asking = none → x.lost = false → TagsSound s c →
       (∀ p ∈ q.pieces, (x.pieceBytes p).length = p.len ∧ (∀ j < p.len, (s.region (p.addr + j)).mapped = true) ∧
         ∀ j < p.len, ∀ st, (s.region (p.addr + j)).stack? = some st → (s.stack st).st ≠ .fenced) →
       Does (.storeStreamWriteAck c b) s fun u => (∃ more, (u.eng c (4 + b.val)).reqs = qs ++ more ∧
           (u.ledger c.val).outstanding.val = (s.ledger c.val).outstanding.val - 1 + BitVec.ofNat 64 more.length) ∧
         (∀ (before after : List ReqPiece) (p : ReqPiece), q.pieces = before ++ p :: after → ∀ j < p.len,
           (∀ p' ∈ after, p.addr + j < p'.addr ∨ p'.addr + p'.len ≤ p.addr + j) →
           (x.pieceBytes p)[j]? = some (cellGet u.mem.data (p.addr + j))) ∧
         (∀ a, (∀ p ∈ q.pieces, a < p.addr ∨ p.addr + p.len ≤ a) → cellGet u.mem.data a = cellGet s.mem.data a) ∧
         (u.eng c (4 + b.val)).cnt.consumed = x.cnt.consumed + BitVec.ofNat 64 ((q.pieces.map fun p => p.len).sum) ∧
         (u.core c).g = (s.core c).g ∧ (u.core c).k = (s.core c).k ∧ (u.core c).pcc = (s.core c).pcc) ∧
     (Does (.sfenceComplete c) s fun u => OnlyStreams s u c ∧ (u.core c).str.eng = (s.core c).str.eng ∧
       ∀ f, f ∈ (u.core c).str.fence ↔ f ∈ (s.core c).str.fence ∧
         ¬((s.eng c 4).reached f.pos4 f.scale4 = true ∧ (s.eng c 5).reached f.pos5 f.scale5 = true)) ∧
     ((s.eng c o.val).st = .active →
       Does (.depthSample c o) s fun u => OnlyStreams s u c ∧
         (∀ h : Fin 8, (u.eng c o.val).cnt.depth[h] = (s.eng c o.val).cnt.depth[h] +
           (if depthBucket ((s.eng c o.val).depth (decide (4 ≤ o.val))) = h.val then 1 else 0)) ∧
         (u.eng c o.val).recs = (s.eng c o.val).recs ∧ ∀ i, i ≠ o.val → u.eng c i = s.eng c i))

/-- R259, R260, R263, R267, R281: the patrol reads a word that its period has not read yet, and no other, a word of row 0 first
(R269), and activates its row; the last word of a period ends the pass and the rows' counts. That the command names its word,
in any order past the first, and what a word is that the period has read, is the model's choice (log entries 76, 118). A
correctable error found is counted, disagreeing poison copies take their majority and are counted, an uncorrectable error
poisons the word and UE_POISON names it; data bytes never change. R254: a copy of the word that L2 holds keeps its mark and
its tags. R265 to R267, R270: a
row copy ends with the row mapped to its spare and its count at zero, counted and recorded; a refresh opens a new window for
its bank's activation counters and may recentre an interface, whose eye below the limit is reported; a targeted refresh,
where the row has reached act_thr and there alone, counts and takes the row out of the bank's counters. -/
def Obligations.StackUpkeep : Prop :=
  (∀ (st : StackId) (space : StackSpace) (word l m : Nat) (s : State), s.stackServes st = true →
     let k := s.stack st
     let n := s.wordKey st space word
     let key := scrubKey space word
     let k0 := if space = .sram then k else k.activate s.scfg.actThr.toNat (bankRow (32 * word)).1
       ((bankRow (32 * word)).2 + if space = .istore then 24576 else 0)
     let k1 := if k.scrubWords + 1 < 1621098496 then { k0 with scrubWords := k.scrubWords + 1, scrubSeen := flagSet k.scrubSeen key true }
       else { k0 with scrubWords := 0, scrubSeen := [], scrubPass := k.scrubPass + 1, rowErrors := [] }
     let held := s.l2Has (decide (space = .istore)) (n / 4)
     let copies := fun (u : State) i => sparseGet (fun _ => (0 : BitVec 3)) (if space = .istore then u.mem.ipoison else u.mem.poison) i
     let kept := fun u : State => u.mem.data = s.mem.data ∧ u.mem.istore = s.mem.istore ∧ u.cores = s.cores ∧
       (u.stack st).scrubWords = k1.scrubWords ∧ (u.stack st).scrubSeen = k1.scrubSeen ∧ ∀ i, i ≠ n → copies u i = copies s i
     (k.scrubDue space word = false → ∀ err, exec (.patrolScrubRead st space word err) s = .next s) ∧
     (k.scrubWords = 0 → (space ≠ .dram ∨ (bankRow (32 * word)).2 ≠ 0) → ∀ err, exec (.patrolScrubRead st space word err) s = .next s) ∧
     (k.scrubDue space word = true → (copies s n = 0 ∨ copies s n = 7) →
       sparseGet (fun _ => Latent.none) (if space = .istore then s.mem.ilatent else s.mem.latent) n = .none →
       (if space = .istore then s.placeOfInst (32 * n) = ⟨st, l, m⟩ else s.placeOf (32 * n) = some ⟨st, l, m⟩) →
       exec (.patrolScrubRead st space word none) s = .next (s.setStack st k1) ∧
       (Does (.patrolScrubRead st space word (some .correctable)) s fun u => (u.stack st).ce = k.ce + 1 ∧ (u.stack st).ue = k.ue ∧
         copies u n = copies s n ∧ kept u) ∧
       (∀ p : BitVec 3, p ≠ 0 → p ≠ 7 → Does (.patrolScrubRead st space word (some (.poisonCopies p))) s fun u =>
         (u.stack st).ce = k.ce + 1 ∧ (u.stack st).ue = k.ue ∧
         copies u n = (if held then copies s n else if poisonMajority p then 7 else 0) ∧ kept u) ∧
       Does (.patrolScrubRead st space word (some .uncorrectable)) s fun u => (u.stack st).ue = k.ue + 1 ∧ (u.stack st).ce = k.ce ∧
         copies u n = (if held then copies s n else 7) ∧ kept u ∧
         (held = true → u.mem.tags = s.mem.tags) ∧
         (held = false → space ≠ .istore → flagGet u.mem.tags (2 * n) = false ∧ flagGet u.mem.tags (2 * n + 1) = false) ∧
         Logs s u 3 0x0502 (BitVec.ofNat 32 st.val) (BitVec.ofNat 32 l) (BitVec.ofNat 32 (l / 2 ^ 32 % 256 + m * 2 ^ 30)) 1)) ∧
  (∀ (st : StackId) (bank : Fin 1024) (row : Nat) (s : State), s.stackServes st = true →
     let k := s.stack st
     let a := fun (x : Stack) (b : Nat) => sparseGet (fun _ => (⟨[], 0⟩ : ActTrack)) x.act b
     (∀ (j : RowCopy) (js : List RowCopy), k.copies = j :: js →
       Does (.rowSpareDone st) s fun u => (∃ more, (u.stack st).copies = js ++ more) ∧ (u.stack st).spared = k.spared + 1 ∧
         sparseGet (fun _ => 0) (u.stack st).spareMap (rowKey j.bank.val j.row) = j.spare + 1 ∧
         countGet (u.stack st).rowErrors (rowKey j.bank.val j.row) = 0 ∧ u.mem.data = s.mem.data ∧ u.mem.istore = s.mem.istore ∧
         u.cores = s.cores ∧
         (∃ r ∈ u.recd.inFlight, r = ⟨2, 0x0501, BitVec.ofNat 32 st.val, BitVec.ofNat 32 j.bank.val, BitVec.ofNat 32 j.row,
           BitVec.ofNat 32 j.spare⟩) ∧
         (s.mem.latent = [] → s.mem.ilatent = [] → (∀ e ∈ s.mem.poison, e.2 = 7) → (∀ e ∈ s.mem.ipoison, e.2 = 7) →
           u.mem = s.mem ∧ (u.stack st).copies = js ∧ ∀ d : StackId, d ≠ st → u.stack d = s.stack d)) ∧
     exec (.refresh st bank none) s = .next (s.setStack st { k with act := sparseErase k.act bank.val }) ∧
     (∀ (ch : Fin 32) (read : Bool) (e : BitVec 8),
       let old := (if read then k.margin.extractLsb' 0 8 else k.margin.extractLsb' 8 8).toNat
       Does (.refresh st bank (some (ch, read, e))) s fun u =>
         let m := (u.stack st).margin
         m.extractLsb' 16 16 = k.margin.extractLsb' 16 16 + 1 ∧
         ((if read then m.extractLsb' 0 8 else m.extractLsb' 8 8).toNat = if old = 0 then e.toNat else min old e.toNat) ∧
         (if read then m.extractLsb' 8 8 = k.margin.extractLsb' 8 8 else m.extractLsb' 0 8 = k.margin.extractLsb' 0 8) ∧
         (u.stack st).act = sparseErase k.act bank.val ∧ u.mem = s.mem ∧
         (Config.eyeLimit ≤ e.toNat → u.recd = s.recd ∧ u.cores = s.cores) ∧
         (e.toNat < Config.eyeLimit → Logs s u 3 0x0503 (BitVec.ofNat 32 st.val) (BitVec.ofNat 32 ch.val)
           (BitVec.ofNat 32 e.toNat) (if read then 0 else 1))) ∧
     (((a k bank.val).count row < s.scfg.actThr.toNat → exec (.targetedRefresh st bank row) s = .next s) ∧
       (s.scfg.actThr.toNat ≤ (a k bank.val).count row →
         Does (.targetedRefresh st bank row) s fun u => (u.stack st).trr = k.trr + 1 ∧ u.mem = s.mem ∧ u.cores = s.cores ∧
           (a (u.stack st) bank.val).rows = (a k bank.val).rows.filter (fun r => r.1 != row) ∧
           (a (u.stack st) bank.val).spill = (a k bank.val).spill ∧
           ∀ b, b ≠ bank.val → a (u.stack st) b = a k b)))

/-- R278, R279, R305, R373: more than 256 words poisoned within a second fence the stack, and so does stk_fence: its queues are
given up, the commands of its ring are over, a drain or restore that runs over it has ended, STACK_FENCE is recorded and the
next map leaves it out; with another stack out of use the device stops. No core's registers and no byte but the status bytes
of the ring's commands change. A stack whose latency is more than twice the others' is reported. R258, R269: training ends
with the sixteen-way map, or, with one stack out of use, the map without it; with two the device does not leave reset.
Initialisation leaves every word of the stacks zero and untagged, and the stacks serve. -/
def Obligations.StacksTrainAndFence : Prop :=
  (∀ (st : StackId) (mean others : Nat) (s : State), s.stackServes st = true →
     let k := s.stack st
     let fenced := fun u : State => (u.stack st).st = .fenced ∧ (u.stack st).saQueue = [] ∧ (u.stack st).ringHead = k.ringTail ∧
       (u.stack st).engEnd = none ∧
       (∀ b, (∀ a ∈ k.waitingCommands st, b ≠ a + 63) → cellGet u.mem.data b = cellGet s.mem.data b) ∧
       u.scfg.ilvNext = BitVec.ofNat 8 st.val ∧ (∀ d : StackId, d ≠ st → (u.stack d).st = (s.stack d).st) ∧
       (∀ c : CoreId, (u.core c).g = (s.core c).g ∧ (u.core c).k = (s.core c).k ∧ (u.core c).pcc = (s.core c).pcc ∧
         (u.core c).cond = (s.core c).cond) ∧
       (∀ j, s.train.job = some j → (∃ e ∈ j.extents, st ∈ (s.stacksOf e.src e.len).getD []) → u.train.job = none) ∧
       ∃ r ∈ u.recd.inFlight, r.sev = 5 ∧ r.code = 0x0506 ∧ r.source = BitVec.ofNat 32 st.val
     let stops := fun u : State => (u.stack st).st = .fenced ∧ u.cont.stopped = true ∧
       (∀ c : CoreId, (u.core c).cond = .fenced ∨ (u.core c).cond = .absent) ∧ ∃ r ∈ u.recd.inFlight, r.sev = 7 ∧ r.code = 0x0507
     (256 < k.poisonRate s.time → (s.otherLost st = none → Does (.poisonStormFence st) s fenced) ∧
       (∀ o, s.otherLost st = some o → Does (.poisonStormFence st) s stops)) ∧
     (k.poisonRate s.time ≤ 256 → exec (.poisonStormFence st) s = .next s) ∧
     (s.hubRuns = true → (s.otherLost st = none → Does (.stkFenceWrite .hub (BitVec.ofNat 64 st.val)) s fenced) ∧
       (∀ o, s.otherLost st = some o → Does (.stkFenceWrite .hub (BitVec.ofNat 64 st.val)) s stops)) ∧
     (2 * others < mean → Does (.stackSlowCheck st mean others) s fun u => u.stks = s.stks ∧ u.mem = s.mem ∧ u.cores = s.cores ∧
       Logs s u 4 0x0303 (BitVec.ofNat 32 st.val) (BitVec.ofNat 32 mean) (BitVec.ofNat 32 others) 0) ∧
     (mean ≤ 2 * others → exec (.stackSlowCheck st mean others) s = .next s)) ∧
  (∀ (failed : BitVec 16) (x y : StackId) (s : State),
     let out := fun i : Nat => (lostMask failed s.rst.ilvTaken).getLsbD i
     (s.rst.phase = .training →
       ((∀ i < 16, out i = false) → Does (.stackTrainingDone failed) s fun u => u.rst.phase = .initialising ∧
         u.scfg.ilvActive = 0xFF ∧ (∀ i : StackId, (u.stack i).st = .trained) ∧ u.recd = s.recd ∧ u.mem = s.mem) ∧
       ((∀ i < 16, out i = decide (i = x.val)) → Does (.stackTrainingDone failed) s fun u => u.rst.phase = .initialising ∧
         u.scfg.ilvActive = BitVec.ofNat 8 x.val ∧ (u.stack x).st = .excluded ∧
         (∀ i : StackId, i ≠ x → (u.stack i).st = .trained) ∧ u.mem = s.mem ∧
         Logs s u 4 0x0505 (BitVec.ofNat 32 x.val) (BitVec.ofNat 32 x.val) (if s.rst.ilvTaken.toNat = x.val then 1 else 0) 0) ∧
       (x < y → out x.val = true → out y.val = true → Does (.stackTrainingDone failed) s fun u => u.rst.phase = .noLeave ∧
         (u.stack x).st = .failed ∧ (u.stack y).st = .failed ∧ u.scfg = s.scfg ∧ ∃ r ∈ u.recd.inFlight, r.sev = 7 ∧ r.code = 0x0507)) ∧
     (s.rst.phase = .initialising → Does .stackInitDone s fun u => u.rst.phase = .ready ∧
       (∀ a, ¬(0x018000000000 ≤ a ∧ a < 0x018004100000) → cellGet u.mem.data a = 0) ∧
       u.mem.istore = [] ∧ u.mem.tags = [] ∧ u.mem.poison = [] ∧ u.mem.latent = [] ∧ u.mem.ipoison = [] ∧ u.mem.ilatent = [] ∧
       u.mem.l2 = [] ∧
       (∀ i : StackId, (s.stack i).st = .trained → (u.stack i).st = .ready) ∧ u.cores = s.cores))

/-- R271, R273, R275 to R277: a scatter-add command adds the elements of its source, in any of the formats, to the FP32 words of
its targets, a gather command copies the records its list names, a reserved command ends BAD_CMD, a scatter-add segment of
the fabric adds its elements; then the status byte is written in the command, the ring's head moves on and the interrupt
source is raised. -/
def Obligations.NearMemoryEngines : Prop :=
  ∀ (st : StackId) (s : State),
    let k := s.stack st
    (∀ c : EngCmd, CmdAt s st c →
      let ended := fun u : State => (u.stack st).engEnd = some ⟨1, c.irq % 2 == 1⟩ ∧ (u.stack st).ringHead = k.ringHead ∧
        (∀ d : CoreId, (u.core d).g = (s.core d).g ∧ (u.core d).k = (s.core d).k)
      (∀ (fm : SaFmt) (es : List SaElem), c.op = 1 → saFmtOf c.fmt = some fm → c.a2 = 0 → c.rlen = 0 →
        let src := (saLengths fm c.count).1
        let dst := (saLengths fm c.count).2
        es = saElems fm (s.homeBytes c.a1 src) (fun _ => false) →
        c.ka.covers [permStore] c.a0 dst = true → c.kb.covers [permLoad] c.a1 src = true →
        s.onStack st c.a0 dst = true → inSram st c.a1 src = true →
        SoundAt s (c.a1 / 32 * 32) (src + 32) → MayAdd s st c.a0 es →
        Does (.scatterAddCommand st) s fun u => ended u ∧ AddedAt s u c.a0 es ∧ es.length = dst / 4 ∧
          (u.stack st).saElems = k.saElems + BitVec.ofNat 64 es.length) ∧
      (c.op ≠ 1 → c.op ≠ 2 → ∀ i ∈ [Instr.scatterAddCommand st, .gatherCommand st], Does i s fun u =>
        (u.stack st).engEnd = some ⟨4, c.irq % 2 == 1⟩ ∧ u.mem = s.mem ∧ u.cores = s.cores) ∧
      (c.op = 2 → 4 ≤ c.rlen → c.rlen ≤ 4096 →
        let dst := sramBase st + c.a2
        let src := fun j : Nat => c.a0 + s.gatherIndex c.a1 j * c.rlen
        c.kb.covers [permLoad] c.a1 (4 * c.count) = true → c.kb.covers [permStore] dst (c.count * c.rlen) = true →
        inSram st c.a1 (4 * c.count) = true → inSram st dst (c.count * c.rlen) = true → c.ka.covers [permLoad] c.a0 0 = true →
        (∀ j < c.count, c.ka.covers [permLoad] (src j) c.rlen = true ∧ s.onStack st (src j) c.rlen = true ∧
          SoundAt s (src j / 32 * 32) (c.rlen + 32) ∧ (src j + c.rlen ≤ dst ∨ dst + c.count * c.rlen ≤ src j)) →
        SoundAt s (c.a1 / 32 * 32) (4 * c.count + 32) → (∀ a, dst ≤ a → a < dst + c.count * c.rlen → (s.region a).stack? = some st) →
        Does (.gatherCommand st) s fun u => ended u ∧
          (∀ j < c.count, ∀ i < c.rlen, cellGet u.mem.data (dst + j * c.rlen + i) = cellGet s.mem.data (src j + i)) ∧
          ∀ a, (a < dst ∨ dst + c.count * c.rlen ≤ a) → cellGet u.mem.data a = cellGet s.mem.data a)) ∧
    (∀ (j : SaJob) (js : List SaJob), s.stackServes st = true → k.saQueue = j :: js → s.jobFirst j = true →
      (s.chan j.chan).held = [] → s.fab.loop = [] → MayAdd s st j.target j.elems →
      Does (.scatterAddSegment st) s fun u => (u.stack st).saQueue = js ∧ AddedAt s u j.target j.elems ∧
        (u.stack st).saElems = k.saElems + BitVec.ofNat 64 j.elems.length ∧ u.fab = s.fab) ∧
    ∀ e : EngineEnd, s.stackServes st = true → k.engEnd = some e →
      let a := s.cmdAddr st + 63
      (s.region a).stack? = some st →
      Does (.engineCommandEnd st) s fun u => cellGet u.mem.data a = e.status ∧
        (∀ b, b ≠ a → cellGet u.mem.data b = cellGet s.mem.data b) ∧ (u.stack st).engEnd = none ∧
        (u.stack st).ringHead = (if k.ringHead.toNat + 1 < k.ringSize.toNat then k.ringHead + 1 else 0) ∧
        u.int.inFlight = s.int.inFlight ++ (if e.irq = true ∧ k.ringIrq.toNat < 0xFFF then
          [⟨1 + st.val, BitVec.ofNat 19 ((s.srcTarget k.ringIrq.toNat).toNat * 4096 + k.ringIrq.toNat)⟩] else [])

/-- R327, R332, R333, R357: the hub accepts a core's next descriptor. One that passes the checks is posted at the end of its
channel or queue pair, the destination of a READ alone changing; a RoCEv2 request is numbered, and the packets of a SEND or
WRITE carry its source. One that fails a check completes with that check's status, at once where no operation is before it.
A posting queue is sized only while it is empty, and starts again. -/
def Obligations.DescriptorsAreAccepted : Prop :=
  ∀ (c : CoreId) (d : PostDesc) (s : State),
    let x := s.core c
    let n := d.chan.toNat % 4096
    let qn := d.chan.toNat % 1024
    let y := s.qp qn
    let a := x.win.ltBase.toNat + 16 * d.lidx.toNat
    let taken := { x with win := { x.win with accepted := x.win.accepted + 1 } }
    let kept := fun u : State => ∀ b, (b < d.laddr.toNat ∨ d.laddr.toNat + d.len ≤ b) → cellGet u.mem.data b = cellGet s.mem.data b
    (Posts s c d → ∀ i : Instr,
      ((d.op, i) ∈ poldoalRows c → s.postStatus c d = none →
        (d.op ≠ 2 → exec i s = .next (((s.activate a 16).setCore c taken).setChan n
          { s.chan n with ops := (s.chan n).ops ++ [newOp c d none] })) ∧
        (d.op = 2 → Does i s fun u => (u.chan n).ops = (s.chan n).ops ++ [newOp c d none] ∧ kept u ∧
          (u.core c).win.accepted = x.win.accepted + 1)) ∧
      (∀ st : Byte, s.postStatus c d = some st → (d.op, i) ∈ poldoalRows c → (s.chan n).ops = [] →
        Does i s fun u => Completed s u c d st 0 ∧ (u.chan n).ops = [] ∧ (u.core c).win.accepted = x.win.accepted + 1 ∧
          (u.core c).g = x.g) ∧
      (∀ st : Byte, s.postStatus c d = some st → (d.op, i) ∈ roceRows c → y.ops = [] →
        Does i s fun u => Completed s u c d st 0 ∧ (u.qp qn).ops = [] ∧ (u.core c).win.accepted = x.win.accepted + 1 ∧
          (u.core c).g = x.g) ∧
      ((d.op, i) ∈ roceRows c → s.postStatus c d = none → (∀ o ∈ y.ops, o.ended = none) →
        (d.op.toNat ≤ 0x11 → SoundAt s (d.laddr.toNat / 32 * 32) (d.len + 32)) →
        (y.una = y.spsn ∨ 2 ^ 23 ≤ (y.una - y.spsn).toNat) →
        Does i s fun u => (u.qp qn).spsn = y.spsn + BitVec.ofNat 24 (roceSpan y d.op d.len) ∧
          (u.qp qn).ops.map (fun o => o.desc) = y.ops.map (fun o => o.desc) ++ [d] ∧ kept u ∧ (d.op ≠ 0x12 → u.mem = s.mem) ∧
          (u.core c).win.accepted = x.win.accepted + 1 ∧
          (y.rnrWait = false → ∃ rs : List RoceReq,
            Leaves s u y (Fin.ofNat 64 y.subOf) (rs.map fun r => requestItem (Fin.ofNat 64 y.subOf) y.rqpn r) ∧
            rs.length = (if d.op.toNat ≤ 0x11 then roceSpan y d.op d.len else 1) ∧
            (d.op.toNat ≤ 0x11 → rs.flatMap (fun r => r.payload) = s.homeBytes d.laddr.toNat d.len) ∧
            ∀ (j : Nat) (r : RoceReq), rs[j]? = some r → r.qp.val = qn ∧ r.psn = y.spsn + BitVec.ofNat 24 j ∧ r.va = d.raddr ∧
              r.payload.length ≤ y.mtu))) ∧
    (s.fabricOn = true → BitVec.ofNat 16 x.win.accepted = x.win.pqTail → ∀ e ∈ poldoalRows c ++ roceRows c, exec e.2 s = .next s) ∧
    ∀ v : BitVec 16, s.hubRuns = true → x.cond ≠ .absent → v.toNat ∈ [0, 16, 32, 64, 128] → x.win.pqTail = x.win.cqTail →
      x.win.cqTail = x.win.cqHead →
      Does (.pqSizeWrite .hub c (v.setWidth 64)) s fun u => (u.core c).win.pqSize = v ∧ (u.core c).win.pqTail = 0 ∧
        (u.core c).win.cqTail = 0 ∧ (u.core c).win.cqHead = 0 ∧ (u.core c).win.accepted = 0 ∧ (u.core c).win.completed = 0 ∧
        OthersKept s u c ∧ u.mem = s.mem

/-- R320, R345, R346: a frame with a bad FCS is counted and dropped; a packet that a check of its headers or its type discards
has no effect beyond counters and records; one that is not of its channel's epoch and peer is counted and has no other
effect. R334, R336, R338, R347, R348: a REQ that is next in order and passes its checks takes its effect once and its number
is passed: a WRITE's bytes stand at its target, a READ is answered with the bytes read, an atomic changes its word, a NOTIFY
makes its source pending. A WRITE received before is counted, acknowledged again and not applied again; one packet that
fails its checks is counted, recorded and answered with their status. That a RESP carries the status in its fmt byte (log entry
33), and that an atomic's operands stand in the payload and aux holds the bytes wanted (log entry 78), is the model's choice.
R334, R384: a NOTIFY of source 4,095 or of a target above 64 has the status BAD_DESC. -/
def Obligations.PacketsAreReceived : Prop :=
  (∀ (f : Frame) (p : Packet) (s : State),
     ∀ e ∈ packetRows f p,
       (s.fabricOn = true → p.ptype = e.1 → s.receives f.sub.val = true → f.fcsOk = false →
         exec e.2 s = .next (s.mapSub f.sub.val fun x =>
           { x with rxBytes := x.rxBytes + BitVec.ofNat 64 f.len, fcsErr := x.fcsErr + 1, rxDrop := x.rxDrop + 1 })) ∧
       (s.fabricOn = true → (s.poldoalIn f p).2 = false → (p.ptype = e.1 ∨ p.ptype = 0 ∨ 8 < p.ptype.toNat) →
         Does e.2 s fun u => u.fab.chans = s.fab.chans ∧ u.fab.peers = s.fab.peers ∧ u.fab.tx = s.fab.tx ∧ u.mem = s.mem ∧
           u.cores = s.cores) ∧
       ((p.ptype = 0 ∨ 8 < p.ptype.toNat) → (s.poldoalIn f p).2 = false) ∧
       ∀ t : State, PacketIn s t f p e.1 → (t.chan p.chan.val).takes p = false → (e.1.toNat ≤ 4 ∨ e.1 = 8) →
         exec e.2 s = .next (t.mapFab fun x => { x with staleEpoch := x.staleEpoch + 1 })) ∧
  (∀ (f : Frame) (p : Packet) (s t : State), ChannelIn s t f p 1 → ReturnsSound t →
     let n := p.chan.val
     let k := t.chan n
     let a := p.offset.toNat
     let clear := fun j : Fin 64 => t.pickAny (fun _ => false) = some j ∧ Unpaused t j.val t.fab.prio
     (InOrder t f p → (p.op = 2 → SoundAt t (a / 32 * 32) (p.aux.toNat + 32)) → Does (.reqReceive f p) s fun u =>
       (u.chan n).expect = k.expect + 1 ∧ (u.chan n).held = [] ∧ u.fab.denied = t.fab.denied ∧ u.fab.dup = t.fab.dup ∧
       (u.chan n).sinceAck = (if 8 ≤ k.sinceAck + 1 then 0 else k.sinceAck + 1) ∧
       (u.ledger 0x41).outstanding.val = (t.ledger 0x41).outstanding.val ∧
       (p.op = 1 → Lands t a p.payload.length → Wrote t u a p.payload) ∧
       (p.op.toNat ∈ [2, 6, 7, 8] → u.mem = t.mem) ∧
       (p.op = 2 → ∀ j, clear j → HasLeft u j fun q => q.ptype = 2 ∧ q.ack = p.psn ∧ q.fmt = 0 ∧ q.payload = t.homeBytes a p.aux.toNat) ∧
       (p.op.toNat ∈ [3, 4, 5] → SoundAt t (a / 32 * 32) 32 → Lands t a 8 →
         let old := BitVec.ofNat 64 (fieldNat (t.homeBytes a 8) 0 8)
         let x := BitVec.ofNat 64 (fieldNat p.payload 0 8)
         fieldNat (u.homeBytes a 8) 0 8 = (if p.op = 3 then old + x else if p.op = 4 then (if old.toInt < x.toInt then x else old)
           else if old = x then BitVec.ofNat 64 (fieldNat p.payload 8 8) else old).toNat ∧
         (∀ b, (b < a ∨ a + 8 ≤ b) → cellGet u.mem.data b = cellGet t.mem.data b) ∧
         ∀ j, clear j → HasLeft u j fun q => q.ptype = 2 ∧ q.ack = p.psn ∧ q.token = old.setWidth 128) ∧
       (p.op = 7 → t.takesMessages (a / 4096 % 128) = true →
         flagGet (u.targetBlock (a / 4096 % 128)).pending (a % 4096) = true)) ∧
     (precedes p.psn k.expect = true → p.op = 1 → Does (.reqReceive f p) s fun u => u.fab.dup = t.fab.dup + 1 ∧ u.mem = t.mem ∧
       (u.chan n).expect = k.expect ∧ (u.chan n).sinceAck = 0 ∧
       ∀ j, t.pickAny (fun _ => false) = some j → (∀ r ∈ k.refused, r.1 ≠ p.psn) → ∃ q, SentOn t u j q ∧ q.ptype = 3 ∧
         q.ack = k.expect) ∧
     ∀ st : Byte, p.psn = k.expect → p.first = true → p.last = true → k.held = [] → k.credit ≠ 0 → UnitFree t (f.sub.val / 8) →
       t.reqStatus p = st → st ≠ 0 → (t.fabricEntry (p.token.toNat % 16384)).sound = true →
       Does (.reqReceive f p) s fun u => u.fab.denied = t.fab.denied + 1 ∧ u.mem = t.mem ∧ (u.chan n).expect = k.expect + 1 ∧
         (p.psn, st) ∈ (u.chan n).refused ∧ (∃ r ∈ u.recd.inFlight, r.sev = 3 ∧ r.code = 0x0C06 ∧ r.p2 = st.setWidth 32) ∧
         ∀ j, clear j → HasLeft u j fun q => q.ptype = 2 ∧ q.fmt = st ∧ q.ack = p.psn) ∧
  (∀ (p : Packet) (t : State), p.op = 7 → (p.offset.toNat % 4096 = 0xFFF ∨ 64 < p.offset.toNat / 4096 % 128) → t.reqStatus p = 8)

/-- R346, R348 to R350: the next REQ of a channel is numbered, recorded and sent where every limit allows, on a sub-port whose
queue is not full; one not acknowledged in time is sent again, on another sub-port where one sends; an acknowledgement that
is owed is sent. R330, R337, R338, R347 to R349: an acknowledgement releases what it covers, raises the credit limit and
drives the window; a NACK does the same. An operation whose packets are all covered completes; one that the target refused
completes with the target's status, whether the ACK or the RESP brings it first. The RESP of a READ brings its bytes to the
operation's buffer. That an ACK names the refused packets in its payload, and that fmt holds a RESP's status, is the model's
choice (log entries 33, 81). -/
def Obligations.RequestsAndAnswers : Prop :=
  (∀ (ch : Fin 4096) (full : BitVec 64) (s : State),
     let k := s.chan ch.val
     let told := s.mapFab fun x => { x with full := full }
     s.fabricOn = true → k.st = .opened → k.peer ≠ s.fab.devId.val → s.fab.loop = [] →
     (k.nextOp s.fab.payload.toNat = none → exec (.packetSend ch full) s = .next told) ∧
     (∀ (o : PostOp) (j : Fin 64), k.nextOp s.fab.payload.toNat = some o → s.maySend k o = true →
       (∀ r ∈ o.desc.packetRanges s.fab.payload.toNat o.sent, SoundAt s (r.1 / 32 * 32) (r.2 + 32)) →
       s.pickSub (fun i => full.getLsbD i) = some j → UnitFree s (j.val / 8) →
       Does (.packetSend ch full) s fun u =>
         let p := s.buildReq ch.val k o o.sent
         SentOn s u j p ∧ p.ptype = 1 ∧ p.psn = k.nextPsn ∧ p.op = o.desc.op ∧ p.epoch = k.epoch ∧
         (u.chan ch.val).nextPsn = k.nextPsn + 1 ∧ (u.chan ch.val).sent.map (fun e => e.pkt) = k.sent.map (fun e => e.pkt) ++ [p] ∧
         (u.ledger 0x40).outstanding.val = (s.ledger 0x40).outstanding.val + 1 ∧ u.mem = s.mem ∧ u.cores = s.cores) ∧
     (∀ (psn : BitVec 32) (e : SentReq) (j : Fin 64), k.sent.find? (fun x => x.psn == psn) = some e → e.pkt.dst ≠ s.fab.devId.val →
       let due := e.sentAt + 100 * s.fab.rtoUs.toNat * 2 ^ min e.retries 3
       (e.sacked = false → due ≤ s.time →
         (s.pickAny (fun i => i == e.sub.val) = some j ∨
           (s.pickAny (fun i => i == e.sub.val) = none ∧ s.subSends e.sub.val = true ∧ j = e.sub)) →
         Does (.retransmitTimeout ch psn) s fun u => SentOn s u j e.pkt ∧ u.fab.retx = s.fab.retx + 1 ∧
           (u.chan ch.val).sent.find? (fun x => x.psn == psn) = some { e with sub := j, retries := e.retries + 1, sentAt := s.time } ∧
           u.mem = s.mem ∧ u.cores = s.cores) ∧
       (s.time < due → exec (.retransmitTimeout ch psn) s = .next s)) ∧
     (k.held = [] → (k.sinceAck = 0 → exec (.ackTimer ch) s = .next s) ∧
       ∀ j, k.sinceAck ≠ 0 → s.pickAny (fun _ => false) = some j → Does (.ackTimer ch) s fun u =>
         (u.chan ch.val).sinceAck = 0 ∧ u.mem = s.mem ∧ u.cores = s.cores ∧ ∃ q, SentOn s u j q ∧ q.ptype = 3 ∧ q.ack = k.expect ∧
           q.aux = k.expect + k.credit.setWidth 32 ∧ q.ceEcho = k.ceSeen)) ∧
  (∀ (f : Frame) (p : Packet) (c : CoreId) (s t : State), ReturnsSound t →
     let n := p.chan.val
     let k := t.chan n
     let bad := ackRefusals p.payload
     let covered := fun e : SentReq => precedes e.psn p.ack && (!wantsResp e.pkt.op || bad.any fun b => b.1 == e.psn)
     let releases := fun u : State => (u.chan n).sent.map (fun e => e.psn) = (k.sent.filter fun e => !covered e).map (fun e => e.psn) ∧
       (u.chan n).creditLimit = (if precedes k.creditLimit p.aux = true then p.aux else k.creditLimit) ∧
       (u.ledger 0x40).outstanding.val.toNat = (t.ledger 0x40).outstanding.val.toNat - (k.sent.filter covered).length ∧
       (u.chan n).expect = k.expect ∧ (u.chan n).epoch = k.epoch
     let ends := fun (u : State) (o : PostOp) (st : Byte) (r : Word) => (u.chan n).ops = [] ∧ Completed t u c o.desc st r
     let drives := fun u : State =>
       (p.ceEcho = true → (t.peerOf p.src).halvedAt = none → (u.peerOf p.src).window = max 4 ((t.peerOf p.src).window / 2))
     (ChannelIn s t f p 3 → Does (.ackReceive f p) s fun u => releases u ∧ u.fab.tx = t.fab.tx ∧ drives u ∧
       ∀ o : PostOp, k.ops = [o] → Posted t c o → o.desc.op.toNat ≤ 8 →
         (wantsResp o.desc.op = false → o.sent = o.desc.packets t.fab.payload.toNat →
           (∀ e ∈ k.sent, o.owns e.psn = true → covered e = true) → (∀ b ∈ bad, o.owns b.1 = false) →
           ends u o 0 (BitVec.ofNat 64 (min o.desc.len (o.sent * o.desc.perPacket t.fab.payload.toNat)))) ∧
         ∀ st : Byte, isAtomic o.desc.op = false → o.sent = 1 → o.desc.packets t.fab.payload.toNat = 1 → bad = [(o.base, st)] →
           (∀ e ∈ k.sent, o.owns e.psn = true → e.psn = o.base ∧ precedes e.psn p.ack = true) → ends u o st 0) ∧
     (ChannelIn s t f p 4 → Does (.nackReceive f p) s fun u => releases u ∧ drives u) ∧
     ∀ (e : SentReq) (o : PostOp), ChannelIn s t f p 2 → k.sent = [e] → e.psn = p.ack → k.ops = [o] → o.owns e.psn = true →
       e.psn = o.base → o.sent = 1 → Posted t c o → o.desc.packets t.fab.payload.toNat = 1 →
       (o.desc.op = 2 → p.fmt = 0 → p.pmap = 0 → p.payload.length = o.desc.len → o.desc.len ≤ t.fab.payload.toNat →
         Lands t o.desc.laddr.toNat o.desc.len → Does (.respReceive f p) s fun u => (u.chan n).sent = [] ∧
           (∀ j < o.desc.len, some (cellGet u.mem.data (o.desc.laddr.toNat + j)) = p.payload[j]?) ∧
           ends u o 0 (BitVec.ofNat 64 o.desc.len)) ∧
       (isAtomic o.desc.op = true → p.fmt = 0 → Does (.respReceive f p) s fun u => (u.chan n).sent = [] ∧
         ends u o 0 (p.token.setWidth 64)) ∧
       (o.desc.op.toNat ≤ 8 → isAtomic o.desc.op = false → p.fmt ≠ 0 → p.fmt ≠ 6 → Does (.respReceive f p) s fun u =>
         (u.chan n).sent = [] ∧ ends u o p.fmt 0))

/-- R343, R344, R352: ch_cmd opens a channel, which sends HELLO and sends it again; the HELLO of the peer opens it under the
epoch of both halves and is answered. At an OPEN channel the HELLO that opened it changes nothing under the same epoch, and
is answered under another; one of a new half ends the channel and opens it again with a new half. ch_cmd close drains it;
drained, it sends BYE and is CLOSED. A BYE, or a peer silent for peer_timeout, ends every channel to the peer. The credit of 8
before the first ACK, and what HELLO an OPEN channel answers, are the model's choice (log entry 34). -/
def Obligations.ChannelsOpenAndClose : Prop :=
  ∀ (c : CoreId) (ch : Fin 4096) (j : Fin 64) (f : Frame) (p : Packet) (s t : State),
    let k := s.chan ch.val
    (s.hubRuns = true → s.domainOn 92 = true → (s.core c).cond ≠ .absent → (s.core c).win.chSel.toNat = ch.val → s.fab.loop = [] →
      k.peer ≠ s.fab.devId.val →
      (k.st = .closed ∨ k.st = .gone → s.pickAny (fun _ => false) = some j → Does (.chCmdOpen .hub c) s fun u =>
        (u.chan ch.val).st = .opening ∧ (u.chan ch.val).ownHalf = s.fab.halfCounter ∧ u.fab.halfCounter = s.fab.halfCounter + 1 ∧
        u.mem = s.mem ∧ u.cores = s.cores ∧ ∃ q, SentOn s u j q ∧ q.ptype = 7 ∧ q.aux = s.fab.halfCounter.setWidth 32) ∧
      (k.st = .opened ∨ k.st = .opening → exec (.chCmdClose .hub c) s = .next (s.setChan ch.val { k with st := .draining }))) ∧
    (s.fabricOn = true → s.fab.loop = [] → k.peer ≠ s.fab.devId.val → s.pickAny (fun _ => false) = some j →
      (k.st = .opening → Does (.helloTimer ch) s fun u => u.mem = s.mem ∧ u.fab.chans = s.fab.chans ∧
        ∃ q, SentOn s u j q ∧ q.ptype = 7 ∧ q.chan = ch ∧ q.aux = k.ownHalf.setWidth 32) ∧
      (k.st = .draining → k.ops = [] → ReturnsSound s → Does (.channelDrained ch) s fun u => (u.chan ch.val).st = .closed ∧
        (u.chan ch.val).sent = [] ∧ (u.chan ch.val).held = [] ∧ u.mem = s.mem ∧ ∃ q, SentOn s u j q ∧ q.ptype = 8 ∧ q.chan = ch)) ∧
    (PacketIn s t f p 7 → (t.chan p.chan.val).peer = p.src → p.src ≠ t.fab.devId.val → t.pickAny (fun _ => false) = some j →
      let x := t.chan p.chan.val
      let theirs : BitVec 16 := p.aux.setWidth 16
      let epoch := fun own : BitVec 16 => if t.fab.devId.val.toNat ≤ p.src.toNat then own ++ theirs else theirs ++ own
      let answers := fun u : State => ∃ q, SentOn t u j q ∧ q.ptype = 7 ∧ q.chan = p.chan ∧ q.epoch = (u.chan p.chan.val).epoch ∧
        q.aux = (u.chan p.chan.val).ownHalf.setWidth 32
      (x.st = .opening → Does (.helloReceive f p) s fun u =>
        let y := u.chan p.chan.val
        y.st = .opened ∧ y.nextPsn = 0 ∧ y.expect = 0 ∧ y.creditLimit = 8 ∧ y.peerHalf = some theirs ∧ y.ownHalf = x.ownHalf ∧
        y.epoch = epoch x.ownHalf ∧ u.mem = t.mem ∧ answers u ∧
        Logs t u 1 0x0C05 (BitVec.ofNat 32 (0x00030000 + p.chan.val)) (p.src.setWidth 32) y.epoch 0) ∧
      (x.st = .opened → x.peerHalf = some theirs → p.epoch = x.epoch → exec (.helloReceive f p) s = .next t) ∧
      (x.st = .opened → x.peerHalf = some theirs → p.epoch ≠ x.epoch → Does (.helloReceive f p) s fun u =>
        u.fab.chans = t.fab.chans ∧ u.mem = t.mem ∧ answers u) ∧
      (x.st = .opened → x.peerHalf ≠ some theirs → ReturnsSound t → Does (.helloReceive f p) s fun u =>
        let y := u.chan p.chan.val
        y.st = .opened ∧ y.ops = [] ∧ y.sent = [] ∧ y.held = [] ∧ y.nextPsn = 0 ∧ y.expect = 0 ∧ y.peerHalf = some theirs ∧
        y.ownHalf = t.fab.halfCounter ∧ y.epoch = epoch t.fab.halfCounter ∧ answers u ∧
        ∃ r ∈ u.recd.inFlight, r.sev = 4 ∧ r.code = 0x0C04)) ∧
    (ChannelIn s t f p 8 → (t.chan p.chan.val).st = .opened → ReturnsSound t → Does (.byeReceive f p) s fun u =>
      Departed t u p.src ∧ u.peerOf p.src = ⟨64, none, 0, 0, 0, none⟩ ∧ ∃ r ∈ u.recd.inFlight, r.sev = 4 ∧ r.code = 0x0C04) ∧
    ∀ peer : BitVec 14, s.fabricOn = true → peer ≠ s.fab.devId.val →
      let x := s.peerOf peer
      let timeout := 100000 * s.fab.peerTimeout.toNat
      (((0 < s.inFlightTo peer ∧ x.heard + timeout ≤ s.time) ∨ ∃ since, s.fab.noUpSince = some since ∧ since + timeout ≤ s.time) →
        ReturnsSound s → Does (.peerTimeout peer) s fun u => Departed s u peer) ∧
      (s.time < x.heard + timeout → s.fab.noUpSince = none → exec (.peerTimeout peer) s = .next s)

/-- R318, R350 to R352: PROBEs go out on every sub-port that is DOWN with a link, or UP while the peer owes acknowledgements and
peer_timeout / 8 has passed since the last, and are answered; the eighth answer in a row brings a DOWN sub-port UP. A sub-
port goes DOWN when its link is lost, when more codewords than fec_thr were uncorrectable, or when a PROBE stays unanswered;
its link comes back. R359: PORT_DOWN counts the packets that were sent again. A port is fenced whole, or takes a mode. -/
def Obligations.SubportsAreProbed : Prop :=
  ∀ (peer : BitVec 14) (f : Frame) (p : Packet) (k : Fin 64) (port : Fin 8) (m : BitVec 8) (s t : State),
    let x := s.sub k.val
    let due := 0 < s.inFlightTo peer ∧ ∀ at_, (s.peerOf peer).probedAt = some at_ → 8 * at_ + 100000 * s.fab.peerTimeout.toNat ≤ 8 * s.time
    (s.fabricOn = true → peer ≠ s.fab.devId.val → Does (.probeTimer peer) s fun u => u.mem = s.mem ∧ u.fab.chans = s.fab.chans ∧
      ((x.link = true ∧ x.mac ≠ 0 ∧ (x.st = .down ∨ (x.st = .up ∧ due))) →
        (u.sub k.val).probeOut = true ∧ (x.probeOut = true → (u.sub k.val).probesOk = 0) ∧ (u.sub k.val).st = x.st ∧
        (Unpaused s k.val s.fab.prio → HasLeft u k fun q => q.ptype = 5 ∧ q.dst = peer)) ∧
      (x.link = false ∨ x.mac = 0 ∨ (x.st = .up ∧ ¬due) → u.sub k.val = x)) ∧
    (PacketIn s t f p 5 → (t.sub f.sub.val).mac ≠ 0 → Does (.probeReceive f p) s fun u => u.mem = t.mem ∧ u.fab.chans = t.fab.chans ∧
      ∃ q : Packet, SentOn t u f.sub q ∧ q.ptype = 6 ∧ q.dst = p.src) ∧
    (PacketIn s t f p 6 → (t.sub f.sub.val).probeOut = true → Does (.probeReplyReceive f p) s fun u => u.mem = t.mem ∧
      let y := t.sub f.sub.val
      (y.st = .down → 7 ≤ y.probesOk → (u.sub f.sub.val).st = .up ∧
        Logs t u 1 0x0C02 (BitVec.ofNat 32 (0x00020000 + f.sub.val)) 0 0 0) ∧
      ((y.st ≠ .down ∨ y.probesOk < 7) → (u.sub f.sub.val).st = y.st ∧ (u.sub f.sub.val).probesOk = y.probesOk + 1)) ∧
    (x.st = .up → s.sentOn k.val = [] → s.fab.loop = [] →
      (∀ (why : DownReason) (cause : BitVec 32),
        (match why with
         | .link => cause = 0
         | .fec n => cause = 1 ∧ (vget s.fab.ports (k.val / 8) ⟨0xFF, 0, 0x100⟩).fecThr.toNat < n.toNat
         | .probes => cause = 2 ∧ x.probeOut = true) →
        Does (.subportDown k why) s fun u => (u.sub k.val).st = .down ∧ (u.sub k.val).link = (x.link && decide (why ≠ .link)) ∧
          u.fab.tx = s.fab.tx ∧ u.fab.chans = s.fab.chans ∧ u.mem = s.mem ∧
          Logs s u 3 0x0C01 (BitVec.ofNat 32 (0x00020000 + k.val)) cause 0 0) ∧
      ∀ n : BitVec 32, n.toNat ≤ (vget s.fab.ports (k.val / 8) ⟨0xFF, 0, 0x100⟩).fecThr.toNat →
        exec (.subportDown k (.fec n)) s = .next (s.mapSub k.val fun y => { y with fecUncorr := y.fecUncorr + n.setWidth 64 })) ∧
    (x.st = .up → s.fab.loop = [] → (∀ e ∈ s.fab.chans, ∀ q ∈ e.2.sent, q.pkt.dst ≠ s.fab.devId.val) →
      Does (.subportDown k .link) s fun u =>
        Logs s u 3 0x0C01 (BitVec.ofNat 32 (0x00020000 + k.val)) 0 (BitVec.ofNat 32 (u.fab.retx - s.fab.retx).toNat) 0) ∧
    (x.st ≠ .absent → s.domainOn (84 + k.val / 8) = true → exec (.subportLinkUp k) s =
      .next (s.mapSub k.val fun y => { y with link := true, probesOk := 0, probeOut := false })) ∧
    (s.hubRuns = true → (∀ j < 8, s.sentOn (8 * port.val + j) = []) →
      (Does (.portFenceWrite .hub port 0xFF) s fun u => u.mem = s.mem ∧ u.fab.tx = s.fab.tx ∧
        (∀ j < 8, (s.sub (8 * port.val + j)).st ≠ .absent → (u.sub (8 * port.val + j)).st = .fenced) ∧
        ((s.ledger (0x48 + port.val)).st = .opened → (u.ledger (0x48 + port.val)).st = .afterFence)) ∧
      ((m.toNat < 4 ∨ m = 0xFF) → Does (.portModeWrite .hub port (m.setWidth 64)) s fun u => u.mem = s.mem ∧
        (u.fab.ports[port]).mode = m ∧ ∀ j < 8, (s.sub (8 * port.val + j)).st ≠ .fenced →
          (u.sub (8 * port.val + j)).st = (if m.toNat < 4 ∧ j < 2 ^ m.toNat then .down else .absent)))

/-- R319 to R321: a PFC frame pauses the priorities it names where they are enabled, or ends their pause; a pause ends after its
time, and the frame that waited for it leaves; XOFF leaves where a port is beyond its reserve and little of the shared part
is free, and XON when it is over. PAUSE frames are counted and dropped. A request for an address of the device's sub-ports
is answered, with the sub-port's own MAC address; not one in fragments or with extension headers (R323). R339, R340, R342, R362: a write of a fabric table entry's token, base or
length disables the entry; the control byte enables one whose token is a fabric capability for its slot, and refuses to
enable any other. The entry's pairs are checked first, and formed anew where they are written; the control byte that is cleared
only where its own pair agrees. -/
def Obligations.FlowControlAndTable : Prop :=
  (∀ (f : Frame) (en : BitVec 8) (times : Vector (BitVec 16) 8) (prio : Fin 8) (k : Fin 64) (kind : NeighborKind)
     (target : BitVec 128) (w : OutFrame) (s t : State),
     let x := s.sub k.val
     (s.receives f.sub.val = true → f.fcsOk = true → s.fab.waiting = [] → Does (.pfcFrameReceive f en times) s fun u =>
       (u.sub f.sub.val).pfcRx = (s.sub f.sub.val).pfcRx + 1 ∧
       (u.sub f.sub.val).rxBytes = (s.sub f.sub.val).rxBytes + BitVec.ofNat 64 f.len ∧
       (∀ i : Fin 8, (u.sub f.sub.val).paused.getLsbD i.val =
         (if en.getLsbD i.val = true ∧ (s.sub f.sub.val).pfcEn.getLsbD i.val = true then decide (times[i] ≠ 0)
          else (s.sub f.sub.val).paused.getLsbD i.val)) ∧
       (∀ i : Fin 64, i ≠ f.sub → u.sub i.val = s.sub i.val) ∧ u.fab.tx = s.fab.tx ∧ u.mem = s.mem) ∧
     (s.fab.waiting = [] ∨ (s.fab.waiting = [w] ∧ w.sub = k ∧ w.prio.toNat = prio.val) → Does (.pfcPauseTimeEnd k prio) s fun u =>
       (u.sub k.val).paused.getLsbD prio.val = false ∧
       (∀ i : Fin 8, i ≠ prio → (u.sub k.val).paused.getLsbD i.val = x.paused.getLsbD i.val) ∧
       u.fab.tx = s.fab.tx ++ s.fab.waiting.map (fun o => o.item) ∧ u.fab.waiting = [] ∧ u.mem = s.mem) ∧
     (s.subSends k.val = true →
       (x.pfcEn.getLsbD prio.val = true → x.xoff.getLsbD prio.val = false → 256 < s.heldOn (k.val / 8) → s.sharedFree < 1024 →
         Does (.pfcXoffSend k prio) s fun u => u.fab.tx = s.fab.tx ++ [.pfc k prio true] ∧
           (u.sub k.val).xoff.getLsbD prio.val = true ∧ (u.sub k.val).pfcTx = x.pfcTx + 1 ∧ u.mem = s.mem) ∧
       (x.xoff.getLsbD prio.val = true → 2048 ≤ s.sharedFree → Does (.pfcXonSend k prio) s fun u =>
         u.fab.tx = s.fab.tx ++ [.pfc k prio false] ∧ (u.sub k.val).xoff.getLsbD prio.val = false ∧
           (u.sub k.val).pfcTx = x.pfcTx + 1 ∧ u.mem = s.mem)) ∧
     (s.receives f.sub.val = true → exec (.pauseFrameReceive f) s = .next (s.mapSub f.sub.val fun y =>
       { y with rxBytes := y.rxBytes + BitVec.ofNat 64 f.len, fcsErr := if f.fcsOk then y.fcsErr else y.fcsErr + 1,
                rxDrop := y.rxDrop + 1 })) ∧
     (s.frameIn f = (t, true) → (t.sub f.sub.val).mac ≠ 0 →
       let own := if kind = .arp then ∃ i : Fin 64, (t.sub i.val).st ≠ .absent ∧ (t.sub i.val).ip4 ≠ 0 ∧
           target = (t.sub i.val).ip4.setWidth 128
         else ∃ i : Fin 64, (t.sub i.val).st ≠ .absent ∧ t.subIp6 t.fab.devId.val i.val = target
       (own → (kind = .arp ∨ f.fragOrExt = false) → Does (.neighborEchoReceive f kind target) s fun u => u.mem = t.mem ∧ u.fab.chans = t.fab.chans ∧
         (Unpaused t f.sub.val Config.answerPrio → ∃ h : TxHead, u.fab.tx = t.fab.tx ++ [.neighbor f.sub h kind target] ∧
           h.srcMac = (t.sub f.sub.val).mac ∧ h.dstMac = (if kind = .arp then f.srcMac else (t.sub f.sub.val).nhMac))) ∧
       (¬own ∨ (kind ≠ .arp ∧ f.fragOrExt = true) → exec (.neighborEchoReceive f kind target) s = .next t))) ∧
  (∀ (i : Fin 16384) (v : Word) (ctl : BitVec 2) (s : State), s.hubRuns = true →
     let e := { s.fabricEntry i.val with noted := false }
     let t := (s.readEntry i.val).1
     let off := if e.ctl.inv = ~~~e.ctl.val then pairOf (e.ctl.val &&& 2) else e.ctl
     exec (.fabricTableWrite .hub .tokLo i v) s = .next (t.setFabricEntry i.val { e with tokLo := pairOf v, ctl := off }) ∧
     exec (.fabricTableWrite .hub .tokHi i v) s = .next (t.setFabricEntry i.val { e with tokHi := pairOf v, ctl := off }) ∧
     exec (.fabricTableWrite .hub .base i v) s = .next (t.setFabricEntry i.val { e with base := pairOf v, ctl := off }) ∧
     exec (.fabricTableWrite .hub .len i v) s = .next (t.setFabricEntry i.val { e with len := pairOf v, ctl := off }) ∧
     (ctl.getLsbD 0 = false ∨ tokenOk e.token i.val = true →
       exec (.fabricEnableWrite .hub i (ctl.setWidth 64)) s = .next (t.setFabricEntry i.val { e with ctl := pairOf ctl })) ∧
     (tokenOk e.token i.val = false → exec (.fabricEnableWrite .hub i 1) s = .next s))

/-- R356: qp_cmd loads a queue pair from its context, resets it, or writes its state and tail back and takes the ring's head.
R354, R355: the responder takes the packets of an expected RDMA WRITE in turn, fills the next slot of the receive ring with
a SEND of one packet or turns it away while the ring is full, answers a READ in packets of the path MTU and changes the word
of an atomic; a request of a later number gets a sequence NAK; one served before is answered again and not applied; a
refused R_Key is counted and puts the connection in error. R354, R357: an acknowledged operation completes, an atomic with
the value it read, a READ with its data at its destination; an RNR answer waits and sends again; a sequence NAK or the local
ACK timeout uses a retry and sends again what is not acknowledged; without a retry, or refused, the queue pair is in error
and its operation ends with the status and the bytes that were acknowledged (R331). A CNP halves the send rate, which recovers
in steps of a twentieth, one for each 55 µs without a CNP. What the spec takes from the InfiniBand specification by name (what
a packet carries, how an R_Key names its entry, the syndromes) is presumed by the model (log entry 35, PRESUMED), the ICRC's
value is open (log entry 143). -/
def Obligations.RoceConnections : Prop :=
  (∀ (q : Fin 1024) (s : State), s.hubRuns = true → s.domainOn 92 = true → (s.qp q.val).ops = [] →
     let v := BitVec.ofNat 64 q.val
     let a := s.contextAddr q.val
     let bs := s.homeBytes a 64
     (Does (.qpCmdReset .hub v) s fun u => u.qp q.val = qpReset ∧ (∀ i : Fin 1024, i ≠ q → u.qp i.val = s.qp i.val) ∧ u.mem = s.mem) ∧
     ((∀ j < 64, (s.region (a + j)).mapped = true) → SoundAt s a 64 →
       (s.contextOk bs = true → Does (.qpCmdLoad .hub v) s fun u => u.mem = s.mem ∧
         (∀ i : Fin 1024, i ≠ q → u.qp i.val = s.qp i.val) ∧
         let x := u.qp q.val
         x.st = .rts ∧ x.rqpn = BitVec.ofNat 24 (fieldNat bs 0 3) ∧ x.spsn = BitVec.ofNat 24 (fieldNat bs 4 3) ∧
         x.rpsn = BitVec.ofNat 24 (fieldNat bs 8 3) ∧ x.cfg = BitVec.ofNat 32 (fieldNat bs 12 4) ∧
         x.rip = BitVec.ofNat 128 (fieldNat bs 16 16) ∧ x.rmac = BitVec.ofNat 48 (fieldNat bs 32 6) ∧
         x.port = BitVec.ofNat 8 (fieldNat bs 38 1) ∧ x.rqIrq = BitVec.ofNat 16 (fieldNat bs 50 2) ∧
         x.rqBase = BitVec.ofNat 64 (fieldNat bs 40 8) ∧ x.rqSize = BitVec.ofNat 16 (fieldNat bs 48 2) ∧ x.ops = []) ∧
       (Does (.qpCmdWriteback .hub v) s fun u =>
         fieldNat (u.homeBytes a 64) 52 2 = (s.qp q.val).rqTail.toNat ∧
         fieldNat (u.homeBytes a 64) 39 1 = (match (s.qp q.val).st with | .reset => 0 | .rts => 1 | .error => 2) ∧
         (u.qp q.val).rqHead = BitVec.ofNat 16 (fieldNat bs 54 2) ∧
         ∀ b, b ≠ a + 39 → b ≠ a + 52 → b ≠ a + 53 → cellGet u.mem.data b = cellGet s.mem.data b))) ∧
  (∀ (f : Frame) (q : RoceReq) (s t : State), RoceIn s t f q.qp.val →
     let n := q.qp.val
     let x := t.qp n
     let a := q.va.toNat
     let d := (q.psn - x.rpsn).toNat
     (t.fabricEntry (q.rkey.toNat % 16384)).sound = true →
     (∀ r : RoceRx, d = 0 → q.op = .write → WriteGoes t q r → Lands t r.next q.payload.length →
       Does (.roceRequestReceive f q) s fun u => (u.qp n).rpsn = q.psn + 1 ∧ Wrote t u r.next q.payload ∧
         (u.qp n).rx = (if q.last then none else some { r with next := r.next + q.payload.length, left := r.left - q.payload.length }) ∧
         Replies t u f q (.ack [] 0)) ∧
     (d = 0 → q.op = .send → q.first = true → q.last = true → x.rqSize ≠ 0 → x.rx = none → q.payload.length ≤ min x.mtu 4096 →
       let slot := x.rqBase.toNat + 4096 * (x.rqTail.toNat % x.rqSize.toNat)
       ((x.rqTail - x.rqHead).toNat < x.rqSize.toNat → Lands t slot q.payload.length → Does (.roceRequestReceive f q) s fun u =>
         (u.qp n).rpsn = q.psn + 1 ∧ (u.qp n).rqTail = x.rqTail + 1 ∧ Wrote t u slot q.payload ∧ Replies t u f q (.ack [] 0)) ∧
       (x.rqSize.toNat ≤ (x.rqTail - x.rqHead).toNat → Does (.roceRequestReceive f q) s fun u => u.mem = t.mem ∧
         u.fab.qps = t.fab.qps ∧ Replies t u f q .rnr)) ∧
     (d = 0 → q.op = .read → t.rkeyStatus q [permLoad] q.len.toNat = 0 → SoundAt t (a / 32 * 32) (q.len.toNat + 32) →
       Does (.roceRequestReceive f q) s fun u => u.mem = t.mem ∧
         (u.qp n).rpsn = q.psn + BitVec.ofNat 24 (roceSpan x 0x12 q.len.toNat) ∧
         ∃ parts : List (List Byte), parts.flatten = t.homeBytes a q.len.toNat ∧ (∀ b ∈ parts, b.length ≤ x.mtu) ∧
           Leaves t u x f.sub (parts.mapIdx fun i b => answerItem f.sub x.rqpn (q.psn + BitVec.ofNat 24 i) (.ack b 0))) ∧
     (d = 0 → (q.op = .fetchAdd ∨ q.op = .cmpSwap) → a % 8 = 0 → t.rkeyStatus q [permLoad, permStore] 8 = 0 →
       SoundAt t (a / 32 * 32) 32 → Lands t a 8 →
       let old := BitVec.ofNat 64 (fieldNat (t.homeBytes a 8) 0 8)
       Does (.roceRequestReceive f q) s fun u => (u.qp n).rpsn = q.psn + 1 ∧
         fieldNat (u.homeBytes a 8) 0 8 =
           (if q.op = .fetchAdd then old + q.opd1 else if old = q.opd1 then q.opd2 else old).toNat ∧
         (∀ b, (b < a ∨ a + 8 ≤ b) → cellGet u.mem.data b = cellGet t.mem.data b) ∧ Replies t u f q (.ack [] old)) ∧
     (d = 0 → q.op = .write → q.first = true → x.rx = none → x.sizeOk q q.len.toNat = true →
       (q.last = true → q.payload.length = q.len.toNat) → t.rkeyStatus q [permStore] q.len.toNat ≠ 0 → x.ops = [] →
       Does (.roceRequestReceive f q) s fun u => (u.qp n).st = .error ∧ u.fab.denied = t.fab.denied + 1 ∧ u.mem = t.mem ∧
         Replies t u f q .nakAccess ∧ ∃ r ∈ u.recd.inFlight, r.sev = 3 ∧ r.code = 0x0C08) ∧
     (0 < d → d < 2 ^ 23 → Does (.roceRequestReceive f q) s fun u => u.mem = t.mem ∧ u.fab.qps = t.fab.qps ∧
       Replies t u f q .nakSequence) ∧
     (2 ^ 23 ≤ d →
       (q.op = .write ∨ q.op = .send → Does (.roceRequestReceive f q) s fun u => u.mem = t.mem ∧ u.fab.qps = t.fab.qps ∧
         Replies t u f q (.ack [] 0)) ∧
       ∀ old : Word, (q.op = .fetchAdd ∨ q.op = .cmpSwap) → x.atomics.find? (fun e => e.1 == q.psn) = some (q.psn, old) →
         Does (.roceRequestReceive f q) s fun u => u.mem = t.mem ∧ u.fab.qps = t.fab.qps ∧ Replies t u f q (.ack [] old))) ∧
  (∀ (f : Frame) (qp : Fin 1024) (psn : BitVec 24) (c : CoreId) (o : PostOp) (s t : State),
     let n := qp.val
     let x := t.qp n
     let y := s.qp n
     let resent := fun (v u : State) =>
       let k := Fin.ofNat 64 (v.qp n).subOf
       Leaves v u (v.qp n) k (((v.qp n).packets n o).map fun r => requestItem k (v.qp n).rqpn r)
     let failed := fun (v u : State) (st : Byte) => (u.qp n).st = .error ∧ (u.qp n).ops = [] ∧
       Completed v u c o.desc st (if o.desc.op = 0x13 ∨ o.desc.op = 0x14 then o.result
         else BitVec.ofNat 64 (min o.desc.len ((v.qp n).acked o * (v.qp n).mtu))) ∧
       ∃ r ∈ u.recd.inFlight, r.sev = 3 ∧ r.code = 0x0C08
     (RoceIn s t f n →
       (OneOp t n c o →
         (x.covers o psn = true → x.lastOf o psn = true →
           (o.desc.op = 0x10 ∨ o.desc.op = 0x11 → Does (.roceResponseReceive f qp psn (.ack [] 0)) s fun u =>
             (u.qp n).ops = [] ∧ Completed t u c o.desc 0 (BitVec.ofNat 64 o.desc.len)) ∧
           (∀ old : Word, o.desc.op = 0x13 ∨ o.desc.op = 0x14 → Does (.roceResponseReceive f qp psn (.ack [] old)) s fun u =>
             (u.qp n).ops = [] ∧ Completed t u c o.desc 0 old) ∧
           ∀ data : List Byte, o.desc.op = 0x12 → psn = o.base.setWidth 24 → data.length = o.desc.len → o.desc.len < 2 ^ 64 →
             Lands t o.desc.laddr.toNat o.desc.len → Does (.roceResponseReceive f qp psn (.ack data 0)) s fun u =>
               (u.qp n).ops = [] ∧ Completed t u c o.desc 0 (BitVec.ofNat 64 o.desc.len) ∧
               ∀ j < o.desc.len, some (cellGet u.mem.data (o.desc.laddr.toNat + j)) = data[j]?) ∧
         (Does (.roceResponseReceive f qp psn .nakAccess) s fun u => failed t u 10) ∧
         (Does (.roceResponseReceive f qp psn .nakInvalid) s fun u => failed t u 9) ∧
         (Does (.roceResponseReceive f qp psn .nakOperational) s fun u => failed t u 9) ∧
         (x.rnrLeft = 0 → Does (.roceResponseReceive f qp psn .rnr) s fun u => failed t u 9) ∧
         (x.retriesLeft = 0 → Does (.roceResponseReceive f qp psn .nakSequence) s fun u => failed t u 9) ∧
         (x.retriesLeft ≠ 0 → Does (.roceResponseReceive f qp psn .nakSequence) s fun u =>
           (u.qp n).retriesLeft = x.retriesLeft - 1 ∧ (u.qp n).ops = [o] ∧ u.mem = t.mem ∧ resent t u)) ∧
       (x.rnrLeft ≠ 0 → exec (.roceResponseReceive f qp psn .rnr) s =
         .next (t.setQp n { x with rnrWait := true, rnrLeft := if x.rnrLeft = 7 then 7 else x.rnrLeft - 1 })) ∧
       exec (.roceCnpReceive f qp) s = .next (t.setQp n { x with rate := x.rate / 2, rateAt := some t.time })) ∧
     (s.fabricOn = true → y.st = .rts → OneOp s n c o →
       let isOver := 10 * y.sentAt + 4096 * 2 ^ (y.cfg.extractLsb' 10 5).toNat ≤ 10 * s.time
       (y.rnrWait = false → isOver → y.retriesLeft ≠ 0 → Does (.roceRetryTimeout qp) s fun u =>
         (u.qp n).retriesLeft = y.retriesLeft - 1 ∧ (u.qp n).ops = [o] ∧ u.mem = s.mem ∧ resent s u) ∧
       (y.rnrWait = false → isOver → y.retriesLeft = 0 → Does (.roceRetryTimeout qp) s fun u => failed s u 9) ∧
       (¬isOver → exec (.roceRetryTimeout qp) s = .next s) ∧
       (y.rnrWait = true → Does (.rnrRetryTimer qp) s fun u =>
         (u.qp n).rnrWait = false ∧ (u.qp n).ops = [o] ∧ u.mem = s.mem ∧ resent s u)) ∧
     (y.st = .rts → (∀ at_, y.rateAt = some at_ → at_ + 5500 ≤ s.time → exec (.cnpRateRecovery qp) s =
         .next (s.setQp n { y with rate := min 1000 (y.rate + 50), rateAt := some s.time })) ∧
       ((∀ at_, y.rateAt = some at_ → s.time < at_ + 5500) → exec (.cnpRateRecovery qp) s = .next s)))

/-- R72, R73, R450, R452: in gives an entry's value, or eight bytes of one of varying length, and iostat 0, out writes one;
where the entry does not exist, is not permitted, is not readable or writable, or does not take the value, iostat says why,
in this order, in gives 0 and nothing else changes. R329: an out to pq_tail that posts more than the free slots, or with no
queue, raises FABRIC_QUEUE: xaddr holds the queue's base, iostat reads RANGE and pq_tail is unchanged; another moves pq_tail
on. Permission is checked before. Which register xcause names is the model's choice (log entry 117). -/
def Obligations.CoresReachTheDictionary : Prop :=
  (∀ (c : CoreId) (rd : GReg) (kc : KReg) (addr : IoAddr) (s t : State), Issues s c (ioLen addr) t → Plain t c →
     let x := t.core c
     let k := t.getK c kc
     let tg := ioTarget x addr
     let i := tg.index.toNat
     let ended := fun (u : State) (n : Nat) => u.setCore c { u.core c with
       ctl := { (u.core c).ctl with iostat := BitVec.ofNat 4 n } }
     let gives := fun (n : Nat) (v : Word) => Completes (.ioIn c rd kc addr) s c (ioLen addr) ((ended t n).setG c rd v)
     let answers := fun (n : Nat) => Completes (.ioOut c kc addr rd) s c (ioLen addr) (ended t n)
     let writes := fun (u : State) => Completes (.ioOut c kc addr rd) s c (ioLen addr) (ended u 0)
     k.usable → k.has permIo = true → k.base ≤ tg.addr → tg.addr + 1 ≤ k.top → x.str.fence = [] → i < 0xF000 → tailCore tg = none →
     (t.lookup i tg.sub.toNat = none → gives 1 0 ∧ (t.coreRuns c = true → answers 1)) ∧
     ∀ e : Entry, t.lookup i tg.sub.toNat = some e →
       let a := coreAccess c k
       let fits := if e.typ.varies then tg.off % 8 = 0 ∧ (tg.off = 0 ∨ tg.off < e.len t) else tg.off = 0
       let part := min 8 (e.len t - tg.off)
       let whole := if e.typ.varies then some (replaceBytes (e.get t) tg.off part (t.getG c rd).toNat) else e.typ.ofReg (t.getG c rd)
       (a.holds e.rperm = false → gives 2 0) ∧
       (a.holds e.rperm = true → (e.owner = none ∨ e.owner = some c) → (e.acc = .wo → gives 4 0) ∧
         (e.acc ≠ .wo → ¬fits → gives 7 0) ∧
         (e.acc ≠ .wo → fits → e.take = none → e.critical = false → e.check t = t →
           gives 0 (if e.typ.varies then BitVec.ofNat 64 (e.get t / 2 ^ (8 * tg.off) % 2 ^ (8 * part)) else e.typ.toReg (e.get t)))) ∧
       (t.coreRuns c = true → (a.holds e.wperm = false → answers 2) ∧ (a.holds e.wperm = true → (e.acc = .ro → answers 3) ∧
         (e.acc = .atReset → answers 6) ∧
         (e.acc = .rw ∨ e.acc = .wo → (¬fits → answers 7) ∧ (fits →
           (whole = none → answers 5) ∧
           ∀ n, whole = some n → (e.write t i c.val n = none → answers 5) ∧
             ∀ u, e.write t i c.val n = some u → u.coreRuns c = true → writes u))))) ∧
  (∀ (c d : CoreId) (gv : GReg) (kc : KReg) (s t : State),
     let imm := BitVec.ofNat 32 (256 * blockIndex d 0x08 + 1)
     Issues s c 8 t → Plain t c →
     let k := t.getK c kc
     let w := (t.core d).win
     let v := t.getG c gv
     let u := t.setCore c { t.core c with ctl := { (t.core c).ctl with iostat := 5 } }
     let room := (v.setWidth 16 - w.pqTail).toNat + (w.pqTail - w.cqHead).toNat
     k.usable → k.has permIo = true → k.base ≤ imm.toNat → imm.toNat + 1 ≤ k.top → (t.core c).str.fence = [] →
     (t.core d).cond ≠ .absent → t.domainOn 92 = true → v.toNat < 65536 →
     (k.has permFabric = true → (w.pqSize = 0 ∨ w.pqSize.toNat < room) →
       exec (.ioOut c kc (.imm imm) gv) s = .next (u.takeCause c (cFABRICQUEUE (BitVec.ofNat 64 (queueBase d)) (kNum kc)) (t.pc c)) ∧
         ((u.takeCause c (cFABRICQUEUE (BitVec.ofNat 64 (queueBase d)) (kNum kc)) (t.pc c)).core d).win.pqTail = w.pqTail) ∧
     (k.has permFabric = true → w.pqSize ≠ 0 → room ≤ w.pqSize.toNat →
       CompletesIn (.ioOut c kc (.imm imm) gv) s c 8 fun r => (r.core d).win.pqTail = v.setWidth 16 ∧ (r.core c).ctl.iostat = 0) ∧
     (k.has permFabric = false → CompletesIn (.ioOut c kc (.imm imm) gv) s c 8 fun r => (r.core d).win = w ∧
       (r.core c).ctl.iostat = 2))

/-- R446, R452, R462, R469: hub firmware and a session write entries under the same checks: what is refused changes nothing,
what is written by a session is recorded as DAP_WRITE. R447: desc_sel selects the entry that desc describes. R401, R455, R456:
opt_commit starts a commit, which erases the option block and programs its sixteen pages with each word in force beside its
complement, the loaded value where a staged write placed bb_addr, and is recorded; the pairs of words 0 to 127 and 400 to
511 stay absent. While one is in progress every write of opt_commit is refused. -/
def Obligations.RequestersWriteEntries : Prop :=
  (∀ (index : BitVec 16) (sub : BitVec 8) (v : Word) (e : Entry) (vlan : Bool) (i : Fin 4) (x : Session) (s : State),
     let n := index.toNat
     let hub := Instr.dictionaryWrite .hub index sub 0 v
     let by_ := Instr.dictionaryWrite (.session vlan i) index sub 0 v
     let t := s.touchSession vlan i
     (s.hubRuns = true →
       (0xF000 ≤ n ∨ s.lookup n sub.toNat = none → exec hub s = .next s) ∧
       (n < 0xF000 → s.lookup n sub.toNat = some e → e.typ.varies = false →
         (e.acc = .ro ∨ e.acc = .atReset → exec hub s = .next s) ∧
         (e.acc = .rw ∨ e.acc = .wo → (e.typ.ofReg v = none → exec hub s = .next s) ∧
           ∀ m, e.typ.ofReg v = some m → (e.write s n 64 m = none → exec hub s = .next s) ∧
             ∀ u, e.write s n 64 m = some u → exec hub s = .next u))) ∧
     (s.sessionAt vlan i = some x →
       (0xF000 ≤ n ∨ t.lookup n sub.toNat = none → exec by_ s = .next t) ∧
       (n < 0xF000 → t.lookup n sub.toNat = some e → e.typ.varies = false →
         ((s.sessionAccess x).holds e.wperm = false → exec by_ s = .next t) ∧
         ∀ m u, (s.sessionAccess x).holds e.wperm = true → (e.acc = .rw ∨ e.acc = .wo) → e.typ.ofReg v = some m →
           e.write t n 64 m = some u → Does by_ s fun w => Logs u w 1 0x0A04 (if vlan then 1 else 0)
             (BitVec.ofNat 32 (n * 256 + sub.toNat)) x.id (v.setWidth 32) ∧ w.cores = u.cores ∧ w.mem = u.mem ∧ w.fab = u.fab))) ∧
  (∀ (c : CoreId) (v : BitVec 24) (k : Commit) (n : Nat) (s : State),
     (s.hubRuns = true →
       ((s.core c).cond ≠ .absent → s.domainOn (64 + c.val / 16) = true → exec (.descSelWrite .hub c (v.setWidth 64)) s =
         .next (s.setCore c { s.core c with win := { (s.core c).win with descSel := v.setWidth 32 } })) ∧
       (s.rst.commit = none → exec (.optCommit .hub 1) s = .next { s with rst := { s.rst with
         commit := some ⟨none, s.box.erasing, s.wordsToCommit⟩ } }) ∧
       (s.rst.commit.isSome = true → ∀ x : Word, exec (.optCommit .hub x) s = .next s)) ∧
     (s.rst.commit = some k → k.waiting = false →
       (k.pages = none → exec .optCommitPageDone s =
         .next { s with rst := { s.rst with flash := [], commit := some { k with pages := some 0 } } }) ∧
       (k.pages = some n → n < 16 → Does .optCommitPageDone s fun u =>
         (∀ w, 32 * n ≤ w → w < 32 * n + 32 → 128 ≤ w → w < 400 → sparseGet (fun _ => (⟨0xFFFFFFFF, 0xFFFFFFFF⟩ : CPair 32)) u.rst.flash w =
           pairOf (k.words.getD (w - 128) 0)) ∧
         (∀ w, (w < 32 * n ∨ 32 * n + 32 ≤ w ∨ w < 128 ∨ 400 ≤ w) → sparseGet (fun _ => (⟨0xFFFFFFFF, 0xFFFFFFFF⟩ : CPair 32)) u.rst.flash w =
           sparseGet (fun _ => (⟨0xFFFFFFFF, 0xFFFFFFFF⟩ : CPair 32)) s.rst.flash w) ∧
         u.cores = s.cores ∧ u.mem = s.mem ∧
         (n < 15 → u.rst.commit = some { k with pages := some (n + 1) } ∧ u.recd = s.recd) ∧
         (n = 15 → s.rst.commitAgain = false → u.rst.commit = none ∧ Logs s u 1 0x0A05 2 272 0 0))))

/-- R50, R296: step_inc adds one to step; step_adv adds one to step and the samples of a step to data_pos in one update. R362,
R363: a damaged step is left as it is, marked and recorded. R299, R301, R305, R357: an accepted drain or restore samples the
training state and claims its buffer, a restore posting READs of its record, each of at most 1 GiB (the model's parts, log
entry 145), on the target's connection; a release frees a buffer that failed or awaits acceptance; a command to a busy engine
is refused and changes nothing, and so is every command once the device has stopped (R369; the model's reading, log entry
142). R310: accept commits a restore that awaits it: step and key from the header, status 10, the buffer free; the marks of
step and key go (R363). What the engine is between its commands is the model's (log entries 77, 134). -/
def Obligations.TrainingSupport : Prop :=
  (∀ s : State, s.hubRuns = true →
     (intact s.train.step = true →
       exec (.stepIncWrite .hub 1) s = .next { s with train := { s.train with step := pairOf (s.train.step.val + 1) } }) ∧
     (intact s.train.step = true → intact s.train.dataPos = true → intact s.train.sps = true →
       exec (.stepAdvWrite .hub 1) s = .next { s with
         train := { s.train with step := pairOf (s.train.step.val + 1)
                                 dataPos := pairOf (s.train.dataPos.val + s.train.sps.val.setWidth 64) } }) ∧
     (intact s.train.step = false → Does (.stepIncWrite .hub 1) s fun u => u.train = s.train ∧ u.cores = s.cores ∧
       vget u.cont.crit 2 true = true ∧
       (vget s.cont.crit 2 true = false → Logs s u 6 0x0204 0x00010005 (BitVec.ofNat 32 0x240003) 0 0) ∧
       (vget s.cont.crit 2 true = true → u = s)) ∧
     ∀ v : Word, v ≠ 1 → exec (.stepIncWrite .hub v) s = .next s ∧ exec (.stepAdvWrite .hub v) s = .next s) ∧
  (∀ (b : Fin 2) (f : Bool) (es : List Extent) (s : State), s.hubRuns = true → s.domainOn 93 = true →
     let drain := Instr.snapDrain .hub (BitVec.ofNat 64 (4 * b.val + 8 * f.toNat))
     let restore := Instr.snapRestore .hub (BitVec.ofNat 64 (4 * b.val + 16 * f.toNat))
     let release := Instr.snapRelease .hub (BitVec.ofNat 64 (4 * b.val))
     (s.cont.stopped = false → s.train.job = none → (s.extents b).2 = some es →
       ((s.train.snap[b] = .free ∨ s.train.snap[b] = .failed) →
         Does drain s fun u => u.train.snap[b] = .draining ∧ u.fab = s.fab ∧ u.cores = s.cores ∧
           ∃ j, u.train.job = some j ∧ Samples s j b es ∧ j.ship = f ∧ j.restore = false) ∧
       ((s.train.snap[b] = .free ∨ s.train.snap[b] = .restoreFailed) → s.train.evalHold[b] = false →
         Does restore s fun u => u.train.snap[b] = .restoring ∧
           u.cores = s.cores ∧ (∃ j, u.train.job = some j ∧ Samples s j b es ∧ j.emode = f ∧ j.restore = true) ∧
           ((s.qp s.train.ckpt.qn).st = .rts → EnginePosts s u s.train.ckpt 0x12 0 (recordLength es) []))) ∧
     (s.cont.stopped = false → (s.train.snap[b] = .failed ∨ s.train.snap[b] = .restoreFailed ∨ s.train.snap[b] = .awaiting) →
       exec release s =
         .next { s with train := { s.train with snap := s.train.snap.set b.val .free b.isLt,
                                                await := s.train.await.set b.val none b.isLt } }) ∧
     (s.train.job ≠ none → exec drain s = .next s ∧ exec restore s = .next s) ∧
     (s.cont.stopped = true → exec drain s = .next s ∧ exec restore s = .next s ∧ exec release s = .next s)) ∧
  (∀ (b : Fin 2) (step skew : BitVec 32) (key : BitVec 128) (s : State), s.hubRuns = true →
     s.train.snap[b] = .awaiting → (∀ a : Fin 2, a < b → s.train.snap[a] ≠ .awaiting) →
     s.train.await[b] = some (step, key, skew) →
     Does (.snapAccept .hub 1) s fun u => u.train.snap[b] = .free ∧ u.train.step = pairOf step ∧
       u.train.keyLo = pairOf (key.extractLsb' 0 64) ∧ u.train.keyHi = pairOf (key.extractLsb' 64 64) ∧
       u.train.restoreStatus = 10 ∧ u.train.await[b] = none ∧ (∀ n < 3, vget u.cont.crit n true = false) ∧
       u.train.dataPos = s.train.dataPos ∧ u.mem = s.mem)

/-- R298, R300, R303, R357: over a connection that carries nothing else, a drain whose sections are written and acknowledged
posts the header; acknowledged, the valid word; the last acknowledgement ends it done, or goes on with the evaluation
record. Until then the record holds no valid word. R302, R303, R357: a drain that meets poison fails its buffer with status
9 and ends, one whose connection is lost with status 8; a connection that was up is then in error. R308 to R310: a restore
whose record cannot be read ends with status 8, one without a valid word with status 1; neither touches step or key. One
whose record passes every check has its section in the buffer and ends with status 0; it takes the record's step and key,
unless emode is set. The moments at which the engine acts, and its parts of 1 GiB, are the model's choice (log entries 77, 134,
145); a failure names its section only while the sections are written, no index otherwise (log entry 144). -/
def Obligations.DrainEngine : Prop :=
  (∀ (j : DrainJob) (o : PostOp) (s : State),
     let tgt := s.jobTarget j
     let es := if j.evalPhase then j.extents.filter fun e => e.ev else j.extents
     let x := s.qp tgt.qn
     let k : Fin 64 := Fin.ofNat 64 x.subOf
     let item := fun q : RoceReq => requestItem k x.rqpn q
     (DrainIn s j 0 → ((s.settleAll es).poisonedSection es) = none → x.st = .rts → x.ops = [] → x.rnrWait = false →
       x.una = x.spsn → roceSpan x 0x11 (min (2 ^ 30) (recordLength es)) < 2 ^ 23 →
       Does .drainSectionsAcked s fun u => ∃ (r : List Byte) (head : Nat) (rs : List RoceReq),
         fieldNat r 0 4 = 0x31585144 ∧ fieldNat r 248 8 = 0 ∧ head % 4096 = 0 ∧
         Leaves s u x k (rs.map item) ∧ rs.flatMap (fun q => q.payload) = r.drop head ++ r.take head ∧
         (∀ q ∈ rs, q.op = .write ∧ ((∃ i : Nat, q.va = tgt.va + BitVec.ofNat 64 (head + 2 ^ 30 * i)) ∨ q.va = tgt.va)) ∧
         (∃ p, (u.qp tgt.qn).ops = [p] ∧ p.owner = none ∧ p.kept = r.take head ∧ p.desc.raddr = tgt.va) ∧
         u.train.job = some { j with phase := 1, record := r } ∧ u.cores = s.cores) ∧
     (EngineBusy s tgt o →
       (DrainIn s j 1 →
         Does .drainHeaderAcked s fun u => u.train.job = some { j with phase := 2 } ∧ u.train.snap = s.train.snap ∧
           u.cores = s.cores ∧ u.mem = s.mem ∧ (∃ p, (u.qp tgt.qn).ops = [p] ∧ p.owner = none ∧ p.desc.raddr = tgt.va + 248) ∧
           ∃ q : RoceReq, Leaves s u x k [item q] ∧ q.op = .write ∧ q.va = tgt.va + 248 ∧ q.psn = x.spsn ∧
             q.payload = leBytes 4 0x4C415644 ++ leBytes 4 (0xFFFFFFFF - 0x4C415644)) ∧
       (DrainIn s j 2 → (j.ship = false ∨ j.evalPhase = true) →
         Does .drainValidAcked s fun u => u.train.snap[j.buf] = .free ∧ u.train.done[j.buf] = true ∧ u.train.job = none ∧
           (u.qp tgt.qn).ops = [] ∧ (∃ r ∈ u.recd.inFlight, r.sev = 1 ∧ r.code = 0x0B01) ∧ u.mem = s.mem ∧ u.cores = s.cores) ∧
       (DrainIn s j 2 → j.ship = true → j.evalPhase = false →
         Does .drainValidAcked s fun u => u.train.job = some { j with evalPhase := true, phase := 0, record := [] } ∧
           u.train.snap = s.train.snap ∧ (u.qp tgt.qn).ops = [] ∧ u.fab.tx = s.fab.tx ∧ u.mem = s.mem ∧ u.cores = s.cores))) ∧
  (∀ (j : DrainJob) (n : Fin 3) (sec : BitVec 32) (s : State), DrainIn s j n →
     let qn := (s.jobTarget j).qn
     let index : BitVec 32 := if n = 0 then sec else 0xFFFFFFFF
     (∀ p ∈ [(DrainFailure.poisoned, (9 : BitVec 32), sec), (.transport, 8, index)], (p.1 = .transport → (s.qp qn).st ≠ .rts) →
       Does (.drainFail p.1 sec) s fun u => u.train.snap[j.buf] = .failed ∧ u.train.job = none ∧
         Logs s u 4 0x0B02 0x00010000 (BitVec.ofNat 32 j.buf.val) p.2.1 p.2.2 ∧ u.mem = s.mem ∧ u.cores = s.cores) ∧
     ((s.qp qn).st = .rts → (∀ o ∈ (s.qp qn).ops, o.owner = none) →
       Does (.drainFail .transport sec) s fun u => u.train.snap[j.buf] = .failed ∧ u.train.job = none ∧ (u.qp qn).st = .error ∧
         (∃ r ∈ u.recd.inFlight, r.sev = 4 ∧ r.code = 0x0B02 ∧ r.p0 = BitVec.ofNat 32 j.buf.val ∧ r.p1 = 8 ∧ r.p2 = index) ∧
         (∃ r ∈ u.recd.inFlight, r.sev = 3 ∧ r.code = 0x0C08) ∧ u.mem = s.mem ∧ u.cores = s.cores)) ∧
  (∀ (j : DrainJob) (r : List Byte) (s : State), s.train.job = some j → j.restore = true → s.rst.phase = .ready →
     (∀ o ∈ (s.qp s.train.ckpt.qn).ops, o.owner = none) →
     (Does (.restoreReadDone none) s fun u => u.train.snap[j.buf] = .restoreFailed ∧ u.train.restoreStatus = 8 ∧
       u.train.job = none ∧ u.train.step = s.train.step ∧ u.mem = s.mem) ∧
     ((s.qp s.train.ckpt.qn).st = .rts → (j.record.length ≠ recordLength j.extents ∨ j.record = r) → (∀ e ∈ j.extents, s.badExtent e.src e.len = false) →
       (fieldNat r 248 4 ≠ 0x4C415644 →
         Does (.restoreReadDone (some r)) s fun u => u.train.snap[j.buf] = .restoreFailed ∧ u.train.restoreStatus = 1 ∧
           u.train.job = none ∧ u.train.step = s.train.step ∧ u.train.keyLo = s.train.keyLo ∧ u.train.keyHi = s.train.keyHi) ∧
       ∀ e : Extent, j.extents = [e] → restoreFails s.train [e] r (recordSections [e] r) = none →
         (j.emode = true ∨ s.train.skew (BitVec.ofNat 32 (fieldNat r 28 4)) = 0) → Lands s e.src (r.drop 4096 |>.take e.len).length →
         Does (.restoreReadDone (some r)) s fun u => u.train.snap[j.buf] = .free ∧ u.train.restoreStatus = 0 ∧
           u.train.job = none ∧ Wrote s u e.src (r.drop 4096 |>.take e.len) ∧
           (j.emode = true → u.train.step = s.train.step ∧ u.train.keyLo = s.train.keyLo ∧ u.train.keyHi = s.train.keyHi) ∧
           (j.emode = false → u.train.step = pairOf (BitVec.ofNat 32 (fieldNat r 28 4)) ∧
             u.train.keyLo = pairOf (BitVec.ofNat 64 (fieldNat r 32 8)) ∧
             u.train.keyHi = pairOf (BitVec.ofNat 64 (fieldNat r 40 8)) ∧ ∀ n < 3, vget u.cont.crit n true = false)))

/-- R16, R360, R370, R373: core_fence and the watchdog fence a core: each of its items stands again at the head of its queue, in
the order in which the core claimed them, and is counted in dq_requeued; the core holds no line, no item and no mark and
executes no more, and a record says so (what of the core's state goes with it is the model's, log entries 14, 86). No other
core changes; core_fence of a fenced or absent core changes nothing. R370: the watchdog warns once: the notice becomes
pending and a record is sent; before the time it does nothing. R361: 100 µs after a fence, and not before, what the pool
still has outstanding is written off, and issued − returned stays equal to outstanding; where a counter is damaged the pool
fails check 1 instead and its counters stand (R362, R366). R362, R365, R366: a device whose
ledgers, critical entries, fabric table and option words are sound passes the ledger check unchanged; where only the tag
ledger of core c fails its sum, the pool closes, LEDGER_FAULT is recorded and the core is fenced. R368, R369: a link error
is replayed and recorded; a replay that fails counts on, a packet that fails at its first sending starts a new row (the
model's choice, log entry 123); the sixteenth failed replay in a row stops the device: every core of the map is fenced, the
drain engine stops and ALERT_N is driven. -/
def Obligations.FencesAndLedgers : Prop :=
  (∀ (c : CoreId) (s : State),
     let fenced := fun u : State => (u.core c).cond = .fenced ∧ Requeued s u c ∧ (u.core c).cache = Caches.reset ∧
       (u.core c).g = (s.core c).g ∧ (u.core c).pow.mark = false ∧ u.canIssue c = false ∧ OthersKept s u c ∧ u.mem = s.mem
     (s.hubRuns = true → (s.core c).cond ≠ .fenced → (s.core c).cond ≠ .absent →
       Does (.coreFenceWrite .hub (BitVec.ofNat 64 c.val)) s fun u => fenced u ∧
         (∃ r ∈ u.recd.inFlight, r.sev = 6 ∧ r.code = 0x0102 ∧ r.source = BitVec.ofNat 32 c.val ∧ r.p0 = 0) ∧
         (ClaimsSound s c →
           Logs s u 6 0x0102 (BitVec.ofNat 32 c.val) 0 (BitVec.ofNat 32 (s.core c).items.length) 0)) ∧
     (s.hubRuns = true → ((s.core c).cond = .fenced ∨ (s.core c).cond = .absent) →
       exec (.coreFenceWrite .hub (BitVec.ofNat 64 c.val)) s = .next s) ∧
     (s.coreRuns c = true → s.cont.wdFence ≠ 0 → 100 * s.cont.wdFence.toNat ≤ (s.core c).wdTicks →
       Does (.watchdogFence c) s fun u => fenced u ∧
         (∃ r ∈ u.recd.inFlight, r.sev = 6 ∧ r.code = 0x0302 ∧ r.source = BitVec.ofNat 32 c.val) ∧
         (ClaimsSound s c → Logs s u 6 0x0302 (BitVec.ofNat 32 c.val) (BitVec.ofNat 32 ((s.core c).wdTicks / 100))
           ((s.core c).pcc.cursor.setWidth 32) (BitVec.ofNat 32 (s.core c).items.length))) ∧
     ((s.core c).wdTicks < 100 * s.cont.wdFence.toNat → exec (.watchdogFence c) s = .next s)) ∧
  (∀ (c : CoreId) (s : State),
     let x := s.core c
     s.coreRuns c = true → s.cont.wdFence ≠ 0 → x.wdWarned = false →
     (100 * s.cont.wdWarn.toNat ≤ x.wdTicks →
       Does (.watchdogWarn c) s fun u =>
         u.core c = { x with wdWarned := true, notice := { x.notice with watchdog := true } } ∧ OthersKept s u c ∧
         Logs s u 3 0x0301 (BitVec.ofNat 32 c.val) (BitVec.ofNat 32 (x.wdTicks / 100)) (x.pcc.cursor.setWidth 32) 0) ∧
     (x.wdTicks < 100 * s.cont.wdWarn.toNat → exec (.watchdogWarn c) s = .next s)) ∧
  (∀ (pool t : Nat) (s : State),
     let l := s.ledger pool
     (l.fencedAt = none → exec (.fenceWriteoff pool) s = .next s) ∧
     (l.fencedAt = some t → s.time < t + 10000 → exec (.fenceWriteoff pool) s = .next s) ∧
     (l.fencedAt = some t → t + 10000 ≤ s.time → l.whole = false → l.st ≠ .afterFault → (pool < 0x40 ∨ (0x70 ≤ pool ∧ pool < 0x7D)) → Does (.fenceWriteoff pool) s fun u =>
       (u.ledger pool).st = .afterFault ∧ (u.ledger pool).outstanding = l.outstanding ∧ (u.ledger pool).returned = l.returned ∧
       ∃ r ∈ u.recd.inFlight, r.code = 0x0201 ∧ r.p0 = BitVec.ofNat 32 pool ∧ r.p1 = 1) ∧
     (l.fencedAt = some t → t + 10000 ≤ s.time → l.whole = true → l.issued.val - l.returned.val = l.outstanding.val → Does (.fenceWriteoff pool) s fun u =>
       let m := u.ledger pool
       m.outstanding = pairOf 0 ∧ m.writtenOff = pairOf (l.writtenOff.val + l.outstanding.val) ∧ m.fencedAt = none ∧
       m.issued.val - m.returned.val = m.outstanding.val ∧ m.issued = l.issued ∧ m.wroteOff = true ∧ u.cores = s.cores ∧ u.mem = s.mem ∧
       (l.outstanding.val ≠ 0 → Logs s u 4 0x0202 (0x00050000 + BitVec.ofNat 32 pool) (BitVec.ofNat 32 pool)
         (l.outstanding.val.setWidth 32) 0))) ∧
  (∀ (c : CoreId) (s : State), s.rst.phase = .ready → (∀ p ∈ s.criticals, p.2 = true) →
     (∀ e ∈ s.fab.table, (s.fabricEntry e.1).sound = true) → (∀ n ∈ s.rst.words.map (fun e => e.1) ++ s.rst.wordErr.map (fun e => e.1), s.wordDamaged n = false) →
     let sound := fun id : Nat => (s.ledger id).fails ((poolSize id).getD 0) = none
     ((∀ id ∈ poolIds, sound id) → exec .ledgerCheck s = .next s) ∧
     ((∀ id ∈ poolIds, id ≠ c.val → sound id) → (s.ledger c.val).st = .opened →
       (s.ledger c.val).fails 192 = some 2 → (s.core c).fenceable = true → (s.core c).items = [] →
       Does .ledgerCheck s fun u => (u.core c).cond = .fenced ∧ (u.ledger c.val).st = .afterFault ∧ OthersKept s u c ∧
         ∃ r ∈ u.recd.inFlight, r.code = 0x0201 ∧ r.p0 = BitVec.ofNat 32 c.val ∧ r.p1 = 2)) ∧
  (∀ (link : Fin 10) (replay : Bool) (s : State),
     let n := if replay then s.cont.linkReplays[link] + 1 else 0
     (n < 16 → Does (.linkCrcError ⟨link, replay⟩) s fun u =>
       u.cont.linkReplays[link] = n ∧ (∀ j : Fin 10, j ≠ link → u.cont.linkReplays[j] = s.cont.linkReplays[j]) ∧
       Logs s u 2 0x0601 (BitVec.ofNat 32 link.val) (BitVec.ofNat 32 link.val) (BitVec.ofNat 32 (n + 1)) 0 ∧
       u.cores = s.cores ∧ u.mem = s.mem) ∧
     (16 ≤ n → Does (.linkCrcError ⟨link, replay⟩) s fun u =>
       (∀ c : CoreId, (s.core c).cond ≠ .absent → (u.core c).cond = .fenced) ∧ u.cont.stopped = true ∧
       u.balls.alert = true ∧ u.train.job = none ∧ ∃ r ∈ u.recd.inFlight, r.sev = 7 ∧ r.code = 0x0602))

/-- R372, R373: a post goes to the tail of its queue while there is room; a core claims the head of the first queue in its order
that has an item, and gets all ones where none has or it holds 16; it holds an item until it writes the handle to dq_done,
which takes it off the pending count and, as the last, raises the queue's source. -/
def Obligations.DispatchQueues : Prop :=
  ∀ (q : Fin 5) (v : Word) (s : State),
    let x := s.queue q
    (s.hubRuns = true →
      (x.fenced = false → x.items.length < (if q.val = 4 then 65536 else 4096) → v ≠ BitVec.allOnes 64 →
        exec (.dqPost .hub q v) s =
          .next (s.setQueue q { x with items := x.items ++ [v], pendingCount := x.pendingCount + 1 })) ∧
      (x.fenced = true ∨ (if q.val = 4 then 65536 else 4096) ≤ x.items.length → exec (.dqPost .hub q v) s = .next s)) ∧
    ∀ (c : CoreId) (rd : GReg) (kc : KReg) (t : State) (vs : List Word) (before after : List (Fin 5)), Issues s c 8 t → Plain t c →
      let k := t.getK c kc
      let entry := 0x12B00 + 0x3C00 * c.val
      let gives := fun j : Fin 5 => (t.queue j).fenced = false ∧ (t.queue j).items ≠ [] ∧ (t.ledger (0x78 + j.val)).canTake 1 = true
      let die := c.val / 16
      k.usable → k.has permIo = true → k.base ≤ entry + 1 → entry + 3 ≤ k.top → (t.core c).str.fence = [] →
      ((t.core c).items.length < 16 → (t.queue q).items = v :: vs → gives q →
        [die, 4, (die + 1) % 4, (die + 2) % 4, (die + 3) % 4] = (before ++ q :: after).map (fun j => j.val) →
        (∀ j ∈ before, ¬gives j) →
        CompletesIn (.dqClaim c rd kc) s c 8 fun u => u.getG c rd = (if rd = 0 then 0 else v) ∧ (u.queue q).items = vs ∧
          (u.core c).items = (t.core c).items ++ [(q, v)] ∧ (u.core c).ctl.iostat = 0 ∧ OthersKept t u c) ∧
      (16 ≤ (t.core c).items.length ∨ (∀ j, ¬gives j) →
        CompletesIn (.dqClaim c rd kc) s c 8 fun u => u.getG c rd = (if rd = 0 then 0 else BitVec.allOnes 64) ∧
          (∀ j, u.queue j = t.queue j) ∧ (u.core c).items = (t.core c).items ∧ (u.core c).ctl.iostat = 0 ∧ OthersKept t u c) ∧
      ((t.core c).items.find? (fun e => e.2 == t.getG c rd) = some (q, v) → t.domainOn (64 + c.val / 16) = true →
        (t.ledger (0x78 + q.val)).st = .opened → (t.ledger (0x78 + q.val)).outstanding.val ≠ 0 →
        CompletesIn (.dqDone c kc rd) s c 8 fun u => (u.core c).items = (t.core c).items.erase (q, v) ∧
          (u.queue q).pendingCount = (t.queue q).pendingCount - 1 ∧ (u.queue q).items = (t.queue q).items ∧
          (u.core c).ctl.iostat = 0 ∧ OthersKept t u c ∧
          ((t.queue q).pendingCount = 1 → (t.queue q).irq.toNat < 0xFFF → u.int.inFlight = t.int.inFlight ++
            [⟨17 + q.val, BitVec.ofNat 19 ((t.srcTarget (t.queue q).irq.toNat).toNat * 4096 + (t.queue q).irq.toNat)⟩]))

/-- R371, R375: the next record on its way is accepted into the queue with this tick's local time, one a tick; at or above
notice_sev every core of notice_mask that runs gets ERROR_NOTICE. With the queue full it is dropped and counted. R374, R376:
a record goes to the slot found for its severity, with the valid mark and its check half-word; one that repeats the newest
counts there; where every slot holds a higher severity it is dropped. R377, R379: rec_sel copies the selected slot to its
window; rec_size empties the ring, and a record says so. -/
def Obligations.RecorderKeepsRecords : Prop :=
  (∀ (r : Rec) (rs : List Rec) (s : State), s.recd.inFlight = r :: rs → s.rst.phase ≠ .porHeld →
     (∀ l, s.recd.lastAccept = some l → s.time ≤ l → exec .recordAccept s = .next s) ∧
     ((∀ l, s.recd.lastAccept = some l → l < s.time) →
       (s.recd.queue.length < 64 → (s.ledger 0x70).canTake 1 = true →
         Does .recordAccept s fun u => u.recd.queue = s.recd.queue ++ [(r, s.time)] ∧ u.recd.inFlight = rs ∧
           u.recd.lastAccept = some s.time ∧ u.recd.ring = s.recd.ring ∧ u.mem = s.mem ∧ u.time = s.time ∧
           (u.ledger 0x70).outstanding.val = (s.ledger 0x70).outstanding.val + 1 ∧
           ∀ c : CoreId, (s.recd.noticeSev ≤ r.sev → s.recd.noticeMask.getLsbD c.val = true → s.coreRuns c = true →
             (u.core c).notice.error = true) ∧ (u.core c).g = (s.core c).g ∧ (u.core c).pcc = (s.core c).pcc) ∧
       (64 ≤ s.recd.queue.length ∨ (s.ledger 0x70).canTake 1 = false →
         Does .recordAccept s fun u => u = { s with recd := { s.recd with inFlight := rs, drop := s.recd.drop + 1 } }))) ∧
  (∀ (r : Rec) (t : Nat) (q : List (Rec × Nat)) (s : State), s.recd.queue = (r, t) :: q →
     (s.ledger 0x70).st = .opened → (s.ledger 0x70).outstanding.val ≠ 0 →
     let x := s.recd
     (x.coalesces r = false → ∀ i, x.findSlot r.sev = some i →
       Does .recordWrite s fun u => u.recd.queue = q ∧ u.recd.newest = BitVec.ofNat 32 i ∧ u.recd.written = x.written + 1 ∧
         u.recd.next = (i + 1) % x.slots ∧ u.recd.drop = x.drop ∧ u.cores = s.cores ∧ u.mem = s.mem ∧
         let w := u.recd.slot i
         w.valid = true ∧ RecSlot.word w 1 = r.source ∧ RecSlot.sev w = r.sev.toNat ∧ RecSlot.word w 4 = r.p0 ∧
           (RecSlot.word w 0).toNat / 65536 = r.code.toNat ∧ (t < 2 ^ 64 → RecSlot.time w = t)) ∧
     (x.coalesces r = false → x.findSlot r.sev = none →
       Does .recordWrite s fun u => u.recd.queue = q ∧ u.recd.drop = x.drop + 1 ∧ u.recd.ring = x.ring) ∧
     (x.coalesces r = true →
       Does .recordWrite s fun u => u.recd.queue = q ∧ u.recd.written = x.written ∧ u.recd.newest = x.newest ∧
         RecSlot.repeats (u.recd.slot x.newest.toNat) = RecSlot.repeats (x.slot x.newest.toNat) + 1)) ∧
  (∀ (v : BitVec 8) (n : Nat) (c : CoreId) (s : State), s.hubRuns = true → s.recd.size.toNat ≤ 20 → n < 2 ^ 32 →
     (n < s.recd.slots → exec (.recSelWrite .hub none (BitVec.ofNat 64 n)) s =
       .next { s with recd := { s.recd with sel := BitVec.ofNat 32 n, snap := s.recd.slot n } }) ∧
     (n < s.recd.slots → (s.core c).cond ≠ .absent →
       exec (.recSelWrite .hub (some c) (BitVec.ofNat 64 n)) s = .next (s.setCore c { s.core c with
         win := { (s.core c).win with recSel := BitVec.ofNat 32 n, recSnap := s.recd.slot n } })) ∧
     (s.recd.slots ≤ n → exec (.recSelWrite .hub none (BitVec.ofNat 64 n)) s = .next s ∧
       (s.dictOut hubAccess ⟨0xA001, 1, 0⟩ (BitVec.ofNat 64 n)).1 = .range) ∧
     (12 ≤ v.toNat → v.toNat ≤ 20 → s.domainOn 95 = true → (s.ledger 0x70).whole = true → (s.ledger 0x70).wroteOff = false →
       s.recd.queue.length ≤ (s.ledger 0x70).outstanding.val.toNat →
       Does (.recSizeWrite .hub (v.setWidth 64)) s fun u => u.recd.ring = [] ∧ u.recd.queue = [] ∧ u.recd.size = v ∧
         u.recd.newest = 0xFFFFFFFF ∧ u.recd.written = s.recd.written ∧ Logs s u 1 0x0D01 0x00010004 (v.setWidth 32) 0 0 ∧
         u.cores = s.cores))

/-- R380 to R382, R481: the black box. A half is erased while the other keeps the saved box; it is armed when the erase ends;
power failure holds f_cap at 400 MHz and, armed, starts 65 pages of the newest records, newest first; the pages are
programmed in order, the header first, with its magic number, sequence number, counts and CRC, and 0xFF to its end. -/
def Obligations.BlackBoxEvents : Prop :=
  ∀ s : State,
    let b := s.box
    let other : Fin 2 := if b.saved = 0 then 1 else 0
    (s.rst.phase = .ready → s.rowan.lock.getLsbD 0 = true → b.addr ≠ 0xFFFFFFFF → b.erasing = false → b.readied = false →
      b.programming = false → s.rst.commit = none →
      Does .bbEraseStart s fun u => u.box.erasing = true ∧ u.box.readied = true ∧ u.box.saved = b.newer ∧
        u.box.halves[u.box.saved] = b.halves[b.newer] ∧ u.box.halves[otherHalf u.box.saved] = ⟨[], []⟩ ∧
        u.box.present = (b.halves[b.newer]).head.isSome ∧ u.cores = s.cores ∧ u.mem = s.mem) ∧
    (b.erasing = true →
      Does .bbEraseDone s fun u => u.box.erasing = false ∧ u.box.armed = b.readied ∧ u.box.regions = b.regions ∧ u.recd = s.recd) ∧
    (s.rst.phase ≠ .porHeld → s.balls.pwrFail = false →
      Does .pwrFailAssert s fun u => u.balls.pwrFail = true ∧ u.pow.failHold = true ∧ u.pow.fCap = 400 ∧ u.box.armed = false ∧
        u.rst.commit = none ∧ (b.armed = true → u.box.programming = true ∧ u.box.pagesLeft = 65 ∧
          u.box.snapshot = u.recd.newestFirst.take 512 ∧ u.box.regions = b.regions)) ∧
    (b.programming = true → b.pagesLeft = 65 → b.snapTime < 2 ^ 64 → b.snapshot.length ≤ 512 →
      Does .bbPageProgrammed s fun u => u.box.pagesLeft = 64 ∧ u.box.programming = true ∧
        u.box.halves[b.saved] = b.halves[b.saved] ∧ (u.box.halves[other]).records = (b.halves[other]).records ∧
        let p := (u.box.halves[other]).header
        p.length = 256 ∧ fieldNat p 0 4 = 0x584F4242 ∧ fieldNat p 4 4 = ((b.halves[b.saved]).seq + 1).toNat ∧
        fieldNat p 8 8 = b.snapTime ∧ fieldNat p 16 2 = b.snapshot.length ∧ fieldNat p 18 2 = s.fab.devId.val.toNat ∧
        fieldNat p 20 4 = (crc32c (p.take 20)).toNat ∧ ∀ i, 24 ≤ i → i < 256 → p[i]? = some 0xFF) ∧
    ∀ n, 1 ≤ n → n < 65 → b.programming = true → b.pagesLeft = n →
      Does .bbPageProgrammed s fun u => u.box.pagesLeft = n - 1 ∧ (u.box.programming = true ↔ n ≠ 1) ∧
        (u.box.halves[other]).records = (b.halves[other]).records ++ (b.snapshot.drop (8 * (64 - n))).take 8 ∧
        (u.box.halves[other]).header = (b.halves[other]).header ∧ u.box.halves[b.saved] = b.halves[b.saved]

/-- R15, R19, R384, R387 to R389, R391, R392: a message makes its source pending at its target, or is dropped and counted where
the target takes none, and never passes an earlier one of its unit to that target (the order between units is the command's
choice, log entry 139); one to a core takes a credit of its die's network as it passes (log entry 56); one that arrives while
a reset is in progress is discarded and not counted. int_set and int_clr set and clear the pending bit at once; a claim by hub
firmware moves the source it gets from pending to in service, and a completion ends its service, at the hub's block (the
model's reading, log entry 103). R385, R391: a core's claim returns the deliverable source of highest priority, the lowest
number among equals, and moves it from pending to in service; with none deliverable it returns 0xFFF. -/
def Obligations.InterruptsAreDelivered : Prop :=
  (∀ (t : Fin 65) (n : Fin 4095) (s : State),
     let v := t.val * 4096 + n.val
     let msg := BitVec.ofNat 19 v
     let b := s.targetBlock t.val
     let set := s.setTarget t.val { b with pending := flagSet b.pending n.val true }
     (∀ (m : DoorMsg) (pre post : List DoorMsg), s.int.inFlight = pre ++ m :: post → m.msg = msg →
       let gone : State := { s with int := { s.int with inFlight := pre ++ post } }
       let passed := if t.val < 64 then gone.passPool (0x50 + t.val / 16) 1 else gone
       ((∀ y ∈ pre, y.msg ≠ msg ∧ (y.unit = m.unit → y.target ≠ m.target)) →
         (s.rst.phase = .ready → s.takesMessages t.val = true → exec (.doorbellMessage msg) s =
           .next (passed.setTarget t.val { b with pending := flagSet b.pending n.val true })) ∧
         (s.rst.phase = .ready → s.takesMessages t.val = false → exec (.doorbellMessage msg) s =
           .next { passed with int := { passed.int with drop := s.int.drop + 1 } }) ∧
         ((s.rst.phase = .porHeld ∨ s.rst.phase = .quiescing ∨ s.rst.phase = .sysHeld) →
           exec (.doorbellMessage msg) s = .next passed)) ∧
       ((∃ y ∈ pre, y.unit = m.unit ∧ y.target = m.target) → m ∉ pre → (∀ y ∈ pre ++ post, y.msg = msg → y = m) →
         exec (.doorbellMessage msg) s = .next s)) ∧
     (s.hubRuns = true → s.takesMessages t.val = true → exec (.intSet .hub (BitVec.ofNat 64 v)) s = .next set) ∧
     (s.hubRuns = true → exec (.intClr .hub (BitVec.ofNat 64 v)) s =
       .next (s.setTarget t.val { b with pending := flagSet b.pending n.val false })) ∧
     (s.hubRuns = true → t.val = 64 → s.bestSource 64 = some n.val →
       exec (.claim .hub 0) s = .next (s.setTarget 64 { b with
         pending := flagSet b.pending n.val false, inService := flagSet b.inService n.val true })) ∧
     (s.hubRuns = true → t.val = 64 → flagGet b.inService n.val = true →
       exec (.complete .hub (BitVec.ofNat 64 n.val)) s =
         .next (s.setTarget 64 { b with inService := flagSet b.inService n.val false }))) ∧
  (∀ (c : CoreId) (rd : GReg) (kc : KReg) (n : Nat) (s t : State), Issues s c 8 t → Plain t c →
     let k := t.getK c kc
     let entry := 0x12C00 + 0x3C00 * c.val
     let b := t.targetBlock c.val
     rd ≠ 0 → k.usable → k.has permIo = true → k.base ≤ entry + 1 → entry + 2 ≤ k.top → (t.core c).str.fence = [] →
     sparseWf (fun _ => false) b.pending = true →
     (n < 0xFFF → t.deliverable c.val n = true →
       (∀ m, m ≠ n → t.deliverable c.val m = true →
         t.srcPrio m < t.srcPrio n ∨ (t.srcPrio m = t.srcPrio n ∧ n < m)) →
       CompletesIn (.claim (.core c kc) rd) s c 8 fun u => (u.getG c rd).toNat = n ∧
         flagGet (u.targetBlock c.val).pending n = false ∧ flagGet (u.targetBlock c.val).inService n = true ∧
         (∀ m, m ≠ n → flagGet (u.targetBlock c.val).pending m = flagGet b.pending m) ∧ OthersKept t u c) ∧
     ((∀ m, t.deliverable c.val m = false) →
       CompletesIn (.claim (.core c kc) rd) s c 8 fun u => u.getG c rd = 0xFFF ∧ u.int = t.int))

/-- R394, R396: a power-on reset clears memory, training state and every core's registers; Rowan's fuses stand, and the flash
where no commit was cut; R407, R422: the identity key is derived anew from its seed, except in DECOMMISSIONED. No core runs,
and the queue of commands is as it was. R395, R400: one while another is in progress merges with it; one during option loading
or its hold counts as a restart of the phase. R10, R11, R399: the release of a reset starts option loading. A core that was
fenced for a fault of its own is replaced by its die's spare where that is free and passed its self-test; otherwise its
number is absent and its domain locked. R394, R398, R403: each way to request a system reset of a running device counts it,
records it with its cause and starts quiescing; a release with RST_SYS_N low holds the device. R395, R396, R400: one accepted
during option loading or its hold counts, restarts the phase and leaves what column SYS says (the model's reading, log entry
91). R396, R398: the end of quiescing is the system reset: memory and every core's registers are cleared, Rowan starts again
with its fuses as they are, fences are lifted, the recorder's ring stands; R258, R454: ilv_next is what it was at acceptance.
R403, R475: a filtered pulse on a reset input is counted, stopping at 255, and recorded with the ball and its width where it
is a low pulse on RST_POR_N or RST_SYS_N (one on RST_SYS_N while that ball is low is a high pulse: the model's reading, log
entry 140). What the spec leaves without a reset value is zero, and which faults outlast a power-on reset is a reading (log
entries 1, 3, 37). -/
def Obligations.ResetsAndGlitches : Prop :=
  (∀ (supply : Bool) (s : State),
     (s.rst.phase = .porHeld → exec (.powerOnReset supply) s = .next s) ∧
     (s.rst.phase ≠ .porHeld → Does (.powerOnReset supply) s fun u => u.rst.phase = .porHeld ∧ u.rst.last = (if supply then 2 else 1) ∧
       u.mem = Mem.reset ∧ u.time = 0 ∧ u.train = Training.reset ∧ u.rowan.keys = s.rowan.keys ∧
       u.rowan.revoked = s.rowan.revoked ∧ u.rowan.lcBits = s.rowan.lcBits ∧ u.rowan.seed = s.rowan.seed ∧
       u.rowan.idKey = (if s.rowan.lcBits.getLsbD 1 then none else some (Config.deriveKey s.rowan.seed)) ∧
       (s.rowan.fuse = none → u.rowan.svn = s.rowan.svn) ∧ (s.rst.commit = none → u.rst.flash = s.rst.flash) ∧
       ((s.rst.phase = .loading ∨ s.rst.phase = .optHold) →
         u.rst.optRestarts = if s.rst.optRestarts = 255 then 255 else s.rst.optRestarts + 1) ∧
       u.pending = s.pending ∧ ∀ c : CoreId, (u.core c).g = Vector.replicate 32 0 ∧ u.coreRuns c = false)) ∧
  (∀ (fail : BitVec 4) (s : State), (s.rst.phase = .porHeld ∨ s.rst.phase = .sysHeld) →
     Does (.resetRelease false fail) s fun u => u.rst.phase = .loading ∧ u.rowan.revokedBoot = s.rowan.revoked ∧
       u.mem = s.mem ∧ ∀ c : CoreId,
         let x := s.core c
         let d := c.val / 16
         (x.ownFault = false → u.core c = x) ∧
         (x.ownFault = true → x.cond ≠ .absent → (∀ a : CoreId, a < c → a.val / 16 = d → (s.core a).ownFault = false) →
           (vget s.spares d none = none → fail.getLsbD d = false →
             u.core c = { x with phys := 16, ownFault := false } ∧ vget u.spares d none = some c) ∧
           ((vget s.spares d none ≠ none ∨ fail.getLsbD d = true) →
             u.core c = { x with cond := .absent } ∧ u.domain c.val = ⟨.off, false, true, 0, 0⟩))) ∧
  (∀ s : State, (s.rst.phase = .porHeld → Does (.resetRelease true 0) s fun u => u.rst.phase = .sysHeld ∧ u.rst.last = 3) ∧
     (s.rst.phase = .ready → s.rst.commit = none →
       let asked := fun (cause : BitVec 4) (u : State) => u.rst.phase = .quiescing ∧ u.rst.last = cause ∧
         u.rst.sysCount = (if s.rst.sysCount = 255 then 255 else s.rst.sysCount + 1) ∧ u.rst.optRestarts = 0 ∧
         u.mem = s.mem ∧ u.cores = s.cores ∧
         ∃ r ∈ u.recd.inFlight, r.code = 0x0802 ∧ r.p0 = BitVec.ofNat 32 cause.toNat
       (Does .rstSysNAssert s fun u => asked 3 u ∧ u.rst.rstSysLow = true) ∧
       (s.hubRuns = true → Does (.sysRstWrite .hub 1) s (asked 4)) ∧
       Does .sysreset s (asked 5)) ∧
     ((s.rst.phase = .loading ∨ s.rst.phase = .optHold) →
       let again := fun (cause : BitVec 4) (u : State) => u.rst.phase = .sysHeld ∧ u.rst.last = cause ∧
         u.rst.sysCount = (if s.rst.sysCount = 255 then 255 else s.rst.sysCount + 1) ∧
         u.rst.optRestarts = (if s.rst.optRestarts = 255 then 255 else s.rst.optRestarts + 1) ∧
         u.rst.commit = none ∧ u.rst.staged = none ∧ u.mem = Mem.reset ∧ u.int = Interrupts.reset ∧
         u.rowan.meas = Vector.replicate 8 0 ∧ u.cont.ledgers = [] ∧ u.pow.fCap = Power.reset.fCap ∧
         u.scfg.ilvNext = s.scfg.ilvNext ∧
         ∀ c : CoreId, (u.core c).cond = if (s.core c).cond = .absent then .absent else .held
       (Does .rstSysNAssert s fun u => again 3 u ∧ u.rst.rstSysLow = true) ∧ Does .sysreset s (again 5)) ∧
     ((s.rst.phase = .porHeld ∨ s.rst.phase = .sysHeld ∨ s.rst.phase = .quiescing) →
       exec .sysreset s = .next { s with jtag := { s.jtag with ir := 0x10, testLogicReset := false, extest := false } })) ∧
  (∀ s : State, s.rst.phase = .quiescing → s.recd.inFlight = [] → s.recd.queue = [] →
     (∀ i : Fin 4, s.mgmt.vlan[i] = none) → s.rowan.fuse = none →
     Does .systemResetQuiesced s fun u => u.rst.phase = .sysHeld ∧ u.mem = Mem.reset ∧ u.recd.ring = s.recd.ring ∧
       u.rowan.stage = 0 ∧ u.rowan.lock = 0 ∧ u.rowan.meas = Vector.replicate 8 0 ∧ u.rowan.svn = s.rowan.svn ∧
       u.rowan.keys = s.rowan.keys ∧ u.rst.flash = s.rst.flash ∧ u.mgmt.port = s.mgmt.port ∧ u.time = s.time ∧
       u.scfg.ilvNext = s.rst.ilvTaken ∧ u.rowan.idKey = s.rowan.idKey ∧ u.jtag = s.jtag ∧
       (∀ st : StackId, (u.stack st).st = .training ∧ (u.stack st).spareMap = (s.stack st).spareMap) ∧
       ∀ c : CoreId, (u.core c).g = Vector.replicate 32 0 ∧ (u.core c).ownFault = (s.core c).ownFault ∧
         (u.core c).cond = if (s.core c).cond = .absent then .absent else .held) ∧
  (∀ (ball : ResetInput) (width : BitVec 32) (s : State),
     let low : Option Nat := match ball with
       | .porN => some 0
       | .sysN => if s.rst.rstSysLow then none else some 1
       | _ => none
     Does (.resetGlitch ball width) s fun u =>
       u.rst = { s.rst with glitches := if s.rst.glitches = 255 then 255 else s.rst.glitches + 1 } ∧
       (∀ n, low = some n → s.rst.phase ≠ .porHeld → Logs s u 2 0x0805 0 (BitVec.ofNat 32 n) width 0) ∧
       (low = none → u.recd = s.recd) ∧ u.cores = s.cores ∧ u.mem = s.mem)

/-- R241, R373, R395, R397: core_rst stops one running core: its target block is cleared, its threshold with it; each of its items
stands again at the head of its queue, in the order in which it claimed them, counted in dq_requeued; its streams are
cancelled; and it waits for the end of its reset (the record at the start is the model's, log entry 90). A core in reset
merges the request; one that is held or fenced, or whose domain is not ON, refuses it. At the end it runs from boot_addr with
its registers at their reset values (zero where the spec gives none, log entry 1). R399, R400, R401, R454, R484: option loading
takes every word from the flash pair, the fuse pair or the ROM's default, and goes on to training, or holds where opt_hold is
set until a session writes opt_go; it waits for REFCLK and for the flash. -/
def Obligations.CoreResetAndOptions : Prop :=
  (∀ (c : CoreId) (s : State),
     (s.hubRuns = true → (s.core c).cond = .resetting → exec (.coreRstWrite .hub c 1) s = .next s) ∧
     (s.hubRuns = true → ((s.core c).cond = .held ∨ (s.core c).cond = .fenced ∨ (s.domain c.val).phase ≠ .on) →
       exec (.coreRstWrite .hub c 1) s = .next s) ∧
     (s.coreOn c = true → s.hubRuns = true → (s.core c).cond = .running →
       Does (.coreRstWrite .hub c 1) s fun u => (u.core c).cond = .resetting ∧ Requeued s u c ∧ StreamsCancelled s u c ∧
         (u.targetBlock c.val).pending = [] ∧ (u.targetBlock c.val).inService = [] ∧ (u.targetBlock c.val).thresh = 0 ∧
         (u.core c).g = (s.core c).g ∧ (u.core c).pow.mark = false ∧ OthersKept s u c ∧
         u.canIssue c = false ∧ ∃ r ∈ u.recd.inFlight, r.code = 0x0803 ∧ r.p0 = BitVec.ofNat 32 c.val) ∧
     (s.coreOn c = true → s.rst.phase = .ready → (s.core c).cond = .resetting →
       (∀ e : Fin 6, let y := (s.core c).str.eng[e]
         y.st = .idle ∧ y.queue = [] ∧ y.recs = [] ∧ y.reqs = [] ∧ y.partData = [] ∧ y.partScale = []) →
       (s.ledger c.val).whole = true →
       Does (.coreResetDone c) s fun u => (u.core c).cond = .running ∧ (u.core c).g = Vector.replicate 32 0 ∧
         (u.core c).pcc = capRoot (s.core c).win.bootAddr ∧ (u.core c).k[(0 : KReg)] = capRoot 0 ∧
         (u.core c).ctl = Control.reset ∧ (u.core c).shadow = Shadow.reset ∧ (u.core c).cache = Caches.reset ∧
         (u.core c).tile.qc = (s.core c).tile.qc ∧ u.int = s.int ∧ OthersKept s u c)) ∧
  (∀ s : State,
     (s.rst.phase = .loading → (s.rst.refclk = false ∨ s.box.programming = true) → exec .optionLoadDone s = .next s) ∧
     (s.rst.phase = .loading → s.rst.refclk = true → s.box.programming = false →
       Does .optionLoadDone s fun u =>
         u.rst.phase = (if s.rst.optHold then .optHold else .training) ∧ u.rst.ilvOwed = false ∧ u.balls.mgmtTx = true ∧
         u.balls.bootCsHigh = true ∧ u.mem = s.mem ∧
         ∀ n < 512, (sparseGet fusePair u.rst.words n).val =
           (let f := s.fuseWord n
            let k := s.flashWord n
            if f.inv ≠ ~~~f.val then romWord n
            else if n < 128 ∨ k = ⟨0xFFFFFFFF, 0xFFFFFFFF⟩ ∨ k.inv ≠ ~~~k.val then f.val
            else k.val)) ∧
     ∀ (vlan : Bool) (i : Fin 4) (x : Session), s.rst.phase = .optHold → s.sessionAt vlan i = some x →
       (s.sessionPerms x).getLsbD permSyscfg = true →
       Does (.optGoWrite (.session vlan i) 1) s fun u => u.rst.phase = .training ∧ u.rst.staged = none ∧
         u.box.addr = s.rst.staged.getD s.box.addr ∧ u.balls.alert = true ∧ u.cores = s.cores)

/-- R411, R414, R421: the boot chain. A stage whose slot A image passes is placed where it runs (core firmware where no stack is
fenced), measured, and its version number held; the stage number advances. R407, R412, R417: in SECURED a stage 1 whose key
no valid slot names is rejected in both slots: the chain stops at stage 7, ALERT_N is driven and memory is unchanged. R413: where
the digests of both bodies are wrong, zeros stand over the place they were copied to. A RECOVER image that passes starts the chain again. R416, R421: hub firmware releases the cores: every held core runs from the
entry of core firmware, or its domain powers up for it; boot_addr of every core that is not absent is that entry; the descriptor queues hold zeros and M4 and M5 are locked. What a rejection leaves in
memory beside R413's zeros is the model's reading (log entry 99). -/
def Obligations.BootChain : Prop :=
  (∀ (a b : FlashImage) (config : BitVec 512) (s : State),
     let m := fun (old x : BitVec 512) => Config.sha512 (leBytes 64 old.toNat ++ leBytes 64 x.toNat)
     let digest := BitVec.ofNat 512 (fieldNat a.header 32 64)
     let header := Config.sha512 (sliceBytes a.header 0 512)
     let len := fieldNat a.header 12 4
     let svn := fieldNat a.header 8 4
     (s.bootable = true → s.rowan.stage = 0 → s.verifyImage stage1Image a = none →
       Does (.romBoot a b) s fun u => u.rowan.stage = 1 ∧ u.rowan.runSvn[(0 : Fin 3)] = svn ∧
         u.rowan.meas[(0 : Fin 8)] = m (m s.rowan.meas[(0 : Fin 8)] digest) header ∧
         (∀ j < len, cellGet u.mem.data (0x018004000000 + j) = a.body.getD j 0) ∧ u.mem.istore = s.mem.istore ∧
         u.cores = s.cores) ∧
     (s.rst.phase = .ready → s.rowan.stage = 1 → s.verifyImage hubImage a = none →
       Does (.stage1Boot a b) s fun u => u.rowan.stage = 2 ∧ u.rowan.runSvn[(1 : Fin 3)] = svn ∧
         u.rowan.meas[(2 : Fin 8)] = m (m s.rowan.meas[(2 : Fin 8)] digest) header ∧ u.rowan.lock = s.rowan.lock ||| 0x0F ∧
         u.mem.istore = s.mem.istore ∧ ∀ c : CoreId, u.core c = { s.core c with cache := (u.core c).cache }) ∧
     (s.rst.phase = .ready → s.rowan.stage = 2 → s.rowan.coreReady = false → s.verifyImage coreImage a = none →
       (∀ st : StackId, (s.stack st).st ≠ .fenced) → Does (.hubFwBoot a b config) s fun u => u.rowan.coreReady = true ∧ u.rowan.runSvn[(2 : Fin 3)] = svn ∧
         u.rowan.meas[(4 : Fin 8)] = m (m s.rowan.meas[(4 : Fin 8)] digest) header ∧
         u.rowan.meas[(5 : Fin 8)] = m s.rowan.meas[(5 : Fin 8)] config ∧
         (∀ j < len, cellGet u.mem.istore (fieldNat a.header 16 8 + j) = a.body.getD j 0) ∧ u.mem.data = s.mem.data ∧
         u.rowan.coreEntry = BitVec.ofNat 64 (fieldNat a.header 16 8 + fieldNat a.header 24 8))) ∧
  (∀ (a b img : FlashImage) (s : State), s.bootable = true →
     (s.rowan.stage = 0 → s.rowan.lcBits = 1 → s.rowan.keySlot a.header = none → s.rowan.keySlot b.header = none →
       Does (.romBoot a b) s fun u => u.rowan.stage = 7 ∧ u.balls.alert = true ∧ u.rowan.lastReject = 0 ∧ u.mem = s.mem ∧
         u.rowan.meas = s.rowan.meas) ∧
     (s.rowan.stage = 0 → s.verifyImage stage1Image a = some 5 → s.verifyImage stage1Image b = some 5 →
       Does (.romBoot a b) s fun u => u.rowan.stage = 7 ∧ u.balls.alert = true ∧ u.rowan.lastReason = 5 ∧
         (∀ j, (j < fieldNat a.header 12 4 ∨ j < fieldNat b.header 12 4) → cellGet u.mem.data (0x018004000000 + j) = 0) ∧
         u.mem.istore = s.mem.istore ∧ u.rowan.meas = s.rowan.meas) ∧
     (s.rowan.stage = 7 → s.rowan.lastReject = 0 → s.verifyImage stage1Image img = none →
       Does (.recover img) s fun u => u.rowan.stage = 1 ∧ u.jtag.ir = 0x11 ∧
         ∀ j < fieldNat img.header 12 4, cellGet u.mem.data (0x018004000000 + j) = img.body.getD j 0)) ∧
  (∀ s : State, s.rst.phase = .ready → s.rowan.coreReady = true → s.rowan.stage = 2 →
     Does .coreRelease s fun u => u.rowan.stage = 3 ∧ u.rowan.lock = s.rowan.lock ||| 0x30 ∧ u.balls.alert = false ∧
       (∀ a, 0x018004000000 ≤ a → a < 0x018004100000 → cellGet u.mem.data a = 0) ∧
       (∀ a, (a < 0x018004000000 ∨ 0x018004100000 ≤ a) → cellGet u.mem.data a = cellGet s.mem.data a) ∧
       ∀ c : CoreId, ((s.core c).cond ≠ .absent → (u.core c).win.bootAddr = s.rowan.coreEntry) ∧
         ((s.core c).cond = .held → (u.core c).cond = .running ∧
           (s.coreOn c = true → (u.core c).pcc = capRoot s.rowan.coreEntry)))

/-- R407, R409: KEYPROG programs a blank slot only, LCADV advances the lifecycle by one and to SECURED only with a valid slot:
with every slot blank or revoked it has no effect but on the instruction register; so have both in DECOMMISSIONED, under the
debug lock, or with PD95 off (log entry 113). R404, R405, R485, R486: the standard instructions of the TAP, and
Test-Logic-Reset; under EXTEST the board sees the boundary register's cells, SAMPLE takes what stands on the balls (the order
of the cells is the model's, log entry 112). A private debug instruction is loaded into the instruction register. R419, R420:
svn_commit starts a fuse program of the counter up to the lowest running version, whose end leaves the goal; key_revoke sets
the bit of a slot that the boot did not use, while another slot is valid. R421, R424, R425: software extends M6 and M7 only,
with its window's data; a quote is queued with the window's nonce, and its end puts the quote and its signature into the
window. When records come and what a mask of 0 does is the model's (log entry 98). -/
def Obligations.FusesAndAttestation : Prop :=
  (∀ (slot : Fin 4) (hash : BitVec 512) (s : State),
     let at_ := fun (op : BitVec 8) => { s.jtag with ir := op, testLogicReset := false, extest := false }
     let locked := s.rowan.lcBits = 1 ∧ (s.optionWord 127).getLsbD 0 = true
     let on := s.domainOn 95 = true
     let dead := s.rowan.lcBits.getLsbD 1 = true
     (on → ¬locked → ¬dead → s.rowan.keys[slot] = 0 →
       exec (.keyprog slot hash) s = .next { s with
         jtag := at_ 0x12, rowan := { s.rowan with keys := s.rowan.keys.set slot.val hash slot.isLt } }) ∧
     ((¬on ∨ locked ∨ dead ∨ s.rowan.keys[slot] ≠ 0) → exec (.keyprog slot hash) s = .next { s with jtag := at_ 0x12 }) ∧
     (on → s.rowan.lcBits = 0 → s.rowan.keys[slot] ≠ 0 → s.rowan.revoked.getLsbD slot.val = false →
       exec .lcadv s = .next { s with jtag := at_ 0x13, rowan := { s.rowan with lcBits := 1 } }) ∧
     (s.rowan.lcBits = 0 → (∀ k : Fin 4, s.rowan.keys[k] = 0 ∨ s.rowan.revoked.getLsbD k.val = true) →
       exec .lcadv s = .next { s with jtag := at_ 0x13 }) ∧
     (on → s.rowan.lcBits = 1 → ¬locked → exec .lcadv s = .next { s with jtag := at_ 0x13, rowan := { s.rowan with lcBits := 3 } }) ∧
     ((¬on ∨ locked ∨ dead) → exec .lcadv s = .next { s with jtag := at_ 0x13 })) ∧
  (∀ (x : BitVec 21) (p : Option (BitVec 21)) (op : BitVec 8) (s : State),
     let j := s.jtag
     exec .extest s = .next { s with jtag := { j with ir := 0x00, testLogicReset := false, extest := true } } ∧
     (Does .extest s fun u => u.balls = s.balls ∧ u.pads = { s.balls with
       alert := !j.boundary.getLsbD 3, thermtrip := !j.boundary.getLsbD 4, bootSck := j.boundary.getLsbD 12
       bootCsHigh := j.boundary.getLsbD 13, bootIoDriven := true }) ∧
     (Does (.samplePreload x p) s fun u => u = { s with jtag := { j with
         ir := 0x01, testLogicReset := false, extest := false, sampled := u.jtag.sampled, boundary := p.getD j.boundary } } ∧
       (∀ n < 21, n ≠ 3 → n ≠ 4 → n ≠ 12 → n ≠ 13 → u.jtag.sampled.getLsbD n = x.getLsbD n) ∧
       u.jtag.sampled.getLsbD 12 = s.pads.bootSck ∧ u.jtag.sampled.getLsbD 13 = s.pads.bootCsHigh ∧
       (s.pads.alert = true → u.jtag.sampled.getLsbD 3 = false) ∧ (s.pads.thermtrip = true → u.jtag.sampled.getLsbD 4 = false)) ∧
     exec .idcode s = .next { s with jtag := { j with ir := 0x02, testLogicReset := false, extest := false } } ∧
     exec .bypass s = .next { s with jtag := { j with ir := 0xFF, testLogicReset := false, extest := false } } ∧
     exec .testLogicReset s = .next { s with jtag := { j with ir := 0x02, testLogicReset := true, extest := false } } ∧
     exec (.jtagDebug op) s = .next { s with jtag := { j with ir := op, testLogicReset := false, extest := decide (op = 0) } }) ∧
  (∀ (n : BitVec 8) (k j : Fin 4) (p : FuseProgram) (s : State),
     (s.hubRuns = true → s.rowan.fuse = none → s.rowan.svn < n.toNat → n.toNat ≤ s.rowan.lowestSvn → n.toNat ≤ 128 →
       exec (.svnCommit .hub (n.setWidth 64)) s =
         .next { s with rowan := { s.rowan with fuse := some ⟨s.rowan.svn, n.toNat⟩ } }) ∧
     (s.hubRuns = true → (n.toNat < s.rowan.svn ∨ s.rowan.lowestSvn < n.toNat ∨ s.rowan.fuse ≠ none) →
       exec (.svnCommit .hub (n.setWidth 64)) s = .next s) ∧
     (s.rowan.fuse = some p → Does .fuseProgramDone s fun u => u.rowan = { s.rowan with fuse := none, svn := p.goal } ∧
       Logs s u 4 0x0904 3 (BitVec.ofNat 32 p.old) (BitVec.ofNat 32 p.goal) 0 ∧ u.cores = s.cores) ∧
     (s.hubRuns = true → s.rowan.bootKey ≠ some k → j ≠ k → s.rowan.keys[j] ≠ 0 → s.rowan.revoked.getLsbD j.val = false →
       Does (.keyRevoke .hub (BitVec.ofNat 64 k.val)) s fun u =>
         (∀ i : Fin 4, u.rowan.revoked.getLsbD i.val = (s.rowan.revoked.getLsbD i.val || decide (i = k))) ∧
         u.rowan.keys = s.rowan.keys ∧ Logs s u 4 0x0905 3 (BitVec.ofNat 32 k.val) 0 0)) ∧
  (∀ (mask v : BitVec 8) (w : WinId) (bs : List Byte) (s : State),
     let x := s.rowan.mgmtWin
     (s.hubRuns = true → (v = 6 ∨ v = 7) →
       Does (.extGo .hub none (v.setWidth 64)) s fun u =>
         vget u.rowan.meas v.toNat 0 =
           Config.sha512 (leBytes 64 (vget s.rowan.meas v.toNat 0).toNat ++ leBytes 64 x.extData.toNat) ∧
         (∀ i : Fin 8, i.val ≠ v.toNat → u.rowan.meas[i] = s.rowan.meas[i]) ∧ u.cores = s.cores) ∧
     (s.hubRuns = true → v ≠ 6 → v ≠ 7 → exec (.extGo .hub none (v.setWidth 64)) s = .next s) ∧
     (s.hubRuns = true → s.rowan.lcBits.getLsbD 1 = false → x.qState ≠ 1 → mask ≠ 0 → s.rowan.signing = none →
       s.rowan.quotes = [] → s.mgmt.hs = none →
       Does (.qCmd .hub none (mask.setWidth 64)) s fun u => u.rowan.mgmtWin.qState = 1 ∧ u.rowan.quotes = [] ∧
         ∃ q, u.rowan.signing = some (none, q) ∧ fieldNat q 0 4 = 0x31544F51 ∧
           (∀ i < 64, q.getD (24 + i) 0 = x.nonce.extractLsb' (8 * i) 8)) ∧
     (s.rowan.signing = some (w, bs) → s.rowan.quotes = [] →
       Does .quoteDone s fun u => u.rowan.signing = none ∧ (u.attWindow w).qState = 2 ∧
         ((u.attWindow w).qOut).take bs.length = bs ∧ (u.attWindow w).qOut.length = bs.length + 132))

/-- R428, R430, R432: a domain at rest that is switched on waits for its ramp slot (cores and stacks) or ramps; the first
waiting domain of a slot ramps unless another's 12 µs or 25 µs still run. A port's domain is not switched by pd_cmd, nor one
that is LOCKED_OFF, as that of a fenced core is even while it is ON (the model's reading, log entry 94); a second request only
changes the target of a transition in progress. R428, R431: at the end of a power-up the domain is on and its core starts from
boot_addr. R241, R373, R431: a core that is switched off gives its items back to the heads of their queues, in the order in
which it claimed them, counted in dq_requeued, and its streams are cancelled; at the end of the shutdown its domain is off,
its caches and accumulators empty, its Quince counters kept (empty is zero, log entry 1). R434 to R437, R476: f_now falls at
once, and the rail follows; it rises when the voltage read returns the rail's target within 5 mV, to the least of f_set, the
derated fuse value, f_cap and the two ceilings, at least 400 MHz; a rise not confirmed 200 µs after the voltage write is
recorded and abandoned: it is not begun again while the same frequency is asked for (the model's reading, log entry 146); f_set
takes multiples of 25 MHz from 400 to 2,000; droops are counted once each; a margin alarm raises derate, which is committed (log
entry 96). -/
def Obligations.PowerDomainsAndClocks : Prop :=
  (∀ (d : Fin 96) (die : Fin 4) (stack : Bool) (s : State),
     let x := s.domain d.val
     let slot := decide (d.val < 64 ∨ (68 ≤ d.val ∧ d.val < 84))
     let ramps := fun e : Nat => (s.domain e).phase = .ramping ∧ s.time < (s.domain e).ramp + (if stack then 2500 else 1200)
     (s.hubRuns = true → s.lockedOff d.val = false → s.unitLost d.val = false → ¬(84 ≤ d.val ∧ d.val < 92) →
       (x.phase = .off → exec (.pdCmdOn .hub d) s = .next (s.setDomain d.val { x with
         phase := if slot then .waiting else .ramping, want := true, wait := if slot then s.time else 0 })) ∧
       (x.phase = .on → exec (.pdCmdOn .hub d) s = .next s) ∧
       (x.phase = .shutting → exec (.pdCmdOn .hub d) s = .next (s.setDomain d.val { x with want := true }))) ∧
     (s.hubRuns = true → ((84 ≤ d.val ∧ d.val < 92) ∨ s.lockedOff d.val = true) →
       exec (.pdCmdOn .hub d) s = .next s ∧ exec (.pdCmdOff .hub d) s = .next s) ∧
     (∀ c : CoreId, c.val = d.val → (s.core c).cond = .fenced → x.phase = .on → s.lockedOff d.val = true ∧ s.pdState d.val = 5) ∧
     (d.val ∈ slotDomains die.val stack → x.phase = .waiting → s.unitLost d.val = false →
       (∀ e ∈ slotDomains die.val stack, ¬ramps e ∧ (e < d.val → (s.domain e).phase ≠ .waiting ∨ s.unitLost e = true)) →
       exec (.rampSlotGrant die stack) s =
         .next (s.setDomain d.val { x with phase := .ramping, wait := (s.time - x.wait) / 100, ramp := s.time })) ∧
     (d.val ∈ slotDomains die.val stack → ramps d.val → exec (.rampSlotGrant die stack) s = .next s)) ∧
  (∀ (c : CoreId) (s : State),
     let d : Fin 96 := ⟨c.val, by omega⟩
     let x := s.domain c.val
     (x.phase = .ramping → x.want = true → (s.core c).cond = .running →
       Does (.domainPowerupDone d) s fun u => u.domain c.val = { x with phase := .on } ∧
         (u.core c).pcc = capRoot (s.core c).win.bootAddr ∧ (u.core c).g = Vector.replicate 32 0 ∧ OthersKept s u c ∧
         ∃ r ∈ u.recd.inFlight, r.code = 0x0702 ∧ r.p0 = BitVec.ofNat 32 c.val ∧ r.p1 = BitVec.ofNat 32 x.wait) ∧
     (s.hubRuns = true → x.phase = .on → s.unitLost c.val = false →
       Does (.pdCmdOff .hub d) s fun u => u.domain c.val = { x with phase := .shutting, want := false } ∧
         Requeued s u c ∧ StreamsCancelled s u c ∧ u.canIssue c = false ∧ (u.core c).pow.mark = false ∧ OthersKept s u c) ∧
     (x.phase = .shutting → x.want = false → x.locked = false → s.unitLost c.val = false → (s.ledger c.val).whole = true →
       (∀ e : Fin 6, let y := (s.core c).str.eng[e]
         y.st = .idle ∧ y.queue = [] ∧ y.recs = [] ∧ y.reqs = [] ∧ y.partData = [] ∧ y.partScale = []) →
       Does (.domainShutdownDone d) s fun u => (u.domain c.val).phase = .off ∧ (u.core c).cache = Caches.reset ∧
         (u.core c).tile = { Tiles.reset with qc := (s.core c).tile.qc } ∧ OthersKept s u c ∧
         ∃ r ∈ u.recd.inFlight, r.code = 0x0701 ∧ r.p0 = BitVec.ofNat 32 c.val)) ∧
  (∀ (c : CoreId) (tv mv v : BitVec 16) (slack : BitVec 32) (s : State),
     let x := s.core c
     let die := c.val / 16
     let limits := [x.pow.fSet.toNat, s.fFuse c - 25 * x.pow.derate.toNat, s.pow.fCap.toNat, x.pow.fTherm.toNat,
       (vget s.pow.dieCeil die 2000).toNat]
     let f := max 400 (limits.foldl min 2000)
     let need := s.railNeed c f
     let near := fun n : Nat => mv.toNat ≤ n + 5 ∧ n ≤ mv.toNat + 5
     let rail := fun (u : State) (n : Nat) => u.rail die = ⟨n, mv.toNat, if (s.rail die).target = n then (s.rail die).written else s.time⟩ ∧
       (∀ e < 4, e ≠ die → u.rail e = s.rail e) ∧ u.mem = s.mem
     let runs := fun u : State => u.core c = { x with pow := { x.pow with fNow := BitVec.ofNat 16 f, noRise := 0 } } ∧ OthersKept s u c
     (f ≤ x.pow.fNow.toNat → Does (.frequencyChange c mv) s fun u => runs u ∧ rail u (u.railNeed c f)) ∧
     (x.pow.fNow.toNat < f → x.pow.noRise.toNat = f → exec (.frequencyChange c mv) s = .next s) ∧
     (x.pow.fNow.toNat < f → x.pow.noRise.toNat ≠ f →
       (near need → Does (.frequencyChange c mv) s fun u => runs u ∧ rail u need) ∧
       (¬near need → Does (.frequencyChange c mv) s fun u => u.cores = s.cores ∧ rail u need) ∧
       ((s.rail die).target = need → tv.toNat = need → (s.rail die).written + 20000 ≤ s.time → ¬near need → Does (.vregTimeout c tv mv) s fun u =>
         Logs s u 3 0x070A 0 (BitVec.ofNat 32 die) (BitVec.ofNat 32 need) (mv.setWidth 32) ∧
         u.core c = { x with pow := { x.pow with noRise := BitVec.ofNat 16 f } } ∧ OthersKept s u c ∧ rail u need)) ∧
     ((f ≤ x.pow.fNow.toNat ∨ s.time < (s.rail die).written + 20000 ∨ near (s.rail die).target ∨ (s.rail die).target ≠ tv.toNat) →
       exec (.vregTimeout c tv mv) s = .next s) ∧
     (s.hubRuns = true → x.cond ≠ .absent → 400 ≤ v.toNat → v.toNat ≤ 2000 → v.toNat % 25 = 0 →
       exec (.fSetWrite .hub c (v.setWidth 64)) s = .next (s.setCore c { x with pow := { x.pow with fSet := v } })) ∧
     (s.hubRuns = true → (v.toNat < 400 ∨ 2000 < v.toNat ∨ v.toNat % 25 ≠ 0) →
       exec (.fSetWrite .hub c (v.setWidth 64)) s = .next s) ∧
     (s.coreOn c = true → x.pow.droop = false → exec (.droopDetect c) s =
       .next (s.setCore c { x with pow := { x.pow with droop := true, droopCnt := x.pow.droopCnt + 1 } })) ∧
     exec (.droopEnd c) s = .next (s.setCore c { x with pow := { x.pow with droop := false } }) ∧
     (s.coreOn c = true → x.pow.derate ≠ 0xFF → Does (.marginMonitor c slack true) s fun u =>
       u.core c = { x with pow := { x.pow with derate := x.pow.derate + 1 } } ∧ OthersKept s u c ∧
       u.rst.commit.isSome = true ∧ ∃ r ∈ u.recd.inFlight, r.sev = 2 ∧ r.code = 0x0706 ∧ r.p1 = slack))

/-- R438, R439: a core's ceiling falls by 25 MHz, not below 400, while its hottest sensor is at or above t_throttle; at 115.0 °C
the device stops: THERMTRIP_N is driven and every core of the map is fenced, also where the ball was driven before and a
system reset has let the cores run again. R440 to R442, R481, R484: an interval above pwr_cap lowers f_cap by 25 MHz, not below
400; after 1 ms in which the mean stayed more than 3 % below it f_cap rises by 25 MHz, unless the hub is hot; a new cap is
recorded with its writer; marks are summed over a window (rounded as log entry 96 says); power failure holds f_cap until the
ball is high and the box complete; the loss of REFCLK stops a running device, whose local time then counts five ticks a cycle
of the always-on oscillator. -/
def Obligations.ThermalAndCapping : Prop :=
  (∀ (c : CoreId) (idx : Fin 8) (temp : Int) (st : StackId) (s : State),
     let r : SensorReading := ⟨⟨c.val, by omega⟩, idx, temp⟩
     let limit : Int := 10 * s.pow.tThrottle.toNat
     (limit ≤ temp → temp < 1150 → Does (.sensorSample [r]) s fun u =>
       u.core c = { s.core c with pow := { (s.core c).pow with
         temp := temp, fTherm := BitVec.ofNat 16 (max 400 ((s.core c).pow.fTherm.toNat - 25)), coolSamples := 0 } } ∧
       OthersKept s u c ∧ u.pow.tHot = temp ∧ u.mem = s.mem) ∧
     (temp < limit - 30 → temp < 1150 → (s.core c).pow.coolSamples = 9 → Does (.sensorSample [r]) s fun u =>
       (u.core c).pow.fTherm = BitVec.ofNat 16 (min 2000 ((s.core c).pow.fTherm.toNat + 25)) ∧ OthersKept s u c) ∧
     (1150 ≤ temp → (s.balls.thermtrip = false ∨ s.cont.stopped = false) → Does (.sensorSample [r]) s fun u => u.balls.thermtrip = true ∧
       u.balls.alert = true ∧ u.cont.stopped = true ∧ (∀ d : CoreId, (s.core d).cond ≠ .absent → (u.core d).cond = .fenced) ∧
       ∃ r ∈ u.recd.inFlight, r.sev = 7 ∧ r.code = 0x0708) ∧
     exec (.stackTemperatureChange st temp) s = .next (s.setStack st { s.stack st with
       temp := temp, hot := decide (850 < temp), halved := decide (950 < temp) || ((s.stack st).halved && decide (920 ≤ temp)) })) ∧
  (∀ (watts v : BitVec 16) (c : CoreId) (s : State),
     let mean := (((watts :: s.pow.samples).take 10).map BitVec.toNat).sum / ((watts :: s.pow.samples).take 10).length
     (100 * mean < 97 * s.pow.cap.val.toNat → s.pow.lowFor = 9 → s.pow.failHold = false → s.pow.hubHot = false →
       Does (.powerMeasure watts) s fun u => u.pow.now = BitVec.ofNat 16 mean ∧ u.pow.lowFor = 0 ∧ u.cores = s.cores ∧
         u.pow.fCap = BitVec.ofNat 16 (min 2000
           ((if s.pow.cap.val.toNat < watts.toNat then max 400 (s.pow.fCap.toNat - 25) else s.pow.fCap.toNat) + 25))) ∧
     (s.pow.cap.val.toNat < watts.toNat → s.pow.failHold = false → s.pow.lowFor < 9 → Does (.powerMeasure watts) s fun u =>
       u.pow.fCap = BitVec.ofNat 16 (max 400 (s.pow.fCap.toNat - 25)) ∧ u.pow.cap = s.pow.cap ∧ u.cores = s.cores) ∧
     (s.pow.failHold = true → Does (.powerMeasure watts) s fun u => u.pow.fCap = 400 ∧ u.cores = s.cores) ∧
     (s.hubRuns = true → 900 ≤ v.toNat → v.toNat ≤ 2600 → s.wordDamaged 138 = false → Does (.pwrCapWrite .hub (v.setWidth 64)) s fun u =>
       u.pow = { s.pow with cap := pairOf v, metFor := 0 } ∧ u.cores = s.cores ∧
       Logs s u 1 0x0709 0 (s.pow.cap.val.setWidth 32) (v.setWidth 32) 64) ∧
     (s.hubRuns = true → (s.core c).cond ≠ .absent → exec (.collMark .hub c 1) s =
       .next (s.setCore c { s.core c with pow := { (s.core c).pow with mark := true } })) ∧
     exec .critWindowEnd s = .next { s with pow := { s.pow with
       criticality := BitVec.ofNat 16 (if s.pow.counted = 0 then 0 else min 65535 (s.pow.marked * 65536 / s.pow.counted))
       marked := 0, counted := 0 } } ∧
     (s.balls.pwrFail = true → exec .pwrFailNRelease s = .next { s with
       balls := { s.balls with pwrFail := false }, pow := { s.pow with failHold := s.pow.failHold && s.box.programming } }) ∧
     (s.rst.refclk = true → s.rst.phase = .ready → Does .refclkLost s fun u => u.rst.refclk = false ∧ u.cont.stopped = true ∧
       u.balls.alert = true ∧ (∀ d : CoreId, (s.core d).cond ≠ .absent → (u.core d).cond = .fenced)) ∧
     exec .refclkGood s = .next { s with rst := { s.rst with refclk := true } } ∧
     s.tick.time = s.time + (if s.rst.refclk then 1 else 5))

/-- R461, R465: a handshake. A HELLO whose key is trusted starts one; Rowan's turn sends CHALLENGE; a CONFIRM of its id within 1
s is checked; a right signature opens a session in the first free slot, a wrong one is counted and opens none. R463, R464,
R467: in a session READ gives the bytes asked for, BLOCK_READ the elements, and WRITE is applied once: the step as READ and
WRITE reach it, and stk_state as BLOCK_READ does. R463: a message with a wrong tag is only counted, one with an older number
likewise; one with the last number gets the stored answer again, and nothing else happens. R320, R459, R468: DAP listens at the
port's own addresses and at dap_port, and in frames tagged with mgmt_vid at the address of the sub-port and dap_port; what
arrives elsewhere reaches no session; an answer goes where its datagram came from. R459, R460, R465: CERT_GET answers with up to
1,024 bytes of the certificate from its offset, without a session; the port answers for its own addresses only; an idle
session ends after dap_idle seconds. What refusals count, which numbers and bytes a session begins with, and when a path
listens are the model's readings (log entries 107, 108, 109, 147). -/
def Obligations.DictionaryAccessProtocol : Prop :=
  (∀ (x : DapFrom) (m : DapMsg) (tr : Option (Fin 8)) (h : Handshake) (sig : List Byte) (at_ : Nat) (i : Fin 4) (s t : State),
     (Arrives s t x m 1 → t.rowan.lcBits.getLsbD 1 = false → t.judgeHello (dapVlan x) m.body = .ok tr → t.mgmt.hs = none →
       Does (.dapHello x m) s fun u => ∃ k, u.mgmt.hs = some k ∧ k.peer = dapPeer x ∧ k.stage = .signing ∧ k.trust = tr ∧
         k.hello = m.body ∧ k.notify = m.flags.getLsbD 0 ∧ u.mgmt.port = t.mgmt.port ∧ u.mgmt.vlan = t.mgmt.vlan) ∧
     (s.mgmt.hs = some h → h.stage = .signing → h.ahead = 0 → s.rowan.signing = none → CanSend s h.peer →
       Does .challengeSend s fun u => ∃ k body, u.mgmt.hs = some k ∧ k.stage = .challenged s.time ∧ k.hello = h.hello ∧
         k.challenge = body ∧ k.trust = h.trust ∧ body.length = 297 ∧
         ∃ r, SendsDap s u h.peer r ∧ r.typ = 2 ∧ r.session = k.id ∧ r.body = body) ∧
     (Arrives s t x m 3 → t.mgmt.hs = some h → h.stage = .challenged at_ → h.peer.vlan = dapVlan x → h.id = m.session →
       t.time ≤ at_ + 100000000 →
       Does (.dapConfirm x m) s fun u => u.mgmt.hs = some { h with stage := .checking m.body, ahead := t.rowan.quotes.length }) ∧
     (s.mgmt.hs = some h → h.stage = .checking sig → h.ahead = 0 → s.rowan.signing = none → s.rowan.quotes = [] →
       s.mgmt.hsWait = [] →
       (s.trustHolds h.trust = true → s.freeSlot h.peer.vlan = some i →
         Does .acceptSend s fun u => u.mgmt.hs = none ∧
           if h.confirmed sig = true then
             (∃ y, u.sessionAt h.peer.vlan i = some y ∧ y.id = h.id ∧ y.peer = h.peer ∧ y.trust = h.trust ∧ y.lastSeq = 0 ∧
               y.notify = h.notify) ∧
             (∀ j : Fin 4, j ≠ i → u.sessionAt h.peer.vlan j = s.sessionAt h.peer.vlan j) ∧
             ∃ r ∈ u.recd.inFlight, r.code = 0x0A01 ∧ r.p0 = h.id
           else u.mgmt.hsFail = s.mgmt.hsFail + 1 ∧ u.mgmt.port = s.mgmt.port ∧ u.mgmt.vlan = s.mgmt.vlan) ∧
       (s.trustHolds h.trust = false →
         Does .acceptSend s fun u => u.mgmt.hs = none ∧ u.mgmt.hsFail = s.mgmt.hsFail + 1 ∧ u.mgmt.port = s.mgmt.port ∧
           u.mgmt.vlan = s.mgmt.vlan)) ∧
     (s.mgmt.hs = some h → h.stage = .challenged at_ → at_ + 100000000 ≤ s.time → s.mgmt.hsWait = [] →
       Does .challengeTimeout s fun u => u.mgmt.hs = none ∧ u.mgmt.hsFail = s.mgmt.hsFail + 1 ∧ u.mgmt.port = s.mgmt.port ∧
         u.mgmt.vlan = s.mgmt.vlan)) ∧
  (∀ (x : DapFrom) (i : Fin 4) (y : Session) (m : DapMsg) (s t : State), CanSend t (dapPeer x) → InSession t (dapVlan x) i y m →
     (Arrives s t x m 5 → Asks m 0x2400 3 0 4 → m.flags.getLsbD 0 = false → intact t.train.step = true →
       (∀ p ∈ t.criticals, p.2 = true) →
       Does (.dapRead x m) s fun u => Answered t u (dapPeer x) i y m 0 (leBytes 4 t.train.step.val.toNat) ∧ u.train = t.train ∧
         u.cores = s.cores ∧ u.mem = s.mem) ∧
     (Arrives s t x m 6 → Asks m 0x2400 3 0 4 →
       ((t.sessionPerms y).getLsbD permSyscfg = true →
         Does (.dapWrite x m) s fun u => Answered t u (dapPeer x) i y m 0 [] ∧
           u.train.step = pairOf (BitVec.ofNat 32 (fieldNat m.body 8 4)) ∧ u.train.dataPos = s.train.dataPos ∧ u.cores = s.cores ∧
           ∃ r ∈ u.recd.inFlight, r.code = 0x0A04 ∧ r.p0 = 0x240003 ∧ r.p1 = y.id) ∧
       ((t.sessionPerms y).getLsbD permSyscfg = false →
         Does (.dapWrite x m) s fun u => Answered t u (dapPeer x) i y m 2 [] ∧ u.train = s.train ∧ u.recd = t.recd)) ∧
     (Arrives s t x m 7 → Asks m 0x6400 1 16 0 →
       Does (.dapBlockRead x m) s fun u => u.stks = s.stks ∧
         Answered t u (dapPeer x) i y m 0 ((List.finRange 16).map fun st => BitVec.ofNat 8 (s.stack st).st.code)) ∧
     (Arrives s t x m 10 → Does (.dapClose x m) s fun u => u.sessionAt (dapVlan x) i = none ∧
       (∀ j : Fin 4, j ≠ i → u.sessionAt (dapVlan x) j = t.sessionAt (dapVlan x) j) ∧
       ∃ r ∈ u.recd.inFlight, r.code = 0x0A02 ∧ r.p0 = y.id ∧ r.p1 = 0)) ∧
  (∀ (x : DapFrom) (i : Fin 4) (y : Session) (m r : DapMsg) (s t : State), Arrives s t x m 6 → CanSend t (dapPeer x) →
     t.sessionSlot (dapVlan x) m.session = some i → t.sessionAt (dapVlan x) i = some y →
     (m.tag ≠ some (dapTag y.keyIn m) →
       exec (.dapWrite x m) s = .next { t with mgmt := { t.mgmt with badmac := t.mgmt.badmac + 1 } }) ∧
     (m.tag = some (dapTag y.keyIn m) → m.seq < y.lastSeq →
       exec (.dapWrite x m) s = .next { t with mgmt := { t.mgmt with replay := t.mgmt.replay + 1 } }) ∧
     (m.tag = some (dapTag y.keyIn m) → m.seq = y.lastSeq → y.stored = some r →
       Does (.dapWrite x m) s fun u => SendsDap t u (dapPeer x) r ∧ u = { t with fab := u.fab })) ∧
  (∀ (dst src : BitVec 128) (dport sport : BitVec 16) (f : Frame) (m : DapMsg) (s : State),
     ((s.balls.mgmtTx = false ∨ s.mgmt.mac = 0 ∨ s.mgmt.owns dst = false ∨ dport ≠ s.mgmt.dapPort) →
       exec (.dapWrite (.onPort dst src dport sport) m) s = .next s) ∧
     ((s.mgmt.vid.val.toNat = 0xFFFF ∨ f.vid.map BitVec.toNat ≠ some s.mgmt.vid.val.toNat ∨ dport ≠ s.mgmt.dapPort ∨ f.fcsOk = false) →
       Does (.dapWrite (.onVlan f dport sport) m) s fun u => u = { s with fab := u.fab })) ∧
  (∀ (x : DapFrom) (m : DapMsg) (kind : NeighborKind) (target : BitVec 128) (vlan : Bool) (i : Fin 4) (y : Session) (s t : State),
     (Arrives s t x m 11 → CanSend t (dapPeer x) → Does (.certGet x m) s fun u => ∃ r, SendsDap t u (dapPeer x) r ∧
       r.typ = 12 ∧ r.session = 0 ∧ r.body = leBytes 2 s.rowan.idCert.length ++ leBytes 2 (fieldNat m.body 0 2) ++
         (s.rowan.idCert.drop (fieldNat m.body 0 2)).take 1024 ∧ u = { t with fab := u.fab }) ∧
     (kind ≠ .arp → s.balls.mgmtTx = true → s.mgmt.mac ≠ 0 →
       exec (.mgmtIcmpReceive kind target) s =
         .next (if s.mgmt.owns target then { s with fab := { s.fab with tx := s.fab.tx ++ [.mgmtIcmp kind target] } } else s)) ∧
     exec (.mgmtIcmpReceive .arp target) s = .next s ∧
     (s.sessionAt vlan i = some y →
       (y.lastAt + s.mgmt.dapIdle.toNat * 100000000 ≤ s.time → Does (.dapIdleTimeout vlan i) s fun u =>
         u.sessionAt vlan i = none ∧ ∃ r ∈ u.recd.inFlight, r.code = 0x0A02 ∧ r.p0 = y.id ∧ r.p1 = 1) ∧
       (s.time < y.lastAt + s.mgmt.dapIdle.toNat * 100000000 → exec (.dapIdleTimeout vlan i) s = .next s)))
end

