-- ==== Sys2Proof/Laws/Sparse.lean ====
section
/-!
SUPPORT. The sparse arrays: a read after a write, and the canonical form that every memory operation keeps.
-/
namespace Sys2Proof.Machine

/-! ### Reading after writing -/

@[simp] theorem sparseGet_nil {α : Type} (d : Nat → α) (a : Nat) : sparseGet d [] a = d a := rfl

theorem sparseGet_erase {α : Type} (d : Nat → α) (m : Sparse α) (a b : Nat) (h : a ∉ (sparseErase m a).map Prod.fst) :
    sparseGet d (sparseErase m a) b = if b = a then d a else sparseGet d m b := by
  induction m with
  | nil => by_cases e : b = a <;> simp [sparseErase, e]
  | cons x xs ih =>
    obtain ⟨k, v⟩ := x
    by_cases e : a = k
    · subst e
      simp only [sparseErase, ↓reduceIte] at h ⊢
      rw [ih h]
      by_cases f : b = a <;> simp [sparseGet, f]
    · simp only [sparseErase, e, ↓reduceIte] at h ⊢
      simp only [List.map_cons, List.mem_cons, not_or] at h
      simp only [sparseGet]
      rw [ih h.2]
      by_cases f : b = k
      · subst f
        have : ¬ b = a := fun q => e q.symm
        simp [this]
      · simp [f]

theorem sparseErase_not_mem {α : Type} (m : Sparse α) (a : Nat) : a ∉ (sparseErase m a).map Prod.fst := by
  induction m with
  | nil => simp [sparseErase]
  | cons x xs ih =>
    obtain ⟨k, v⟩ := x
    by_cases e : a = k
    · simpa [sparseErase, e] using (by simpa [e] using ih)
    · have f : a ∉ (k, v).1 :: (sparseErase xs a).map Prod.fst := by
        rw [List.mem_cons, not_or]
        exact ⟨e, ih⟩
      simpa [sparseErase, e] using f

theorem sparseGet_insert {α : Type} (d : Nat → α) (m : Sparse α) (a b : Nat) (v : α) (h : a ∉ m.map Prod.fst) :
    sparseGet d (sparseInsert m a v) b = if b = a then v else sparseGet d m b := by
  induction m with
  | nil => simp [sparseInsert, sparseGet]
  | cons x xs ih =>
    obtain ⟨k, w⟩ := x
    simp only [List.map_cons, List.mem_cons, not_or] at h
    by_cases e : a < k
    · simp [sparseInsert, e, sparseGet]
    · simp only [sparseInsert, e, ↓reduceIte, sparseGet]
      rw [ih h.2]
      by_cases f : b = k
      · subst f
        have : ¬ b = a := fun q => h.1 q.symm
        simp [this]
      · simp [f]

/-- What a read gives after a write: the content at its address, and what stood there everywhere else. -/
theorem sparseGet_set {α : Type} [DecidableEq α] (d : Nat → α) (m : Sparse α) (a b : Nat) (v : α) :
    sparseGet d (sparseSet d m a v) b = if b = a then v else sparseGet d m b := by
  have h := sparseErase_not_mem m a
  unfold sparseSet
  split
  · rename_i e
    rw [sparseGet_erase d m a b h, e]
  · rw [sparseGet_insert d _ a b v h, sparseGet_erase d m a b h]
    by_cases f : b = a <;> simp [f]

@[simp] theorem cellGet_set (m : List Host.Cell) (a b : Nat) (v : Byte) :
    cellGet (cellSet m a v) b = if b = a then v else cellGet m b := sparseGet_set _ m a b v

@[simp] theorem flagGet_set (m : Sparse Bool) (a b : Nat) (v : Bool) :
    flagGet (flagSet m a v) b = if b = a then v else flagGet m b := sparseGet_set _ m a b v

/-- A run of bytes written from a upward: every byte outside it reads as before. -/
theorem cellGet_cellsSet_outside (bs : List Byte) (m : List Host.Cell) (a b : Nat) (h : b < a ∨ a + bs.length ≤ b) :
    cellGet (cellsSet m a bs) b = cellGet m b := by
  induction bs generalizing m a with
  | nil => rfl
  | cons x xs ih =>
    simp only [List.length_cons] at h
    rw [cellsSet, ih _ _ (by omega), cellGet_set, if_neg (by omega)]

/-- Byte i of a run reads as it was written. -/
theorem cellGet_cellsSet_inside (bs : List Byte) (m : List Host.Cell) (a i : Nat) (h : i < bs.length) :
    cellGet (cellsSet m a bs) (a + i) = bs[i] := by
  induction bs generalizing m a i with
  | nil => simp at h
  | cons x xs ih =>
    cases i with
    | zero => rw [cellsSet, cellGet_cellsSet_outside xs _ _ _ (by omega)]; simp
    | succ j =>
      have e : a + (j + 1) = a + 1 + j := by omega
      rw [cellsSet, e, ih _ _ _ (by simpa using h)]
      simp

/-! ### The canonical form -/

theorem sparseRising_weaken {α : Type} (m : Sparse α) {l k : Nat} (h : l < k) (r : sparseRising (some k) m = true) :
    sparseRising (some l) m = true := by
  cases m with
  | nil => rfl
  | cons x xs =>
    simp only [sparseRising, Bool.and_eq_true, decide_eq_true_eq] at r ⊢
    exact ⟨by omega, r.2⟩

theorem sparseRising_erase {α : Type} (m : Sparse α) (b : Option Nat) (a : Nat) (r : sparseRising b m = true) :
    sparseRising b (sparseErase m a) = true := by
  induction m generalizing b with
  | nil => rfl
  | cons x xs ih =>
    obtain ⟨k, v⟩ := x
    simp only [sparseRising, Bool.and_eq_true] at r
    by_cases e : a = k
    · simp only [sparseErase, e, ↓reduceIte]
      have h1 := ih (some k) r.2
      rw [e] at h1
      cases b with
      | none =>
        cases q : sparseErase xs k with
        | nil => rfl
        | cons y ys =>
          rw [q] at h1
          simp only [sparseRising, Bool.and_eq_true] at h1 ⊢
          exact ⟨trivial, h1.2⟩
      | some l => exact sparseRising_weaken _ (by simpa using r.1) h1
    · simp only [sparseErase, e, ↓reduceIte, sparseRising, Bool.and_eq_true]
      exact ⟨r.1, ih _ r.2⟩

theorem sparseRising_insert {α : Type} (m : Sparse α) (b : Option Nat) (a : Nat) (v : α)
    (r : sparseRising b m = true) (h : a ∉ m.map Prod.fst) (g : ∀ l ∈ b, l < a) :
    sparseRising b (sparseInsert m a v) = true := by
  induction m generalizing b with
  | nil => cases b <;> simp_all [sparseInsert, sparseRising]
  | cons x xs ih =>
    obtain ⟨k, w⟩ := x
    simp only [List.map_cons, List.mem_cons, not_or] at h
    simp only [sparseRising, Bool.and_eq_true] at r
    by_cases e : a < k
    · cases b <;> simp_all [sparseInsert, sparseRising]
    · simp only [sparseInsert, e, ↓reduceIte, sparseRising, Bool.and_eq_true]
      refine ⟨r.1, ih (some k) r.2 h.2 ?_⟩
      intro l hl
      simp only [Option.mem_def, Option.some.injEq] at hl
      omega

theorem sparseNoDefault_erase {α : Type} [DecidableEq α] (d : Nat → α) (m : Sparse α) (a : Nat)
    (h : sparseNoDefault d m = true) : sparseNoDefault d (sparseErase m a) = true := by
  induction m with
  | nil => rfl
  | cons x xs ih =>
    obtain ⟨k, v⟩ := x
    simp only [sparseNoDefault, List.all_cons, Bool.and_eq_true] at h ih ⊢
    by_cases e : a = k
    · simpa [sparseErase, e] using (by simpa [e] using ih h.2)
    · simp only [sparseErase, e, ↓reduceIte, List.all_cons, Bool.and_eq_true]
      exact ⟨h.1, ih h.2⟩

theorem sparseNoDefault_insert {α : Type} [DecidableEq α] (d : Nat → α) (m : Sparse α) (a : Nat) (v : α)
    (h : sparseNoDefault d m = true) (g : v ≠ d a) : sparseNoDefault d (sparseInsert m a v) = true := by
  induction m with
  | nil => simp [sparseInsert, sparseNoDefault, g]
  | cons x xs ih =>
    obtain ⟨k, w⟩ := x
    simp only [sparseNoDefault, List.all_cons, Bool.and_eq_true] at h ih
    by_cases e : a < k
    · simp only [sparseInsert, e, ↓reduceIte, sparseNoDefault, List.all_cons, Bool.and_eq_true]
      exact ⟨by simpa using g, h.1, h.2⟩
    · simp only [sparseInsert, e, ↓reduceIte, sparseNoDefault, List.all_cons, Bool.and_eq_true]
      exact ⟨h.1, ih h.2⟩

/-- A write keeps the canonical form. -/
theorem sparseWf_set {α : Type} [DecidableEq α] (d : Nat → α) (m : Sparse α) (a : Nat) (v : α)
    (h : sparseWf d m = true) : sparseWf d (sparseSet d m a v) = true := by
  simp only [sparseWf, Bool.and_eq_true] at h ⊢
  unfold sparseSet
  split
  · exact ⟨sparseRising_erase m none a h.1, sparseNoDefault_erase d m a h.2⟩
  · rename_i g
    exact ⟨sparseRising_insert _ none a v (sparseRising_erase m none a h.1) (sparseErase_not_mem m a) (by simp),
      sparseNoDefault_insert d _ a v (sparseNoDefault_erase d m a h.2) g⟩

theorem Memory.wf_nil : Memory.wf [] = true := rfl

theorem Memory.wf_cellSet (m : List Host.Cell) (a : Nat) (b : Byte) (h : Memory.wf m = true) :
    Memory.wf (cellSet m a b) = true := sparseWf_set _ m a b h

theorem Memory.wf_cellsSet (bs : List Byte) (m : List Host.Cell) (a : Nat) (h : Memory.wf m = true) :
    Memory.wf (cellsSet m a bs) = true := by
  induction bs generalizing m a with
  | nil => exact h
  | cons x xs ih => exact ih _ _ (Memory.wf_cellSet m a x h)

theorem sparseRising_filter {α : Type} (p : Nat × α → Bool) (m : Sparse α) (b : Option Nat)
    (r : sparseRising b m = true) : sparseRising b (m.filter p) = true := by
  induction m generalizing b with
  | nil => rfl
  | cons x xs ih =>
    obtain ⟨k, v⟩ := x
    simp only [sparseRising, Bool.and_eq_true] at r
    by_cases e : p (k, v) = true
    · simp only [List.filter_cons, e, ↓reduceIte, sparseRising, Bool.and_eq_true]
      exact ⟨r.1, ih _ r.2⟩
    · simp only [List.filter_cons, e, Bool.false_eq_true, ↓reduceIte]
      have h1 := ih (some k) r.2
      cases b with
      | none =>
        cases q : xs.filter p with
        | nil => rfl
        | cons y ys =>
          rw [q] at h1
          simp only [sparseRising, Bool.and_eq_true] at h1 ⊢
          exact ⟨trivial, h1.2⟩
      | some l => exact sparseRising_weaken _ (by simpa using r.1) h1

/-- Dropping a region keeps the canonical form. -/
theorem Memory.wf_filter (m : List Host.Cell) (p : Host.Cell → Bool) (h : Memory.wf m = true) :
    Memory.wf (m.filter p) = true := by
  simp only [Memory.wf, sparseWf, Bool.and_eq_true] at h ⊢
  refine ⟨sparseRising_filter p m none h.1, ?_⟩
  have h2 := h.2
  simp only [sparseNoDefault, List.all_eq_true] at h2 ⊢
  intro x hx
  exact h2 x (List.mem_filter.mp hx).1

/-- An address at or below a rising array's first bound reads as unlisted. -/
theorem sparseGet_head_low {α : Type} (d : Nat → α) (m : Sparse α) (l a : Nat) (r : sparseRising (some l) m = true)
    (h : a ≤ l) : sparseGet d m a = d a := by
  induction m generalizing l with
  | nil => rfl
  | cons x xs ih =>
    obtain ⟨k, v⟩ := x
    simp only [sparseRising, Bool.and_eq_true, decide_eq_true_eq] at r
    have : ¬ a = k := by omega
    simp only [sparseGet, this, ↓reduceIte]
    exact ih k r.2 (by omega)

/-! ### Vectors -/

@[simp] theorem vmap_get {α β : Type} {n : Nat} (v : Vector α n) (f : α → β) (i : Nat) (h : i < n) : (vmap v f)[i] = f v[i] := by
  simp [vmap]

@[simp] theorem vget_vset {α : Type} {n : Nat} (v : Vector α n) (i : Nat) (x d : α) (h : i < n) : vget (vset v i x) i d = x := by
  simp [vget, vset, h]

theorem vget_vset_ne {α : Type} {n : Nat} (v : Vector α n) {i j : Nat} (x d : α) (h : i ≠ j) : vget (vset v i x) j d = vget v j d := by
  simp [vget, vset, Vector.getElem?_setIfInBounds_ne h]

end Sys2Proof.Machine
end

