-- ==== Sys2Proof/Laws/State.lean ====
section
/-!
SUPPORT. What each update of the state changes and leaves: one lemma per field and update, so that no proof unfolds a
record update.
-/
namespace Sys2Proof.Machine

/-! ### The core table -/

@[simp] theorem State.core_setCore_self (s : State) (c : CoreId) (x : CoreState) : (s.setCore c x).core c = x := by
  simp [State.core, State.setCore]

theorem State.core_setCore_ne (s : State) {c d : CoreId} (x : CoreState) (h : d ≠ c) :
    (s.setCore c x).core d = s.core d := by
  have : ¬ c.val = d.val := fun e => h (Fin.ext e.symm)
  simp [State.core, State.setCore, Vector.getElem_set_ne _ _ this]

@[simp] theorem State.core_mapCore_self (s : State) (c : CoreId) (f : CoreState → CoreState) :
    (s.mapCore c f).core c = f (s.core c) := by simp [State.mapCore]

theorem State.core_mapCore_ne (s : State) {c d : CoreId} (f : CoreState → CoreState) (h : d ≠ c) :
    (s.mapCore c f).core d = s.core d := by simp [State.mapCore, State.core_setCore_ne s _ h]

@[simp] theorem State.setCore_setCore (s : State) (c : CoreId) (x y : CoreState) :
    (s.setCore c x).setCore c y = s.setCore c y := by simp [State.setCore]

@[simp] theorem State.setCore_core (s : State) (c : CoreId) : s.setCore c (s.core c) = s := by
  simp [State.setCore, State.core]

/-! ### Fields that an update leaves -/

@[simp] theorem State.setCore_mem (s : State) (c : CoreId) (x : CoreState) :
    (s.setCore c x).mem = s.mem := rfl
@[simp] theorem State.setCore_stks (s : State) (c : CoreId) (x : CoreState) :
    (s.setCore c x).stks = s.stks := rfl
@[simp] theorem State.setCore_scfg (s : State) (c : CoreId) (x : CoreState) :
    (s.setCore c x).scfg = s.scfg := rfl
@[simp] theorem State.setCore_train (s : State) (c : CoreId) (x : CoreState) :
    (s.setCore c x).train = s.train := rfl
@[simp] theorem State.setCore_fab (s : State) (c : CoreId) (x : CoreState) :
    (s.setCore c x).fab = s.fab := rfl
@[simp] theorem State.setCore_cont (s : State) (c : CoreId) (x : CoreState) :
    (s.setCore c x).cont = s.cont := rfl
@[simp] theorem State.setCore_recd (s : State) (c : CoreId) (x : CoreState) :
    (s.setCore c x).recd = s.recd := rfl
@[simp] theorem State.setCore_box (s : State) (c : CoreId) (x : CoreState) :
    (s.setCore c x).box = s.box := rfl
@[simp] theorem State.setCore_int (s : State) (c : CoreId) (x : CoreState) :
    (s.setCore c x).int = s.int := rfl
@[simp] theorem State.setCore_rst (s : State) (c : CoreId) (x : CoreState) :
    (s.setCore c x).rst = s.rst := rfl
@[simp] theorem State.setCore_balls (s : State) (c : CoreId) (x : CoreState) :
    (s.setCore c x).balls = s.balls := rfl
@[simp] theorem State.setCore_rowan (s : State) (c : CoreId) (x : CoreState) :
    (s.setCore c x).rowan = s.rowan := rfl
@[simp] theorem State.setCore_pow (s : State) (c : CoreId) (x : CoreState) :
    (s.setCore c x).pow = s.pow := rfl
@[simp] theorem State.setCore_mgmt (s : State) (c : CoreId) (x : CoreState) :
    (s.setCore c x).mgmt = s.mgmt := rfl
@[simp] theorem State.setCore_jtag (s : State) (c : CoreId) (x : CoreState) :
    (s.setCore c x).jtag = s.jtag := rfl
@[simp] theorem State.setCore_inject (s : State) (c : CoreId) (x : CoreState) :
    (s.setCore c x).inject = s.inject := rfl
@[simp] theorem State.setCore_spares (s : State) (c : CoreId) (x : CoreState) :
    (s.setCore c x).spares = s.spares := rfl
@[simp] theorem State.setCore_time (s : State) (c : CoreId) (x : CoreState) :
    (s.setCore c x).time = s.time := rfl
@[simp] theorem State.setCore_free (s : State) (c : CoreId) (x : CoreState) :
    (s.setCore c x).free = s.free := rfl
@[simp] theorem State.setCore_pending (s : State) (c : CoreId) (x : CoreState) :
    (s.setCore c x).pending = s.pending := rfl

@[simp] theorem State.mapCore_mem (s : State) (c : CoreId) (f : CoreState → CoreState) :
    (s.mapCore c f).mem = s.mem := rfl
@[simp] theorem State.mapCore_stks (s : State) (c : CoreId) (f : CoreState → CoreState) :
    (s.mapCore c f).stks = s.stks := rfl
@[simp] theorem State.mapCore_scfg (s : State) (c : CoreId) (f : CoreState → CoreState) :
    (s.mapCore c f).scfg = s.scfg := rfl
@[simp] theorem State.mapCore_train (s : State) (c : CoreId) (f : CoreState → CoreState) :
    (s.mapCore c f).train = s.train := rfl
@[simp] theorem State.mapCore_fab (s : State) (c : CoreId) (f : CoreState → CoreState) :
    (s.mapCore c f).fab = s.fab := rfl
@[simp] theorem State.mapCore_cont (s : State) (c : CoreId) (f : CoreState → CoreState) :
    (s.mapCore c f).cont = s.cont := rfl
@[simp] theorem State.mapCore_recd (s : State) (c : CoreId) (f : CoreState → CoreState) :
    (s.mapCore c f).recd = s.recd := rfl
@[simp] theorem State.mapCore_box (s : State) (c : CoreId) (f : CoreState → CoreState) :
    (s.mapCore c f).box = s.box := rfl
@[simp] theorem State.mapCore_int (s : State) (c : CoreId) (f : CoreState → CoreState) :
    (s.mapCore c f).int = s.int := rfl
@[simp] theorem State.mapCore_rst (s : State) (c : CoreId) (f : CoreState → CoreState) :
    (s.mapCore c f).rst = s.rst := rfl
@[simp] theorem State.mapCore_balls (s : State) (c : CoreId) (f : CoreState → CoreState) :
    (s.mapCore c f).balls = s.balls := rfl
@[simp] theorem State.mapCore_rowan (s : State) (c : CoreId) (f : CoreState → CoreState) :
    (s.mapCore c f).rowan = s.rowan := rfl
@[simp] theorem State.mapCore_pow (s : State) (c : CoreId) (f : CoreState → CoreState) :
    (s.mapCore c f).pow = s.pow := rfl
@[simp] theorem State.mapCore_mgmt (s : State) (c : CoreId) (f : CoreState → CoreState) :
    (s.mapCore c f).mgmt = s.mgmt := rfl
@[simp] theorem State.mapCore_jtag (s : State) (c : CoreId) (f : CoreState → CoreState) :
    (s.mapCore c f).jtag = s.jtag := rfl
@[simp] theorem State.mapCore_inject (s : State) (c : CoreId) (f : CoreState → CoreState) :
    (s.mapCore c f).inject = s.inject := rfl
@[simp] theorem State.mapCore_spares (s : State) (c : CoreId) (f : CoreState → CoreState) :
    (s.mapCore c f).spares = s.spares := rfl
@[simp] theorem State.mapCore_time (s : State) (c : CoreId) (f : CoreState → CoreState) :
    (s.mapCore c f).time = s.time := rfl
@[simp] theorem State.mapCore_free (s : State) (c : CoreId) (f : CoreState → CoreState) :
    (s.mapCore c f).free = s.free := rfl
@[simp] theorem State.mapCore_pending (s : State) (c : CoreId) (f : CoreState → CoreState) :
    (s.mapCore c f).pending = s.pending := rfl

@[simp] theorem State.mapCtl_mem (s : State) (c : CoreId) (f : Control → Control) :
    (s.mapCtl c f).mem = s.mem := rfl
@[simp] theorem State.mapCtl_stks (s : State) (c : CoreId) (f : Control → Control) :
    (s.mapCtl c f).stks = s.stks := rfl
@[simp] theorem State.mapCtl_scfg (s : State) (c : CoreId) (f : Control → Control) :
    (s.mapCtl c f).scfg = s.scfg := rfl
@[simp] theorem State.mapCtl_train (s : State) (c : CoreId) (f : Control → Control) :
    (s.mapCtl c f).train = s.train := rfl
@[simp] theorem State.mapCtl_fab (s : State) (c : CoreId) (f : Control → Control) :
    (s.mapCtl c f).fab = s.fab := rfl
@[simp] theorem State.mapCtl_cont (s : State) (c : CoreId) (f : Control → Control) :
    (s.mapCtl c f).cont = s.cont := rfl
@[simp] theorem State.mapCtl_recd (s : State) (c : CoreId) (f : Control → Control) :
    (s.mapCtl c f).recd = s.recd := rfl
@[simp] theorem State.mapCtl_box (s : State) (c : CoreId) (f : Control → Control) :
    (s.mapCtl c f).box = s.box := rfl
@[simp] theorem State.mapCtl_int (s : State) (c : CoreId) (f : Control → Control) :
    (s.mapCtl c f).int = s.int := rfl
@[simp] theorem State.mapCtl_rst (s : State) (c : CoreId) (f : Control → Control) :
    (s.mapCtl c f).rst = s.rst := rfl
@[simp] theorem State.mapCtl_balls (s : State) (c : CoreId) (f : Control → Control) :
    (s.mapCtl c f).balls = s.balls := rfl
@[simp] theorem State.mapCtl_rowan (s : State) (c : CoreId) (f : Control → Control) :
    (s.mapCtl c f).rowan = s.rowan := rfl
@[simp] theorem State.mapCtl_pow (s : State) (c : CoreId) (f : Control → Control) :
    (s.mapCtl c f).pow = s.pow := rfl
@[simp] theorem State.mapCtl_mgmt (s : State) (c : CoreId) (f : Control → Control) :
    (s.mapCtl c f).mgmt = s.mgmt := rfl
@[simp] theorem State.mapCtl_jtag (s : State) (c : CoreId) (f : Control → Control) :
    (s.mapCtl c f).jtag = s.jtag := rfl
@[simp] theorem State.mapCtl_inject (s : State) (c : CoreId) (f : Control → Control) :
    (s.mapCtl c f).inject = s.inject := rfl
@[simp] theorem State.mapCtl_spares (s : State) (c : CoreId) (f : Control → Control) :
    (s.mapCtl c f).spares = s.spares := rfl
@[simp] theorem State.mapCtl_time (s : State) (c : CoreId) (f : Control → Control) :
    (s.mapCtl c f).time = s.time := rfl
@[simp] theorem State.mapCtl_free (s : State) (c : CoreId) (f : Control → Control) :
    (s.mapCtl c f).free = s.free := rfl
@[simp] theorem State.mapCtl_pending (s : State) (c : CoreId) (f : Control → Control) :
    (s.mapCtl c f).pending = s.pending := rfl

@[simp] theorem State.setG_mem (s : State) (c : CoreId) (r : GReg) (v : Word) :
    (s.setG c r v).mem = s.mem := rfl
@[simp] theorem State.setG_stks (s : State) (c : CoreId) (r : GReg) (v : Word) :
    (s.setG c r v).stks = s.stks := rfl
@[simp] theorem State.setG_scfg (s : State) (c : CoreId) (r : GReg) (v : Word) :
    (s.setG c r v).scfg = s.scfg := rfl
@[simp] theorem State.setG_train (s : State) (c : CoreId) (r : GReg) (v : Word) :
    (s.setG c r v).train = s.train := rfl
@[simp] theorem State.setG_fab (s : State) (c : CoreId) (r : GReg) (v : Word) :
    (s.setG c r v).fab = s.fab := rfl
@[simp] theorem State.setG_cont (s : State) (c : CoreId) (r : GReg) (v : Word) :
    (s.setG c r v).cont = s.cont := rfl
@[simp] theorem State.setG_recd (s : State) (c : CoreId) (r : GReg) (v : Word) :
    (s.setG c r v).recd = s.recd := rfl
@[simp] theorem State.setG_box (s : State) (c : CoreId) (r : GReg) (v : Word) :
    (s.setG c r v).box = s.box := rfl
@[simp] theorem State.setG_int (s : State) (c : CoreId) (r : GReg) (v : Word) :
    (s.setG c r v).int = s.int := rfl
@[simp] theorem State.setG_rst (s : State) (c : CoreId) (r : GReg) (v : Word) :
    (s.setG c r v).rst = s.rst := rfl
@[simp] theorem State.setG_balls (s : State) (c : CoreId) (r : GReg) (v : Word) :
    (s.setG c r v).balls = s.balls := rfl
@[simp] theorem State.setG_rowan (s : State) (c : CoreId) (r : GReg) (v : Word) :
    (s.setG c r v).rowan = s.rowan := rfl
@[simp] theorem State.setG_pow (s : State) (c : CoreId) (r : GReg) (v : Word) :
    (s.setG c r v).pow = s.pow := rfl
@[simp] theorem State.setG_mgmt (s : State) (c : CoreId) (r : GReg) (v : Word) :
    (s.setG c r v).mgmt = s.mgmt := rfl
@[simp] theorem State.setG_jtag (s : State) (c : CoreId) (r : GReg) (v : Word) :
    (s.setG c r v).jtag = s.jtag := rfl
@[simp] theorem State.setG_inject (s : State) (c : CoreId) (r : GReg) (v : Word) :
    (s.setG c r v).inject = s.inject := rfl
@[simp] theorem State.setG_spares (s : State) (c : CoreId) (r : GReg) (v : Word) :
    (s.setG c r v).spares = s.spares := rfl
@[simp] theorem State.setG_time (s : State) (c : CoreId) (r : GReg) (v : Word) :
    (s.setG c r v).time = s.time := rfl
@[simp] theorem State.setG_free (s : State) (c : CoreId) (r : GReg) (v : Word) :
    (s.setG c r v).free = s.free := rfl
@[simp] theorem State.setG_pending (s : State) (c : CoreId) (r : GReg) (v : Word) :
    (s.setG c r v).pending = s.pending := rfl

@[simp] theorem State.setK_mem (s : State) (c : CoreId) (r : KReg) (v : Cap) :
    (s.setK c r v).mem = s.mem := rfl
@[simp] theorem State.setK_stks (s : State) (c : CoreId) (r : KReg) (v : Cap) :
    (s.setK c r v).stks = s.stks := rfl
@[simp] theorem State.setK_scfg (s : State) (c : CoreId) (r : KReg) (v : Cap) :
    (s.setK c r v).scfg = s.scfg := rfl
@[simp] theorem State.setK_train (s : State) (c : CoreId) (r : KReg) (v : Cap) :
    (s.setK c r v).train = s.train := rfl
@[simp] theorem State.setK_fab (s : State) (c : CoreId) (r : KReg) (v : Cap) :
    (s.setK c r v).fab = s.fab := rfl
@[simp] theorem State.setK_cont (s : State) (c : CoreId) (r : KReg) (v : Cap) :
    (s.setK c r v).cont = s.cont := rfl
@[simp] theorem State.setK_recd (s : State) (c : CoreId) (r : KReg) (v : Cap) :
    (s.setK c r v).recd = s.recd := rfl
@[simp] theorem State.setK_box (s : State) (c : CoreId) (r : KReg) (v : Cap) :
    (s.setK c r v).box = s.box := rfl
@[simp] theorem State.setK_int (s : State) (c : CoreId) (r : KReg) (v : Cap) :
    (s.setK c r v).int = s.int := rfl
@[simp] theorem State.setK_rst (s : State) (c : CoreId) (r : KReg) (v : Cap) :
    (s.setK c r v).rst = s.rst := rfl
@[simp] theorem State.setK_balls (s : State) (c : CoreId) (r : KReg) (v : Cap) :
    (s.setK c r v).balls = s.balls := rfl
@[simp] theorem State.setK_rowan (s : State) (c : CoreId) (r : KReg) (v : Cap) :
    (s.setK c r v).rowan = s.rowan := rfl
@[simp] theorem State.setK_pow (s : State) (c : CoreId) (r : KReg) (v : Cap) :
    (s.setK c r v).pow = s.pow := rfl
@[simp] theorem State.setK_mgmt (s : State) (c : CoreId) (r : KReg) (v : Cap) :
    (s.setK c r v).mgmt = s.mgmt := rfl
@[simp] theorem State.setK_jtag (s : State) (c : CoreId) (r : KReg) (v : Cap) :
    (s.setK c r v).jtag = s.jtag := rfl
@[simp] theorem State.setK_inject (s : State) (c : CoreId) (r : KReg) (v : Cap) :
    (s.setK c r v).inject = s.inject := rfl
@[simp] theorem State.setK_spares (s : State) (c : CoreId) (r : KReg) (v : Cap) :
    (s.setK c r v).spares = s.spares := rfl
@[simp] theorem State.setK_time (s : State) (c : CoreId) (r : KReg) (v : Cap) :
    (s.setK c r v).time = s.time := rfl
@[simp] theorem State.setK_free (s : State) (c : CoreId) (r : KReg) (v : Cap) :
    (s.setK c r v).free = s.free := rfl
@[simp] theorem State.setK_pending (s : State) (c : CoreId) (r : KReg) (v : Cap) :
    (s.setK c r v).pending = s.pending := rfl

@[simp] theorem State.setMem_cores (s : State) (m : Mem) :
    (s.setMem m).cores = s.cores := rfl
@[simp] theorem State.setMem_stks (s : State) (m : Mem) :
    (s.setMem m).stks = s.stks := rfl
@[simp] theorem State.setMem_scfg (s : State) (m : Mem) :
    (s.setMem m).scfg = s.scfg := rfl
@[simp] theorem State.setMem_train (s : State) (m : Mem) :
    (s.setMem m).train = s.train := rfl
@[simp] theorem State.setMem_fab (s : State) (m : Mem) :
    (s.setMem m).fab = s.fab := rfl
@[simp] theorem State.setMem_cont (s : State) (m : Mem) :
    (s.setMem m).cont = s.cont := rfl
@[simp] theorem State.setMem_recd (s : State) (m : Mem) :
    (s.setMem m).recd = s.recd := rfl
@[simp] theorem State.setMem_box (s : State) (m : Mem) :
    (s.setMem m).box = s.box := rfl
@[simp] theorem State.setMem_int (s : State) (m : Mem) :
    (s.setMem m).int = s.int := rfl
@[simp] theorem State.setMem_rst (s : State) (m : Mem) :
    (s.setMem m).rst = s.rst := rfl
@[simp] theorem State.setMem_balls (s : State) (m : Mem) :
    (s.setMem m).balls = s.balls := rfl
@[simp] theorem State.setMem_rowan (s : State) (m : Mem) :
    (s.setMem m).rowan = s.rowan := rfl
@[simp] theorem State.setMem_pow (s : State) (m : Mem) :
    (s.setMem m).pow = s.pow := rfl
@[simp] theorem State.setMem_mgmt (s : State) (m : Mem) :
    (s.setMem m).mgmt = s.mgmt := rfl
@[simp] theorem State.setMem_jtag (s : State) (m : Mem) :
    (s.setMem m).jtag = s.jtag := rfl
@[simp] theorem State.setMem_inject (s : State) (m : Mem) :
    (s.setMem m).inject = s.inject := rfl
@[simp] theorem State.setMem_spares (s : State) (m : Mem) :
    (s.setMem m).spares = s.spares := rfl
@[simp] theorem State.setMem_time (s : State) (m : Mem) :
    (s.setMem m).time = s.time := rfl
@[simp] theorem State.setMem_free (s : State) (m : Mem) :
    (s.setMem m).free = s.free := rfl
@[simp] theorem State.setMem_pending (s : State) (m : Mem) :
    (s.setMem m).pending = s.pending := rfl

@[simp] theorem State.setStack_cores (s : State) (i : StackId) (x : Stack) :
    (s.setStack i x).cores = s.cores := rfl
@[simp] theorem State.setStack_mem (s : State) (i : StackId) (x : Stack) :
    (s.setStack i x).mem = s.mem := rfl
@[simp] theorem State.setStack_scfg (s : State) (i : StackId) (x : Stack) :
    (s.setStack i x).scfg = s.scfg := rfl
@[simp] theorem State.setStack_train (s : State) (i : StackId) (x : Stack) :
    (s.setStack i x).train = s.train := rfl
@[simp] theorem State.setStack_fab (s : State) (i : StackId) (x : Stack) :
    (s.setStack i x).fab = s.fab := rfl
@[simp] theorem State.setStack_cont (s : State) (i : StackId) (x : Stack) :
    (s.setStack i x).cont = s.cont := rfl
@[simp] theorem State.setStack_recd (s : State) (i : StackId) (x : Stack) :
    (s.setStack i x).recd = s.recd := rfl
@[simp] theorem State.setStack_box (s : State) (i : StackId) (x : Stack) :
    (s.setStack i x).box = s.box := rfl
@[simp] theorem State.setStack_int (s : State) (i : StackId) (x : Stack) :
    (s.setStack i x).int = s.int := rfl
@[simp] theorem State.setStack_rst (s : State) (i : StackId) (x : Stack) :
    (s.setStack i x).rst = s.rst := rfl
@[simp] theorem State.setStack_balls (s : State) (i : StackId) (x : Stack) :
    (s.setStack i x).balls = s.balls := rfl
@[simp] theorem State.setStack_rowan (s : State) (i : StackId) (x : Stack) :
    (s.setStack i x).rowan = s.rowan := rfl
@[simp] theorem State.setStack_pow (s : State) (i : StackId) (x : Stack) :
    (s.setStack i x).pow = s.pow := rfl
@[simp] theorem State.setStack_mgmt (s : State) (i : StackId) (x : Stack) :
    (s.setStack i x).mgmt = s.mgmt := rfl
@[simp] theorem State.setStack_jtag (s : State) (i : StackId) (x : Stack) :
    (s.setStack i x).jtag = s.jtag := rfl
@[simp] theorem State.setStack_inject (s : State) (i : StackId) (x : Stack) :
    (s.setStack i x).inject = s.inject := rfl
@[simp] theorem State.setStack_spares (s : State) (i : StackId) (x : Stack) :
    (s.setStack i x).spares = s.spares := rfl
@[simp] theorem State.setStack_time (s : State) (i : StackId) (x : Stack) :
    (s.setStack i x).time = s.time := rfl
@[simp] theorem State.setStack_free (s : State) (i : StackId) (x : Stack) :
    (s.setStack i x).free = s.free := rfl
@[simp] theorem State.setStack_pending (s : State) (i : StackId) (x : Stack) :
    (s.setStack i x).pending = s.pending := rfl

@[simp] theorem State.mapStack_cores (s : State) (i : StackId) (f : Stack → Stack) :
    (s.mapStack i f).cores = s.cores := rfl
@[simp] theorem State.mapStack_mem (s : State) (i : StackId) (f : Stack → Stack) :
    (s.mapStack i f).mem = s.mem := rfl
@[simp] theorem State.mapStack_scfg (s : State) (i : StackId) (f : Stack → Stack) :
    (s.mapStack i f).scfg = s.scfg := rfl
@[simp] theorem State.mapStack_train (s : State) (i : StackId) (f : Stack → Stack) :
    (s.mapStack i f).train = s.train := rfl
@[simp] theorem State.mapStack_fab (s : State) (i : StackId) (f : Stack → Stack) :
    (s.mapStack i f).fab = s.fab := rfl
@[simp] theorem State.mapStack_cont (s : State) (i : StackId) (f : Stack → Stack) :
    (s.mapStack i f).cont = s.cont := rfl
@[simp] theorem State.mapStack_recd (s : State) (i : StackId) (f : Stack → Stack) :
    (s.mapStack i f).recd = s.recd := rfl
@[simp] theorem State.mapStack_box (s : State) (i : StackId) (f : Stack → Stack) :
    (s.mapStack i f).box = s.box := rfl
@[simp] theorem State.mapStack_int (s : State) (i : StackId) (f : Stack → Stack) :
    (s.mapStack i f).int = s.int := rfl
@[simp] theorem State.mapStack_rst (s : State) (i : StackId) (f : Stack → Stack) :
    (s.mapStack i f).rst = s.rst := rfl
@[simp] theorem State.mapStack_balls (s : State) (i : StackId) (f : Stack → Stack) :
    (s.mapStack i f).balls = s.balls := rfl
@[simp] theorem State.mapStack_rowan (s : State) (i : StackId) (f : Stack → Stack) :
    (s.mapStack i f).rowan = s.rowan := rfl
@[simp] theorem State.mapStack_pow (s : State) (i : StackId) (f : Stack → Stack) :
    (s.mapStack i f).pow = s.pow := rfl
@[simp] theorem State.mapStack_mgmt (s : State) (i : StackId) (f : Stack → Stack) :
    (s.mapStack i f).mgmt = s.mgmt := rfl
@[simp] theorem State.mapStack_jtag (s : State) (i : StackId) (f : Stack → Stack) :
    (s.mapStack i f).jtag = s.jtag := rfl
@[simp] theorem State.mapStack_inject (s : State) (i : StackId) (f : Stack → Stack) :
    (s.mapStack i f).inject = s.inject := rfl
@[simp] theorem State.mapStack_spares (s : State) (i : StackId) (f : Stack → Stack) :
    (s.mapStack i f).spares = s.spares := rfl
@[simp] theorem State.mapStack_time (s : State) (i : StackId) (f : Stack → Stack) :
    (s.mapStack i f).time = s.time := rfl
@[simp] theorem State.mapStack_free (s : State) (i : StackId) (f : Stack → Stack) :
    (s.mapStack i f).free = s.free := rfl
@[simp] theorem State.mapStack_pending (s : State) (i : StackId) (f : Stack → Stack) :
    (s.mapStack i f).pending = s.pending := rfl

@[simp] theorem State.setLedger_cores (s : State) (n : Nat) (l : Ledger) :
    (s.setLedger n l).cores = s.cores := rfl
@[simp] theorem State.setLedger_mem (s : State) (n : Nat) (l : Ledger) :
    (s.setLedger n l).mem = s.mem := rfl
@[simp] theorem State.setLedger_stks (s : State) (n : Nat) (l : Ledger) :
    (s.setLedger n l).stks = s.stks := rfl
@[simp] theorem State.setLedger_scfg (s : State) (n : Nat) (l : Ledger) :
    (s.setLedger n l).scfg = s.scfg := rfl
@[simp] theorem State.setLedger_train (s : State) (n : Nat) (l : Ledger) :
    (s.setLedger n l).train = s.train := rfl
@[simp] theorem State.setLedger_fab (s : State) (n : Nat) (l : Ledger) :
    (s.setLedger n l).fab = s.fab := rfl
@[simp] theorem State.setLedger_recd (s : State) (n : Nat) (l : Ledger) :
    (s.setLedger n l).recd = s.recd := rfl
@[simp] theorem State.setLedger_box (s : State) (n : Nat) (l : Ledger) :
    (s.setLedger n l).box = s.box := rfl
@[simp] theorem State.setLedger_int (s : State) (n : Nat) (l : Ledger) :
    (s.setLedger n l).int = s.int := rfl
@[simp] theorem State.setLedger_rst (s : State) (n : Nat) (l : Ledger) :
    (s.setLedger n l).rst = s.rst := rfl
@[simp] theorem State.setLedger_balls (s : State) (n : Nat) (l : Ledger) :
    (s.setLedger n l).balls = s.balls := rfl
@[simp] theorem State.setLedger_rowan (s : State) (n : Nat) (l : Ledger) :
    (s.setLedger n l).rowan = s.rowan := rfl
@[simp] theorem State.setLedger_pow (s : State) (n : Nat) (l : Ledger) :
    (s.setLedger n l).pow = s.pow := rfl
@[simp] theorem State.setLedger_mgmt (s : State) (n : Nat) (l : Ledger) :
    (s.setLedger n l).mgmt = s.mgmt := rfl
@[simp] theorem State.setLedger_jtag (s : State) (n : Nat) (l : Ledger) :
    (s.setLedger n l).jtag = s.jtag := rfl
@[simp] theorem State.setLedger_inject (s : State) (n : Nat) (l : Ledger) :
    (s.setLedger n l).inject = s.inject := rfl
@[simp] theorem State.setLedger_spares (s : State) (n : Nat) (l : Ledger) :
    (s.setLedger n l).spares = s.spares := rfl
@[simp] theorem State.setLedger_time (s : State) (n : Nat) (l : Ledger) :
    (s.setLedger n l).time = s.time := rfl
@[simp] theorem State.setLedger_free (s : State) (n : Nat) (l : Ledger) :
    (s.setLedger n l).free = s.free := rfl
@[simp] theorem State.setLedger_pending (s : State) (n : Nat) (l : Ledger) :
    (s.setLedger n l).pending = s.pending := rfl

@[simp] theorem State.setQueue_cores (s : State) (q : Fin 5) (x : DispatchQueue) :
    (s.setQueue q x).cores = s.cores := rfl
@[simp] theorem State.setQueue_mem (s : State) (q : Fin 5) (x : DispatchQueue) :
    (s.setQueue q x).mem = s.mem := rfl
@[simp] theorem State.setQueue_stks (s : State) (q : Fin 5) (x : DispatchQueue) :
    (s.setQueue q x).stks = s.stks := rfl
@[simp] theorem State.setQueue_scfg (s : State) (q : Fin 5) (x : DispatchQueue) :
    (s.setQueue q x).scfg = s.scfg := rfl
@[simp] theorem State.setQueue_train (s : State) (q : Fin 5) (x : DispatchQueue) :
    (s.setQueue q x).train = s.train := rfl
@[simp] theorem State.setQueue_fab (s : State) (q : Fin 5) (x : DispatchQueue) :
    (s.setQueue q x).fab = s.fab := rfl
@[simp] theorem State.setQueue_recd (s : State) (q : Fin 5) (x : DispatchQueue) :
    (s.setQueue q x).recd = s.recd := rfl
@[simp] theorem State.setQueue_box (s : State) (q : Fin 5) (x : DispatchQueue) :
    (s.setQueue q x).box = s.box := rfl
@[simp] theorem State.setQueue_int (s : State) (q : Fin 5) (x : DispatchQueue) :
    (s.setQueue q x).int = s.int := rfl
@[simp] theorem State.setQueue_rst (s : State) (q : Fin 5) (x : DispatchQueue) :
    (s.setQueue q x).rst = s.rst := rfl
@[simp] theorem State.setQueue_balls (s : State) (q : Fin 5) (x : DispatchQueue) :
    (s.setQueue q x).balls = s.balls := rfl
@[simp] theorem State.setQueue_rowan (s : State) (q : Fin 5) (x : DispatchQueue) :
    (s.setQueue q x).rowan = s.rowan := rfl
@[simp] theorem State.setQueue_pow (s : State) (q : Fin 5) (x : DispatchQueue) :
    (s.setQueue q x).pow = s.pow := rfl
@[simp] theorem State.setQueue_mgmt (s : State) (q : Fin 5) (x : DispatchQueue) :
    (s.setQueue q x).mgmt = s.mgmt := rfl
@[simp] theorem State.setQueue_jtag (s : State) (q : Fin 5) (x : DispatchQueue) :
    (s.setQueue q x).jtag = s.jtag := rfl
@[simp] theorem State.setQueue_inject (s : State) (q : Fin 5) (x : DispatchQueue) :
    (s.setQueue q x).inject = s.inject := rfl
@[simp] theorem State.setQueue_spares (s : State) (q : Fin 5) (x : DispatchQueue) :
    (s.setQueue q x).spares = s.spares := rfl
@[simp] theorem State.setQueue_time (s : State) (q : Fin 5) (x : DispatchQueue) :
    (s.setQueue q x).time = s.time := rfl
@[simp] theorem State.setQueue_free (s : State) (q : Fin 5) (x : DispatchQueue) :
    (s.setQueue q x).free = s.free := rfl
@[simp] theorem State.setQueue_pending (s : State) (q : Fin 5) (x : DispatchQueue) :
    (s.setQueue q x).pending = s.pending := rfl

@[simp] theorem State.setTarget_cores (s : State) (n : Nat) (b : Target) :
    (s.setTarget n b).cores = s.cores := rfl
@[simp] theorem State.setTarget_mem (s : State) (n : Nat) (b : Target) :
    (s.setTarget n b).mem = s.mem := rfl
@[simp] theorem State.setTarget_stks (s : State) (n : Nat) (b : Target) :
    (s.setTarget n b).stks = s.stks := rfl
@[simp] theorem State.setTarget_scfg (s : State) (n : Nat) (b : Target) :
    (s.setTarget n b).scfg = s.scfg := rfl
@[simp] theorem State.setTarget_train (s : State) (n : Nat) (b : Target) :
    (s.setTarget n b).train = s.train := rfl
@[simp] theorem State.setTarget_fab (s : State) (n : Nat) (b : Target) :
    (s.setTarget n b).fab = s.fab := rfl
@[simp] theorem State.setTarget_cont (s : State) (n : Nat) (b : Target) :
    (s.setTarget n b).cont = s.cont := rfl
@[simp] theorem State.setTarget_recd (s : State) (n : Nat) (b : Target) :
    (s.setTarget n b).recd = s.recd := rfl
@[simp] theorem State.setTarget_box (s : State) (n : Nat) (b : Target) :
    (s.setTarget n b).box = s.box := rfl
@[simp] theorem State.setTarget_rst (s : State) (n : Nat) (b : Target) :
    (s.setTarget n b).rst = s.rst := rfl
@[simp] theorem State.setTarget_balls (s : State) (n : Nat) (b : Target) :
    (s.setTarget n b).balls = s.balls := rfl
@[simp] theorem State.setTarget_rowan (s : State) (n : Nat) (b : Target) :
    (s.setTarget n b).rowan = s.rowan := rfl
@[simp] theorem State.setTarget_pow (s : State) (n : Nat) (b : Target) :
    (s.setTarget n b).pow = s.pow := rfl
@[simp] theorem State.setTarget_mgmt (s : State) (n : Nat) (b : Target) :
    (s.setTarget n b).mgmt = s.mgmt := rfl
@[simp] theorem State.setTarget_jtag (s : State) (n : Nat) (b : Target) :
    (s.setTarget n b).jtag = s.jtag := rfl
@[simp] theorem State.setTarget_inject (s : State) (n : Nat) (b : Target) :
    (s.setTarget n b).inject = s.inject := rfl
@[simp] theorem State.setTarget_spares (s : State) (n : Nat) (b : Target) :
    (s.setTarget n b).spares = s.spares := rfl
@[simp] theorem State.setTarget_time (s : State) (n : Nat) (b : Target) :
    (s.setTarget n b).time = s.time := rfl
@[simp] theorem State.setTarget_free (s : State) (n : Nat) (b : Target) :
    (s.setTarget n b).free = s.free := rfl
@[simp] theorem State.setTarget_pending (s : State) (n : Nat) (b : Target) :
    (s.setTarget n b).pending = s.pending := rfl

@[simp] theorem State.log_cores (s : State) (sev : BitVec 3) (code : BitVec 16) (src p q r : BitVec 32) :
    (s.log sev code src p q r).cores = s.cores := rfl
@[simp] theorem State.log_mem (s : State) (sev : BitVec 3) (code : BitVec 16) (src p q r : BitVec 32) :
    (s.log sev code src p q r).mem = s.mem := rfl
@[simp] theorem State.log_stks (s : State) (sev : BitVec 3) (code : BitVec 16) (src p q r : BitVec 32) :
    (s.log sev code src p q r).stks = s.stks := rfl
@[simp] theorem State.log_scfg (s : State) (sev : BitVec 3) (code : BitVec 16) (src p q r : BitVec 32) :
    (s.log sev code src p q r).scfg = s.scfg := rfl
@[simp] theorem State.log_train (s : State) (sev : BitVec 3) (code : BitVec 16) (src p q r : BitVec 32) :
    (s.log sev code src p q r).train = s.train := rfl
@[simp] theorem State.log_fab (s : State) (sev : BitVec 3) (code : BitVec 16) (src p q r : BitVec 32) :
    (s.log sev code src p q r).fab = s.fab := rfl
@[simp] theorem State.log_cont (s : State) (sev : BitVec 3) (code : BitVec 16) (src p q r : BitVec 32) :
    (s.log sev code src p q r).cont = s.cont := rfl
@[simp] theorem State.log_box (s : State) (sev : BitVec 3) (code : BitVec 16) (src p q r : BitVec 32) :
    (s.log sev code src p q r).box = s.box := rfl
@[simp] theorem State.log_int (s : State) (sev : BitVec 3) (code : BitVec 16) (src p q r : BitVec 32) :
    (s.log sev code src p q r).int = s.int := rfl
@[simp] theorem State.log_rst (s : State) (sev : BitVec 3) (code : BitVec 16) (src p q r : BitVec 32) :
    (s.log sev code src p q r).rst = s.rst := rfl
@[simp] theorem State.log_balls (s : State) (sev : BitVec 3) (code : BitVec 16) (src p q r : BitVec 32) :
    (s.log sev code src p q r).balls = s.balls := rfl
@[simp] theorem State.log_rowan (s : State) (sev : BitVec 3) (code : BitVec 16) (src p q r : BitVec 32) :
    (s.log sev code src p q r).rowan = s.rowan := rfl
@[simp] theorem State.log_pow (s : State) (sev : BitVec 3) (code : BitVec 16) (src p q r : BitVec 32) :
    (s.log sev code src p q r).pow = s.pow := rfl
@[simp] theorem State.log_mgmt (s : State) (sev : BitVec 3) (code : BitVec 16) (src p q r : BitVec 32) :
    (s.log sev code src p q r).mgmt = s.mgmt := rfl
@[simp] theorem State.log_jtag (s : State) (sev : BitVec 3) (code : BitVec 16) (src p q r : BitVec 32) :
    (s.log sev code src p q r).jtag = s.jtag := rfl
@[simp] theorem State.log_inject (s : State) (sev : BitVec 3) (code : BitVec 16) (src p q r : BitVec 32) :
    (s.log sev code src p q r).inject = s.inject := rfl
@[simp] theorem State.log_spares (s : State) (sev : BitVec 3) (code : BitVec 16) (src p q r : BitVec 32) :
    (s.log sev code src p q r).spares = s.spares := rfl
@[simp] theorem State.log_time (s : State) (sev : BitVec 3) (code : BitVec 16) (src p q r : BitVec 32) :
    (s.log sev code src p q r).time = s.time := rfl
@[simp] theorem State.log_free (s : State) (sev : BitVec 3) (code : BitVec 16) (src p q r : BitVec 32) :
    (s.log sev code src p q r).free = s.free := rfl
@[simp] theorem State.log_pending (s : State) (sev : BitVec 3) (code : BitVec 16) (src p q r : BitVec 32) :
    (s.log sev code src p q r).pending = s.pending := rfl

@[simp] theorem State.send_cores (s : State) (x : TxItem) :
    (s.send x).cores = s.cores := rfl
@[simp] theorem State.send_mem (s : State) (x : TxItem) :
    (s.send x).mem = s.mem := rfl
@[simp] theorem State.send_stks (s : State) (x : TxItem) :
    (s.send x).stks = s.stks := rfl
@[simp] theorem State.send_scfg (s : State) (x : TxItem) :
    (s.send x).scfg = s.scfg := rfl
@[simp] theorem State.send_train (s : State) (x : TxItem) :
    (s.send x).train = s.train := rfl
@[simp] theorem State.send_cont (s : State) (x : TxItem) :
    (s.send x).cont = s.cont := rfl
@[simp] theorem State.send_recd (s : State) (x : TxItem) :
    (s.send x).recd = s.recd := rfl
@[simp] theorem State.send_box (s : State) (x : TxItem) :
    (s.send x).box = s.box := rfl
@[simp] theorem State.send_int (s : State) (x : TxItem) :
    (s.send x).int = s.int := rfl
@[simp] theorem State.send_rst (s : State) (x : TxItem) :
    (s.send x).rst = s.rst := rfl
@[simp] theorem State.send_balls (s : State) (x : TxItem) :
    (s.send x).balls = s.balls := rfl
@[simp] theorem State.send_rowan (s : State) (x : TxItem) :
    (s.send x).rowan = s.rowan := rfl
@[simp] theorem State.send_pow (s : State) (x : TxItem) :
    (s.send x).pow = s.pow := rfl
@[simp] theorem State.send_mgmt (s : State) (x : TxItem) :
    (s.send x).mgmt = s.mgmt := rfl
@[simp] theorem State.send_jtag (s : State) (x : TxItem) :
    (s.send x).jtag = s.jtag := rfl
@[simp] theorem State.send_inject (s : State) (x : TxItem) :
    (s.send x).inject = s.inject := rfl
@[simp] theorem State.send_spares (s : State) (x : TxItem) :
    (s.send x).spares = s.spares := rfl
@[simp] theorem State.send_time (s : State) (x : TxItem) :
    (s.send x).time = s.time := rfl
@[simp] theorem State.send_free (s : State) (x : TxItem) :
    (s.send x).free = s.free := rfl
@[simp] theorem State.send_pending (s : State) (x : TxItem) :
    (s.send x).pending = s.pending := rfl

@[simp] theorem State.mapFab_cores (s : State) (f : Fabric → Fabric) :
    (s.mapFab f).cores = s.cores := rfl
@[simp] theorem State.mapFab_mem (s : State) (f : Fabric → Fabric) :
    (s.mapFab f).mem = s.mem := rfl
@[simp] theorem State.mapFab_stks (s : State) (f : Fabric → Fabric) :
    (s.mapFab f).stks = s.stks := rfl
@[simp] theorem State.mapFab_scfg (s : State) (f : Fabric → Fabric) :
    (s.mapFab f).scfg = s.scfg := rfl
@[simp] theorem State.mapFab_train (s : State) (f : Fabric → Fabric) :
    (s.mapFab f).train = s.train := rfl
@[simp] theorem State.mapFab_cont (s : State) (f : Fabric → Fabric) :
    (s.mapFab f).cont = s.cont := rfl
@[simp] theorem State.mapFab_recd (s : State) (f : Fabric → Fabric) :
    (s.mapFab f).recd = s.recd := rfl
@[simp] theorem State.mapFab_box (s : State) (f : Fabric → Fabric) :
    (s.mapFab f).box = s.box := rfl
@[simp] theorem State.mapFab_int (s : State) (f : Fabric → Fabric) :
    (s.mapFab f).int = s.int := rfl
@[simp] theorem State.mapFab_rst (s : State) (f : Fabric → Fabric) :
    (s.mapFab f).rst = s.rst := rfl
@[simp] theorem State.mapFab_balls (s : State) (f : Fabric → Fabric) :
    (s.mapFab f).balls = s.balls := rfl
@[simp] theorem State.mapFab_rowan (s : State) (f : Fabric → Fabric) :
    (s.mapFab f).rowan = s.rowan := rfl
@[simp] theorem State.mapFab_pow (s : State) (f : Fabric → Fabric) :
    (s.mapFab f).pow = s.pow := rfl
@[simp] theorem State.mapFab_mgmt (s : State) (f : Fabric → Fabric) :
    (s.mapFab f).mgmt = s.mgmt := rfl
@[simp] theorem State.mapFab_jtag (s : State) (f : Fabric → Fabric) :
    (s.mapFab f).jtag = s.jtag := rfl
@[simp] theorem State.mapFab_inject (s : State) (f : Fabric → Fabric) :
    (s.mapFab f).inject = s.inject := rfl
@[simp] theorem State.mapFab_spares (s : State) (f : Fabric → Fabric) :
    (s.mapFab f).spares = s.spares := rfl
@[simp] theorem State.mapFab_time (s : State) (f : Fabric → Fabric) :
    (s.mapFab f).time = s.time := rfl
@[simp] theorem State.mapFab_free (s : State) (f : Fabric → Fabric) :
    (s.mapFab f).free = s.free := rfl
@[simp] theorem State.mapFab_pending (s : State) (f : Fabric → Fabric) :
    (s.mapFab f).pending = s.pending := rfl

@[simp] theorem State.mapTrain_cores (s : State) (f : Training → Training) :
    (s.mapTrain f).cores = s.cores := rfl
@[simp] theorem State.mapTrain_mem (s : State) (f : Training → Training) :
    (s.mapTrain f).mem = s.mem := rfl
@[simp] theorem State.mapTrain_stks (s : State) (f : Training → Training) :
    (s.mapTrain f).stks = s.stks := rfl
@[simp] theorem State.mapTrain_scfg (s : State) (f : Training → Training) :
    (s.mapTrain f).scfg = s.scfg := rfl
@[simp] theorem State.mapTrain_fab (s : State) (f : Training → Training) :
    (s.mapTrain f).fab = s.fab := rfl
@[simp] theorem State.mapTrain_cont (s : State) (f : Training → Training) :
    (s.mapTrain f).cont = s.cont := rfl
@[simp] theorem State.mapTrain_recd (s : State) (f : Training → Training) :
    (s.mapTrain f).recd = s.recd := rfl
@[simp] theorem State.mapTrain_box (s : State) (f : Training → Training) :
    (s.mapTrain f).box = s.box := rfl
@[simp] theorem State.mapTrain_int (s : State) (f : Training → Training) :
    (s.mapTrain f).int = s.int := rfl
@[simp] theorem State.mapTrain_rst (s : State) (f : Training → Training) :
    (s.mapTrain f).rst = s.rst := rfl
@[simp] theorem State.mapTrain_balls (s : State) (f : Training → Training) :
    (s.mapTrain f).balls = s.balls := rfl
@[simp] theorem State.mapTrain_rowan (s : State) (f : Training → Training) :
    (s.mapTrain f).rowan = s.rowan := rfl
@[simp] theorem State.mapTrain_pow (s : State) (f : Training → Training) :
    (s.mapTrain f).pow = s.pow := rfl
@[simp] theorem State.mapTrain_mgmt (s : State) (f : Training → Training) :
    (s.mapTrain f).mgmt = s.mgmt := rfl
@[simp] theorem State.mapTrain_jtag (s : State) (f : Training → Training) :
    (s.mapTrain f).jtag = s.jtag := rfl
@[simp] theorem State.mapTrain_inject (s : State) (f : Training → Training) :
    (s.mapTrain f).inject = s.inject := rfl
@[simp] theorem State.mapTrain_spares (s : State) (f : Training → Training) :
    (s.mapTrain f).spares = s.spares := rfl
@[simp] theorem State.mapTrain_time (s : State) (f : Training → Training) :
    (s.mapTrain f).time = s.time := rfl
@[simp] theorem State.mapTrain_free (s : State) (f : Training → Training) :
    (s.mapTrain f).free = s.free := rfl
@[simp] theorem State.mapTrain_pending (s : State) (f : Training → Training) :
    (s.mapTrain f).pending = s.pending := rfl

@[simp] theorem State.mapRowan_cores (s : State) (f : Rowan → Rowan) :
    (s.mapRowan f).cores = s.cores := rfl
@[simp] theorem State.mapRowan_mem (s : State) (f : Rowan → Rowan) :
    (s.mapRowan f).mem = s.mem := rfl
@[simp] theorem State.mapRowan_stks (s : State) (f : Rowan → Rowan) :
    (s.mapRowan f).stks = s.stks := rfl
@[simp] theorem State.mapRowan_scfg (s : State) (f : Rowan → Rowan) :
    (s.mapRowan f).scfg = s.scfg := rfl
@[simp] theorem State.mapRowan_train (s : State) (f : Rowan → Rowan) :
    (s.mapRowan f).train = s.train := rfl
@[simp] theorem State.mapRowan_fab (s : State) (f : Rowan → Rowan) :
    (s.mapRowan f).fab = s.fab := rfl
@[simp] theorem State.mapRowan_cont (s : State) (f : Rowan → Rowan) :
    (s.mapRowan f).cont = s.cont := rfl
@[simp] theorem State.mapRowan_recd (s : State) (f : Rowan → Rowan) :
    (s.mapRowan f).recd = s.recd := rfl
@[simp] theorem State.mapRowan_box (s : State) (f : Rowan → Rowan) :
    (s.mapRowan f).box = s.box := rfl
@[simp] theorem State.mapRowan_int (s : State) (f : Rowan → Rowan) :
    (s.mapRowan f).int = s.int := rfl
@[simp] theorem State.mapRowan_rst (s : State) (f : Rowan → Rowan) :
    (s.mapRowan f).rst = s.rst := rfl
@[simp] theorem State.mapRowan_balls (s : State) (f : Rowan → Rowan) :
    (s.mapRowan f).balls = s.balls := rfl
@[simp] theorem State.mapRowan_pow (s : State) (f : Rowan → Rowan) :
    (s.mapRowan f).pow = s.pow := rfl
@[simp] theorem State.mapRowan_mgmt (s : State) (f : Rowan → Rowan) :
    (s.mapRowan f).mgmt = s.mgmt := rfl
@[simp] theorem State.mapRowan_jtag (s : State) (f : Rowan → Rowan) :
    (s.mapRowan f).jtag = s.jtag := rfl
@[simp] theorem State.mapRowan_inject (s : State) (f : Rowan → Rowan) :
    (s.mapRowan f).inject = s.inject := rfl
@[simp] theorem State.mapRowan_spares (s : State) (f : Rowan → Rowan) :
    (s.mapRowan f).spares = s.spares := rfl
@[simp] theorem State.mapRowan_time (s : State) (f : Rowan → Rowan) :
    (s.mapRowan f).time = s.time := rfl
@[simp] theorem State.mapRowan_free (s : State) (f : Rowan → Rowan) :
    (s.mapRowan f).free = s.free := rfl
@[simp] theorem State.mapRowan_pending (s : State) (f : Rowan → Rowan) :
    (s.mapRowan f).pending = s.pending := rfl

@[simp] theorem State.mapPow_cores (s : State) (f : Power → Power) :
    (s.mapPow f).cores = s.cores := rfl
@[simp] theorem State.mapPow_mem (s : State) (f : Power → Power) :
    (s.mapPow f).mem = s.mem := rfl
@[simp] theorem State.mapPow_stks (s : State) (f : Power → Power) :
    (s.mapPow f).stks = s.stks := rfl
@[simp] theorem State.mapPow_scfg (s : State) (f : Power → Power) :
    (s.mapPow f).scfg = s.scfg := rfl
@[simp] theorem State.mapPow_train (s : State) (f : Power → Power) :
    (s.mapPow f).train = s.train := rfl
@[simp] theorem State.mapPow_fab (s : State) (f : Power → Power) :
    (s.mapPow f).fab = s.fab := rfl
@[simp] theorem State.mapPow_cont (s : State) (f : Power → Power) :
    (s.mapPow f).cont = s.cont := rfl
@[simp] theorem State.mapPow_recd (s : State) (f : Power → Power) :
    (s.mapPow f).recd = s.recd := rfl
@[simp] theorem State.mapPow_box (s : State) (f : Power → Power) :
    (s.mapPow f).box = s.box := rfl
@[simp] theorem State.mapPow_int (s : State) (f : Power → Power) :
    (s.mapPow f).int = s.int := rfl
@[simp] theorem State.mapPow_rst (s : State) (f : Power → Power) :
    (s.mapPow f).rst = s.rst := rfl
@[simp] theorem State.mapPow_balls (s : State) (f : Power → Power) :
    (s.mapPow f).balls = s.balls := rfl
@[simp] theorem State.mapPow_rowan (s : State) (f : Power → Power) :
    (s.mapPow f).rowan = s.rowan := rfl
@[simp] theorem State.mapPow_mgmt (s : State) (f : Power → Power) :
    (s.mapPow f).mgmt = s.mgmt := rfl
@[simp] theorem State.mapPow_jtag (s : State) (f : Power → Power) :
    (s.mapPow f).jtag = s.jtag := rfl
@[simp] theorem State.mapPow_inject (s : State) (f : Power → Power) :
    (s.mapPow f).inject = s.inject := rfl
@[simp] theorem State.mapPow_spares (s : State) (f : Power → Power) :
    (s.mapPow f).spares = s.spares := rfl
@[simp] theorem State.mapPow_time (s : State) (f : Power → Power) :
    (s.mapPow f).time = s.time := rfl
@[simp] theorem State.mapPow_free (s : State) (f : Power → Power) :
    (s.mapPow f).free = s.free := rfl
@[simp] theorem State.mapPow_pending (s : State) (f : Power → Power) :
    (s.mapPow f).pending = s.pending := rfl

@[simp] theorem State.mapMgmt_cores (s : State) (f : Mgmt → Mgmt) :
    (s.mapMgmt f).cores = s.cores := rfl
@[simp] theorem State.mapMgmt_mem (s : State) (f : Mgmt → Mgmt) :
    (s.mapMgmt f).mem = s.mem := rfl
@[simp] theorem State.mapMgmt_stks (s : State) (f : Mgmt → Mgmt) :
    (s.mapMgmt f).stks = s.stks := rfl
@[simp] theorem State.mapMgmt_scfg (s : State) (f : Mgmt → Mgmt) :
    (s.mapMgmt f).scfg = s.scfg := rfl
@[simp] theorem State.mapMgmt_train (s : State) (f : Mgmt → Mgmt) :
    (s.mapMgmt f).train = s.train := rfl
@[simp] theorem State.mapMgmt_fab (s : State) (f : Mgmt → Mgmt) :
    (s.mapMgmt f).fab = s.fab := rfl
@[simp] theorem State.mapMgmt_cont (s : State) (f : Mgmt → Mgmt) :
    (s.mapMgmt f).cont = s.cont := rfl
@[simp] theorem State.mapMgmt_recd (s : State) (f : Mgmt → Mgmt) :
    (s.mapMgmt f).recd = s.recd := rfl
@[simp] theorem State.mapMgmt_box (s : State) (f : Mgmt → Mgmt) :
    (s.mapMgmt f).box = s.box := rfl
@[simp] theorem State.mapMgmt_int (s : State) (f : Mgmt → Mgmt) :
    (s.mapMgmt f).int = s.int := rfl
@[simp] theorem State.mapMgmt_rst (s : State) (f : Mgmt → Mgmt) :
    (s.mapMgmt f).rst = s.rst := rfl
@[simp] theorem State.mapMgmt_balls (s : State) (f : Mgmt → Mgmt) :
    (s.mapMgmt f).balls = s.balls := rfl
@[simp] theorem State.mapMgmt_rowan (s : State) (f : Mgmt → Mgmt) :
    (s.mapMgmt f).rowan = s.rowan := rfl
@[simp] theorem State.mapMgmt_pow (s : State) (f : Mgmt → Mgmt) :
    (s.mapMgmt f).pow = s.pow := rfl
@[simp] theorem State.mapMgmt_jtag (s : State) (f : Mgmt → Mgmt) :
    (s.mapMgmt f).jtag = s.jtag := rfl
@[simp] theorem State.mapMgmt_inject (s : State) (f : Mgmt → Mgmt) :
    (s.mapMgmt f).inject = s.inject := rfl
@[simp] theorem State.mapMgmt_spares (s : State) (f : Mgmt → Mgmt) :
    (s.mapMgmt f).spares = s.spares := rfl
@[simp] theorem State.mapMgmt_time (s : State) (f : Mgmt → Mgmt) :
    (s.mapMgmt f).time = s.time := rfl
@[simp] theorem State.mapMgmt_free (s : State) (f : Mgmt → Mgmt) :
    (s.mapMgmt f).free = s.free := rfl
@[simp] theorem State.mapMgmt_pending (s : State) (f : Mgmt → Mgmt) :
    (s.mapMgmt f).pending = s.pending := rfl

@[simp] theorem State.setSession_cores (s : State) (vlan : Bool) (i : Fin 4) (x : Option Session) :
    (s.setSession vlan i x).cores = s.cores := rfl
@[simp] theorem State.setSession_mem (s : State) (vlan : Bool) (i : Fin 4) (x : Option Session) :
    (s.setSession vlan i x).mem = s.mem := rfl
@[simp] theorem State.setSession_stks (s : State) (vlan : Bool) (i : Fin 4) (x : Option Session) :
    (s.setSession vlan i x).stks = s.stks := rfl
@[simp] theorem State.setSession_scfg (s : State) (vlan : Bool) (i : Fin 4) (x : Option Session) :
    (s.setSession vlan i x).scfg = s.scfg := rfl
@[simp] theorem State.setSession_train (s : State) (vlan : Bool) (i : Fin 4) (x : Option Session) :
    (s.setSession vlan i x).train = s.train := rfl
@[simp] theorem State.setSession_fab (s : State) (vlan : Bool) (i : Fin 4) (x : Option Session) :
    (s.setSession vlan i x).fab = s.fab := rfl
@[simp] theorem State.setSession_cont (s : State) (vlan : Bool) (i : Fin 4) (x : Option Session) :
    (s.setSession vlan i x).cont = s.cont := rfl
@[simp] theorem State.setSession_recd (s : State) (vlan : Bool) (i : Fin 4) (x : Option Session) :
    (s.setSession vlan i x).recd = s.recd := rfl
@[simp] theorem State.setSession_box (s : State) (vlan : Bool) (i : Fin 4) (x : Option Session) :
    (s.setSession vlan i x).box = s.box := rfl
@[simp] theorem State.setSession_int (s : State) (vlan : Bool) (i : Fin 4) (x : Option Session) :
    (s.setSession vlan i x).int = s.int := rfl
@[simp] theorem State.setSession_rst (s : State) (vlan : Bool) (i : Fin 4) (x : Option Session) :
    (s.setSession vlan i x).rst = s.rst := rfl
@[simp] theorem State.setSession_balls (s : State) (vlan : Bool) (i : Fin 4) (x : Option Session) :
    (s.setSession vlan i x).balls = s.balls := rfl
@[simp] theorem State.setSession_rowan (s : State) (vlan : Bool) (i : Fin 4) (x : Option Session) :
    (s.setSession vlan i x).rowan = s.rowan := rfl
@[simp] theorem State.setSession_pow (s : State) (vlan : Bool) (i : Fin 4) (x : Option Session) :
    (s.setSession vlan i x).pow = s.pow := rfl
@[simp] theorem State.setSession_jtag (s : State) (vlan : Bool) (i : Fin 4) (x : Option Session) :
    (s.setSession vlan i x).jtag = s.jtag := rfl
@[simp] theorem State.setSession_inject (s : State) (vlan : Bool) (i : Fin 4) (x : Option Session) :
    (s.setSession vlan i x).inject = s.inject := rfl
@[simp] theorem State.setSession_spares (s : State) (vlan : Bool) (i : Fin 4) (x : Option Session) :
    (s.setSession vlan i x).spares = s.spares := rfl
@[simp] theorem State.setSession_time (s : State) (vlan : Bool) (i : Fin 4) (x : Option Session) :
    (s.setSession vlan i x).time = s.time := rfl
@[simp] theorem State.setSession_free (s : State) (vlan : Bool) (i : Fin 4) (x : Option Session) :
    (s.setSession vlan i x).free = s.free := rfl
@[simp] theorem State.setSession_pending (s : State) (vlan : Bool) (i : Fin 4) (x : Option Session) :
    (s.setSession vlan i x).pending = s.pending := rfl

@[simp] theorem State.takeFree_cores (s : State) : s.takeFree.2.cores = s.cores := rfl
@[simp] theorem State.takeFree_mem (s : State) : s.takeFree.2.mem = s.mem := rfl
@[simp] theorem State.takeFree_stks (s : State) : s.takeFree.2.stks = s.stks := rfl
@[simp] theorem State.takeFree_scfg (s : State) : s.takeFree.2.scfg = s.scfg := rfl
@[simp] theorem State.takeFree_train (s : State) : s.takeFree.2.train = s.train := rfl
@[simp] theorem State.takeFree_fab (s : State) : s.takeFree.2.fab = s.fab := rfl
@[simp] theorem State.takeFree_cont (s : State) : s.takeFree.2.cont = s.cont := rfl
@[simp] theorem State.takeFree_recd (s : State) : s.takeFree.2.recd = s.recd := rfl
@[simp] theorem State.takeFree_box (s : State) : s.takeFree.2.box = s.box := rfl
@[simp] theorem State.takeFree_int (s : State) : s.takeFree.2.int = s.int := rfl
@[simp] theorem State.takeFree_rst (s : State) : s.takeFree.2.rst = s.rst := rfl
@[simp] theorem State.takeFree_balls (s : State) : s.takeFree.2.balls = s.balls := rfl
@[simp] theorem State.takeFree_rowan (s : State) : s.takeFree.2.rowan = s.rowan := rfl
@[simp] theorem State.takeFree_pow (s : State) : s.takeFree.2.pow = s.pow := rfl
@[simp] theorem State.takeFree_mgmt (s : State) : s.takeFree.2.mgmt = s.mgmt := rfl
@[simp] theorem State.takeFree_jtag (s : State) : s.takeFree.2.jtag = s.jtag := rfl
@[simp] theorem State.takeFree_inject (s : State) : s.takeFree.2.inject = s.inject := rfl
@[simp] theorem State.takeFree_spares (s : State) : s.takeFree.2.spares = s.spares := rfl
@[simp] theorem State.takeFree_time (s : State) : s.takeFree.2.time = s.time := rfl
@[simp] theorem State.takeFree_pending (s : State) : s.takeFree.2.pending = s.pending := rfl

/-! ### Cores through the other updates -/

@[simp] theorem State.setMem_core (s : State) (m : Mem) (d : CoreId) :
    (s.setMem m).core d = s.core d := rfl
@[simp] theorem State.setStack_core (s : State) (i : StackId) (x : Stack) (d : CoreId) :
    (s.setStack i x).core d = s.core d := rfl
@[simp] theorem State.mapStack_core (s : State) (i : StackId) (f : Stack → Stack) (d : CoreId) :
    (s.mapStack i f).core d = s.core d := rfl
@[simp] theorem State.setLedger_core (s : State) (n : Nat) (l : Ledger) (d : CoreId) :
    (s.setLedger n l).core d = s.core d := rfl
@[simp] theorem State.setQueue_core (s : State) (q : Fin 5) (x : DispatchQueue) (d : CoreId) :
    (s.setQueue q x).core d = s.core d := rfl
@[simp] theorem State.setTarget_core (s : State) (n : Nat) (b : Target) (d : CoreId) :
    (s.setTarget n b).core d = s.core d := rfl
@[simp] theorem State.log_core (s : State) (sev : BitVec 3) (code : BitVec 16) (src p q r : BitVec 32) (d : CoreId) :
    (s.log sev code src p q r).core d = s.core d := rfl
@[simp] theorem State.send_core (s : State) (x : TxItem) (d : CoreId) :
    (s.send x).core d = s.core d := rfl
@[simp] theorem State.mapFab_core (s : State) (f : Fabric → Fabric) (d : CoreId) :
    (s.mapFab f).core d = s.core d := rfl
@[simp] theorem State.mapTrain_core (s : State) (f : Training → Training) (d : CoreId) :
    (s.mapTrain f).core d = s.core d := rfl
@[simp] theorem State.mapRowan_core (s : State) (f : Rowan → Rowan) (d : CoreId) :
    (s.mapRowan f).core d = s.core d := rfl
@[simp] theorem State.mapPow_core (s : State) (f : Power → Power) (d : CoreId) :
    (s.mapPow f).core d = s.core d := rfl
@[simp] theorem State.mapMgmt_core (s : State) (f : Mgmt → Mgmt) (d : CoreId) :
    (s.mapMgmt f).core d = s.core d := rfl
@[simp] theorem State.setSession_core (s : State) (vlan : Bool) (i : Fin 4) (x : Option Session) (d : CoreId) :
    (s.setSession vlan i x).core d = s.core d := rfl

/-! ### The fields an update writes -/

@[simp] theorem State.setMem_mem (s : State) (m : Mem) : (s.setMem m).mem = m := rfl
@[simp] theorem State.mapRowan_rowan (s : State) (f : Rowan → Rowan) : (s.mapRowan f).rowan = f s.rowan := rfl
@[simp] theorem State.mapPow_pow (s : State) (f : Power → Power) : (s.mapPow f).pow = f s.pow := rfl
@[simp] theorem State.mapMgmt_mgmt (s : State) (f : Mgmt → Mgmt) : (s.mapMgmt f).mgmt = f s.mgmt := rfl
@[simp] theorem State.mapTrain_train (s : State) (f : Training → Training) : (s.mapTrain f).train = f s.train := rfl
@[simp] theorem State.mapFab_fab (s : State) (f : Fabric → Fabric) : (s.mapFab f).fab = f s.fab := rfl
@[simp] theorem State.takeFree_free (s : State) : s.takeFree.2.free = s.free + 1 := rfl
@[simp] theorem State.send_tx (s : State) (x : TxItem) : (s.send x).fab.tx = s.fab.tx ++ [x] := rfl

end Sys2Proof.Machine
end

