-- ==== Sys2Proof/Laws/Memory.lean ====
section
/-!
SUPPORT. Every operation on data space keeps it in its canonical form, and those that only read leave its bytes.
-/
namespace Sys2Proof.Machine

/-- Only the memory counts. -/
theorem State.memWf_congr {s t : State} (h : t.mem.data = s.mem.data) (h' : t.mem.istore = s.mem.istore) : t.memWf = s.memWf := by
  simp [State.memWf, h, h']

/-- Bytes stored into data space. -/
theorem State.memWf_store {s t : State} {a : Nat} {bs : List Byte} (h : s.memWf = true) (hd : t.mem.data = cellsSet s.mem.data a bs)
    (hi : t.mem.istore = s.mem.istore) : t.memWf = true := by
  simp only [State.memWf, Bool.and_eq_true] at h ⊢
  rw [hd, hi]
  exact ⟨Memory.wf_cellsSet bs _ a h.1, h.2⟩

/-- Only the memory's two byte spaces count. -/
def State.sameBytes (s t : State) : Prop := t.mem.data = s.mem.data ∧ t.mem.istore = s.mem.istore

theorem State.sameBytes_refl (s : State) : s.sameBytes s := ⟨rfl, rfl⟩

theorem State.sameBytes_trans {s t u : State} (h : s.sameBytes t) (h' : t.sameBytes u) : s.sameBytes u :=
  ⟨h'.1.trans h.1, h'.2.trans h.2⟩

theorem State.sameBytes_of_mem {s t : State} (h : t.mem = s.mem) : s.sameBytes t := ⟨congrArg Mem.data h, congrArg Mem.istore h⟩

theorem State.memWf_same {s t : State} (h : s.memWf = true) (h' : s.sameBytes t) : t.memWf = true :=
  (State.memWf_congr h'.1 h'.2).trans h

theorem State.memWf_ite {p : Prop} [Decidable p] {s t : State} (hs : s.memWf = true) (ht : t.memWf = true) :
    (if p then s else t).memWf = true := by
  split
  · exact hs
  · exact ht

/-- A fold keeps what each of its steps keeps. -/
theorem State.foldl_keeps {α : Type} {P : State → Prop} {f : State → α → State} (hf : ∀ t x, P t → P (f t x)) (l : List α) :
    ∀ {s : State}, P s → P (l.foldl f s) := by
  induction l with
  | nil => exact fun h => h
  | cons x l ih => exact fun h => ih (hf _ x h)

/-! ### Errors and reads -/

@[simp] theorem Mem.markPoison_data (m : Mem) (n : Nat) : (m.markPoison n).data = m.data := rfl
@[simp] theorem Mem.markPoison_istore (m : Mem) (n : Nat) : (m.markPoison n).istore = m.istore := rfl
@[simp] theorem Mem.lose_data (m : Mem) (a n : Nat) : (m.lose a n).data = m.data := rfl
@[simp] theorem Mem.lose_istore (m : Mem) (a n : Nat) : (m.lose a n).istore = m.istore := rfl
@[simp] theorem Mem.l2Dirty_data (m : Mem) (n : Nat) : (m.l2Dirty n).data = m.data := rfl
@[simp] theorem Mem.l2Dirty_istore (m : Mem) (n : Nat) : (m.l2Dirty n).istore = m.istore := rfl
@[simp] theorem Mem.l2Drop_data (m : Mem) (i : Bool) (n : Nat) : (m.l2Drop i n).data = m.data := rfl
@[simp] theorem Mem.l2Drop_istore (m : Mem) (i : Bool) (n : Nat) : (m.l2Drop i n).istore = m.istore := rfl

@[simp] theorem State.notePoison_mem (s : State) (p : WordPlace) (src : Nat) : (s.notePoison p src).mem = s.mem := rfl

@[simp] theorem State.countCorrected_mem (s : State) (st : StackId) (row : Option (Nat × Nat)) : (s.countCorrected st row).mem = s.mem := by
  unfold State.countCorrected
  split
  · rfl
  · dsimp only
    split_ifs <;> rfl

@[simp] theorem State.activateAt_mem (s : State) (p : WordPlace) : (s.activateAt p).mem = s.mem := by
  unfold State.activateAt
  repeat' split
  all_goals rfl

/-- Rows are activated: no byte changes. -/
@[simp] theorem State.activateFrom_mem (n : Nat) (s : State) (a stop : Nat) : (s.activateFrom n a stop).mem = s.mem := by
  induction n generalizing s a with
  | zero => rfl
  | succ n ih =>
    unfold State.activateFrom
    split
    · rfl
    · rw [ih]
      repeat' split
      all_goals simp

@[simp] theorem State.activate_mem (s : State) (a len : Nat) : (s.activate a len).mem = s.mem := State.activateFrom_mem _ s a _

@[simp] theorem State.poolTake_mem (s : State) (id n : Nat) : (s.poolTake id n).mem = s.mem := rfl

@[simp] theorem State.poolReturn_mem (s : State) (id n : Nat) : (s.poolReturn id n).1.mem = s.mem := by
  unfold State.poolReturn
  dsimp only
  split_ifs <;> simp [State.setLedger, State.lateReturn]

@[simp] theorem State.passPool_mem (s : State) (id n : Nat) : (s.passPool id n).mem = s.mem := by
  unfold State.passPool
  split <;> simp

/-- Die and stack credits move: no byte changes. -/
@[simp] theorem State.passCredits_mem (s : State) (c : CoreId) (st : Option StackId) (n : Nat) : (s.passCredits c st n).mem = s.mem := by
  unfold State.passCredits
  split <;> simp

@[simp] theorem State.markWord_data (s : State) (n : Nat) : (s.markWord n).mem.data = s.mem.data := by
  unfold State.markWord
  split <;> simp

@[simp] theorem State.markWord_istore (s : State) (n : Nat) : (s.markWord n).mem.istore = s.mem.istore := by
  unfold State.markWord
  split <;> simp

theorem State.settlePoison_bytes (s : State) (n : Nat) : s.sameBytes (s.settlePoison n) := by
  unfold State.settlePoison
  dsimp only
  repeat' split
  all_goals simp [State.sameBytes]

/-- What finding an error leaves of the bytes: all of them. -/
theorem State.findError_bytes (s : State) (n src : Nat) : s.sameBytes (s.findError n src) := by
  refine State.sameBytes_trans (s.settlePoison_bytes n) ?_
  unfold State.findError
  dsimp only
  repeat' split
  all_goals simp [State.sameBytes]

theorem State.settle_bytes (s : State) (a len src : Nat) : s.sameBytes (s.settle a len src) :=
  State.foldl_keeps (P := s.sameBytes) (fun t n h => State.sameBytes_trans h (t.findError_bytes n src)) _
    (State.sameBytes_of_mem (s.activate_mem a len))

theorem State.memWf_settle {s : State} (h : s.memWf = true) (a len src : Nat) : (s.settle a len src).memWf = true :=
  State.memWf_same h (s.settle_bytes a len src)

/-! ### Writes that pass the caches -/

@[simp] theorem State.mapCopies_mem (s : State) (n : Nat) (f : CacheLine → CacheLine) : (s.mapCopies n f).mem = s.mem := by
  simp only [State.mapCopies]

@[simp] theorem State.countFencedWrite_mem (s : State) (a : Nat) : (s.countFencedWrite a).mem = s.mem := by
  unfold State.countFencedWrite
  repeat' split
  all_goals simp

theorem State.discardWrite_bytes (s : State) (a len : Nat) : s.sameBytes (s.discardWrite a len) :=
  State.foldl_keeps (P := s.sameBytes)
    (fun t _ h => State.sameBytes_trans h (State.sameBytes_of_mem (t.countFencedWrite_mem _))) _ ⟨rfl, rfl⟩

theorem State.memWf_writeWord {s : State} (h : s.memWf = true) (a : Nat) (bs : List Byte) : (s.writeWord a bs).memWf = true := by
  unfold State.writeWord
  split
  · exact State.memWf_store (a := a) (bs := bs) h (by simp) (by simp)
  · split
    · exact h
    · dsimp only
      split
      · exact (State.memWf_congr (by simp) (by simp)).trans h
      · split <;> exact State.memWf_store (a := a) (bs := bs) h (by split <;> simp [Mem.putWord]) (by split <;> simp [Mem.putWord])

theorem State.memWf_writeHomeFrom (n : Nat) {s : State} (h : s.memWf = true) (first : Bool) (a : Nat) (bs : List Byte) :
    (s.writeHomeFrom n first a bs).memWf = true := by
  induction n generalizing s first a bs with
  | zero => exact h
  | succ n ih =>
    unfold State.writeHomeFrom
    split
    · exact h
    · refine ih (State.memWf_writeWord ?_ _ _) _ _ _
      split
      · exact (State.memWf_congr (by simp) (by simp)).trans h
      · exact h

theorem State.memWf_writeHome {s : State} (h : s.memWf = true) (a : Nat) (bs : List Byte) : (s.writeHome a bs).memWf = true :=
  State.memWf_writeHomeFrom _ ((State.memWf_congr (by simp) (by simp)).trans h) _ _ _

/-- Lines of instruction store are written canonically. -/
theorem State.memWf_writeInstLine {s : State} (h : s.memWf = true) (n : Nat) (bs : List Byte) : (s.writeInstLine n bs).memWf = true := by
  unfold State.writeInstLine
  dsimp only
  split
  · exact (State.memWf_congr (by simp) (by simp)).trans h
  · simp only [State.memWf, Bool.and_eq_true, State.setMem_mem] at h ⊢
    exact ⟨h.1, Memory.wf_cellsSet _ _ _ h.2⟩

theorem State.memWf_writeInstFrom (f : Nat) {s : State} (h : s.memWf = true) (n : Nat) (bs : List Byte) :
    (s.writeInstFrom f n bs).memWf = true := by
  induction f generalizing s n bs with
  | zero => exact h
  | succ f ih =>
    unfold State.writeInstFrom
    split
    · exact h
    · exact ih (State.memWf_writeInstLine h _ _) _ _

/-! ### The scalar caches and L2 -/

/-- What a written-back word leaves: data space stays canonical, instruction space as it was. -/
theorem Mem.backWord_wf {m : Mem} (h : Memory.wf m.data = true) (f : BitVec 128) (n w : Nat) (l : Line) :
    Memory.wf (m.backWord f n w l).data = true := Memory.wf_cellsSet _ _ _ h

@[simp] theorem Mem.backWord_istore (m : Mem) (f : BitVec 128) (n w : Nat) (l : Line) : (m.backWord f n w l).istore = m.istore := rfl

theorem State.memWf_writeBack {s : State} (h : s.memWf = true) (n : Nat) (l : Line) : (s.writeBack n l).memWf = true := by
  have hd : Memory.wf s.mem.data = true ∧ Memory.wf s.mem.istore = true := by simpa [State.memWf] using h
  unfold State.writeBack
  split
  · exact h
  · simp only [State.memWf, State.setMem_mem, Mem.l2Dirty_data, Mem.l2Dirty_istore, Mem.backWord_istore, Bool.and_eq_true]
    have hm : ∀ f : BitVec 128, Memory.wf ((((s.mem.backWord f n 0 l).backWord f n 1 l).backWord f n 2 l).backWord f n 3 l).data = true :=
      fun f => Mem.backWord_wf (Mem.backWord_wf (Mem.backWord_wf (Mem.backWord_wf hd.1 _ _ _ _) _ _ _ _) _ _ _ _) _ _ _ _
    split
    · exact ⟨hm _, hd.2⟩
    · exact ⟨hm _, hd.2⟩

theorem State.memWf_cleanLine {s : State} (h : s.memWf = true) (n : Nat) : (s.cleanLine n).memWf = true := by
  unfold State.cleanLine
  split
  · exact h
  · rename_i l _
    exact (State.memWf_congr (by simp) (by simp)).trans (State.memWf_writeBack h n l)

@[simp] theorem State.dropCopies_mem (s : State) (n : Nat) (but : Option CoreId) : (s.dropCopies n but).mem = s.mem := by
  simp only [State.dropCopies]

theorem State.l2Retire_bytes (s : State) (l : L2Line) : s.sameBytes (s.l2Retire l) := by
  unfold State.l2Retire
  dsimp only
  split
  · exact ⟨rfl, rfl⟩
  · split
    · exact State.sameBytes_trans (by simp [State.sameBytes]) (State.discardWrite_bytes _ _ _)
    · simp [State.sameBytes]

theorem State.memWf_l2Evict {s : State} (h : s.memWf = true) (l : L2Line) : (s.l2Evict l).memWf = true := by
  unfold State.l2Evict
  split
  · exact State.memWf_same h (s.l2Retire_bytes l)
  · exact State.memWf_same ((State.memWf_congr (by simp) (by simp)).trans (State.memWf_cleanLine h l.addr)) (State.l2Retire_bytes _ _)

theorem State.memWf_l2Room {s : State} (h : s.memWf = true) (inst : Bool) (n : Nat) : (s.l2Room inst n).memWf = true := by
  unfold State.l2Room
  dsimp only
  split
  · exact h
  · split
    · exact h
    · exact State.memWf_l2Evict ((State.memWf_congr (by simp) (by simp)).trans h) _

theorem State.memWf_l2Fill {s : State} (h : s.memWf = true) (n : Nat) : (s.l2Fill n).memWf = true := by
  unfold State.l2Fill
  split
  · exact h
  · refine State.memWf_same (State.memWf_settle (State.memWf_l2Room h false n) (128 * n) 128 0) ?_
    dsimp only
    split <;> simp [State.sameBytes]

theorem State.memWf_allocate {s : State} (h : s.memWf = true) (c : CoreId) (l : CacheLine) : (s.allocate c l).memWf = true := by
  unfold State.allocate
  dsimp only
  split
  · exact (State.memWf_congr (by simp) (by simp)).trans h
  · refine State.foldl_keeps (P := fun t => t.memWf = true) ?_ _ ((State.memWf_congr (by simp) (by simp)).trans h)
    intro t o ht
    split
    · exact State.memWf_writeBack ht _ _
    · exact ht

theorem State.memWf_fillMiss {s : State} (h : s.memWf = true) (c : CoreId) : (s.fillMiss c).memWf = true := by
  unfold State.fillMiss
  dsimp only
  split
  · exact h
  · exact State.memWf_allocate ((State.memWf_congr (by simp) (by simp)).trans h) c _

theorem State.memWf_touchLine {s : State} (h : s.memWf = true) (c : CoreId) (n : Nat) (own : Bool) : (s.touchLine c n own).memWf = true := by
  have hdrop : ∀ t : State, t.memWf = true → (if own then t.dropCopies n (some c) else t).memWf = true :=
    fun t ht => State.memWf_ite ((State.memWf_congr (by simp) (by simp)).trans ht) ht
  unfold State.touchLine
  refine State.memWf_ite (hdrop s h) ?_
  generalize (s.core c).cache.victim.find? (fun l => l.addr == n) = found
  cases found with
  | some l => exact State.memWf_allocate ((State.memWf_congr (by simp) (by simp)).trans (hdrop s h)) c _
  | none =>
    exact (State.memWf_congr (by simp) (by simp)).trans
      (State.memWf_l2Fill (hdrop _ (State.memWf_cleanLine (State.memWf_fillMiss h c) n)) n)

theorem State.memWf_scalarRead {s : State} (h : s.memWf = true) (c : CoreId) (a len : Nat) : (s.scalarRead c a len).1.memWf = true := by
  unfold State.scalarRead
  split
  · exact (State.memWf_congr (by simp) (by simp)).trans h
  · dsimp only
    split <;> exact State.memWf_touchLine h _ _ _

theorem State.memWf_scalarWrite {s : State} (h : s.memWf = true) (c : CoreId) (a : Nat) (bs : List Byte) (tag : Bool) :
    (s.scalarWrite c a bs tag).memWf = true := by
  unfold State.scalarWrite
  split
  · exact State.memWf_store (a := a) (bs := bs) h (by simp) (by simp)
  · exact (State.memWf_congr (by simp) (by simp)).trans (State.memWf_touchLine h c (a / 128) true)

end Sys2Proof.Machine
end

