-- ==== Sys2Proof/Laws/Caches.lean ====
section
/-!
SUPPORT. What a scalar access leaves of the cores: each core is as it was but for its caches and its replacement register, so
the instruction that accesses memory completes where it would have completed without the access.
-/
namespace Sys2Proof.Machine

/-- A core but for its caches and rplfsr. -/
def CoreState.sansCache (x : CoreState) : CoreState :=
  { x with cache := ⟨[], [], none, []⟩, ctl := { x.ctl with rplfsr := 0 } }

/-- Every core keeps everything but its caches and rplfsr. -/
def State.keepsCores (s t : State) : Prop := ∀ d : CoreId, (t.core d).sansCache = (s.core d).sansCache

theorem State.keepsCores_refl (s : State) : s.keepsCores s := fun _ => rfl

theorem State.keepsCores_trans {s t u : State} (h : s.keepsCores t) (h' : t.keepsCores u) : s.keepsCores u :=
  fun d => (h' d).trans (h d)

/-- A state whose table of cores is that of s. -/
theorem State.keepsCores_of_cores {s t : State} (h : t.cores = s.cores) : s.keepsCores t := fun d => by
  simp only [State.core, h]

theorem State.keepsCores_setCore {s : State} (c : CoreId) {x : CoreState} (h : x.sansCache = (s.core c).sansCache) :
    s.keepsCores (s.setCore c x) := fun d => by
  by_cases e : d = c
  · subst e; rw [State.core_setCore_self]; exact h
  · rw [State.core_setCore_ne s x e]

theorem State.keepsCores_ite {p : Prop} [Decidable p] {s t u : State} (ht : s.keepsCores t) (hu : s.keepsCores u) :
    s.keepsCores (if p then t else u) := by
  split
  · exact ht
  · exact hu

/-- What the kept cores say of the fields that completing an instruction looks at. -/
theorem State.keepsCores_plain {s t : State} (h : s.keepsCores t) (c : CoreId) (hp : Plain s c) : Plain t c := by
  have hs : (t.core c).ctl.status = (s.core c).ctl.status := congrArg (fun x => x.ctl.status) (h c)
  exact ⟨hs ▸ hp.1, hs ▸ hp.2⟩

theorem State.keepsCores_pcc {s t : State} (h : s.keepsCores t) (c : CoreId) : (t.core c).pcc = (s.core c).pcc :=
  congrArg (fun x => x.pcc) (h c)

theorem State.keepsCores_g {s t : State} (h : s.keepsCores t) (c : CoreId) : (t.core c).g = (s.core c).g :=
  congrArg (fun x => x.g) (h c)

theorem State.keepsCores_k {s t : State} (h : s.keepsCores t) (c : CoreId) : (t.core c).k = (s.core c).k :=
  congrArg (fun x => x.k) (h c)

/-! ### The stacks -/

@[simp] theorem State.notePoison_cores (s : State) (p : WordPlace) (src : Nat) : (s.notePoison p src).cores = s.cores := rfl

@[simp] theorem State.countCorrected_cores (s : State) (st : StackId) (row : Option (Nat × Nat)) :
    (s.countCorrected st row).cores = s.cores := by
  unfold State.countCorrected
  split
  · rfl
  · dsimp only
    split_ifs <;> rfl

@[simp] theorem State.activateAt_cores (s : State) (p : WordPlace) : (s.activateAt p).cores = s.cores := by
  unfold State.activateAt
  repeat' split
  all_goals rfl

@[simp] theorem State.activateFrom_cores (n : Nat) (s : State) (a stop : Nat) : (s.activateFrom n a stop).cores = s.cores := by
  induction n generalizing s a with
  | zero => rfl
  | succ n ih =>
    unfold State.activateFrom
    split
    · rfl
    · rw [ih]
      repeat' split
      all_goals simp

@[simp] theorem State.settlePoison_cores (s : State) (n : Nat) : (s.settlePoison n).cores = s.cores := by
  unfold State.settlePoison
  dsimp only
  repeat' split
  all_goals simp

@[simp] theorem State.markWord_cores (s : State) (n : Nat) : (s.markWord n).cores = s.cores := by
  unfold State.markWord
  split <;> rfl

@[simp] theorem State.findError_cores (s : State) (n src : Nat) : (s.findError n src).cores = s.cores := by
  unfold State.findError
  dsimp only
  repeat' split
  all_goals simp

@[simp] theorem State.poolReturn_cores (s : State) (id n : Nat) : (s.poolReturn id n).1.cores = s.cores := by
  unfold State.poolReturn
  dsimp only
  split_ifs <;> rfl

@[simp] theorem State.passPool_cores (s : State) (id n : Nat) : (s.passPool id n).cores = s.cores := by
  unfold State.passPool
  split <;> simp

/-- Credits that requests pass through: no core changes. -/
@[simp] theorem State.passCredits_cores (s : State) (c : CoreId) (st : Option StackId) (n : Nat) :
    (s.passCredits c st n).cores = s.cores := by
  unfold State.passCredits
  split <;> simp

@[simp] theorem State.settle_cores (s : State) (a len src : Nat) : (s.settle a len src).cores = s.cores :=
  State.foldl_keeps (P := fun t => t.cores = s.cores) (fun t n h => (t.findError_cores n src).trans h) _
    (s.activateFrom_cores _ a _)

@[simp] theorem State.countFencedWrite_cores (s : State) (a : Nat) : (s.countFencedWrite a).cores = s.cores := by
  unfold State.countFencedWrite
  repeat' split
  all_goals simp

@[simp] theorem State.discardWrite_cores (s : State) (a len : Nat) : (s.discardWrite a len).cores = s.cores :=
  State.foldl_keeps (P := fun t => t.cores = s.cores) (fun t _ h => (t.countFencedWrite_cores _).trans h) _ rfl

/-! ### The caches -/

theorem State.mapCopies_keepsCores (s : State) (n : Nat) (f : CacheLine → CacheLine) : s.keepsCores (s.mapCopies n f) := fun d => by
  simp only [State.core, State.mapCopies, Fin.getElem_fin, vmap_get]
  split <;> rfl

theorem State.dropCopies_keepsCores (s : State) (n : Nat) (but : Option CoreId) : s.keepsCores (s.dropCopies n but) := fun d => by
  simp only [State.core, State.dropCopies, Fin.getElem_fin, Vector.getElem_mapFinIdx]
  repeat' split
  all_goals rfl

theorem State.writeBack_cores (s : State) (n : Nat) (l : Line) : (s.writeBack n l).cores = s.cores := by
  unfold State.writeBack
  split
  · rfl
  · dsimp only
    split <;> rfl

theorem State.cleanLine_keepsCores (s : State) (n : Nat) : s.keepsCores (s.cleanLine n) := by
  unfold State.cleanLine
  split
  · exact s.keepsCores_refl
  · exact State.keepsCores_trans (State.keepsCores_of_cores (s.writeBack_cores n _)) (State.mapCopies_keepsCores _ _ _)

theorem State.l2Retire_cores (s : State) (l : L2Line) : (s.l2Retire l).cores = s.cores := by
  unfold State.l2Retire
  dsimp only
  repeat' split
  all_goals simp

theorem State.l2Evict_keepsCores (s : State) (l : L2Line) : s.keepsCores (s.l2Evict l) := by
  unfold State.l2Evict
  split
  · exact State.keepsCores_of_cores (s.l2Retire_cores l)
  · exact State.keepsCores_trans
      (State.keepsCores_trans (s.cleanLine_keepsCores l.addr) (State.dropCopies_keepsCores _ _ _))
      (State.keepsCores_of_cores (State.l2Retire_cores _ _))

theorem State.l2Room_keepsCores (s : State) (inst : Bool) (n : Nat) : s.keepsCores (s.l2Room inst n) := by
  unfold State.l2Room
  dsimp only
  repeat' split
  · exact s.keepsCores_refl
  · exact State.keepsCores_of_cores (by simp)
  · exact State.keepsCores_trans (State.keepsCores_of_cores (by simp)) (State.l2Evict_keepsCores _ _)

theorem State.l2Fill_keepsCores (s : State) (n : Nat) : s.keepsCores (s.l2Fill n) := by
  unfold State.l2Fill
  split
  · exact s.keepsCores_refl
  · exact State.keepsCores_trans (s.l2Room_keepsCores false n) (State.keepsCores_of_cores (by simp))

theorem State.allocate_keepsCores (s : State) (c : CoreId) (l : CacheLine) : s.keepsCores (s.allocate c l) := by
  unfold State.allocate
  dsimp only
  split
  · exact State.keepsCores_setCore c rfl
  · refine State.foldl_keeps (P := s.keepsCores) ?_ _ (State.keepsCores_setCore c rfl)
    intro t o h
    split
    · exact State.keepsCores_trans h (State.keepsCores_of_cores (t.writeBack_cores _ _))
    · exact h

theorem State.fillMiss_keepsCores (s : State) (c : CoreId) : s.keepsCores (s.fillMiss c) := by
  unfold State.fillMiss
  dsimp only
  split
  · exact s.keepsCores_refl
  · refine State.keepsCores_trans ?_ (State.allocate_keepsCores _ _ _)
    exact State.keepsCores_setCore c rfl

/-- What taking a line leaves of the cores. -/
theorem State.touchLine_keepsCores (s : State) (c : CoreId) (n : Nat) (own : Bool) : s.keepsCores (s.touchLine c n own) := by
  have hdrop : ∀ t : State, s.keepsCores t → s.keepsCores (if own then t.dropCopies n (some c) else t) :=
    fun t h => State.keepsCores_ite (State.keepsCores_trans h (t.dropCopies_keepsCores n _)) h
  unfold State.touchLine
  refine State.keepsCores_ite (hdrop s s.keepsCores_refl) ?_
  generalize (s.core c).cache.victim.find? (fun l => l.addr == n) = found
  cases found with
  | some l =>
    refine State.keepsCores_trans (State.keepsCores_trans (hdrop s s.keepsCores_refl) ?_) (State.allocate_keepsCores _ c l)
    exact State.keepsCores_setCore c rfl
  | none =>
    exact State.keepsCores_trans
      (State.keepsCores_trans
        (hdrop _ (State.keepsCores_trans (s.fillMiss_keepsCores c) (State.cleanLine_keepsCores _ n)))
        (State.keepsCores_trans (State.l2Fill_keepsCores _ n) (State.keepsCores_of_cores (State.passCredits_cores _ c _ 1))))
      (State.keepsCores_setCore c rfl)

/-! ### Scalar accesses -/

theorem State.scalarRead_keepsCores (s : State) (c : CoreId) (a len : Nat) : s.keepsCores (s.scalarRead c a len).1 := by
  unfold State.scalarRead
  split
  · exact State.keepsCores_of_cores (s.passCredits_cores c none 1)
  · dsimp only
    split <;> exact s.touchLine_keepsCores _ _ _

theorem State.scalarWrite_keepsCores (s : State) (c : CoreId) (a : Nat) (bs : List Byte) (tag : Bool) :
    s.keepsCores (s.scalarWrite c a bs tag) := by
  unfold State.scalarWrite
  split
  · exact State.keepsCores_of_cores (s.passCredits_cores c none 1)
  · exact State.keepsCores_trans (s.touchLine_keepsCores c _ true) (State.keepsCores_setCore c rfl)

end Sys2Proof.Machine
end

