-- ==== Sys2Proof/Laws/Issue.lean ====
section
/-!
SUPPORT. What issuing one instruction does, said once: the fetch, the body, the completion (R57, R79, R101).
-/
namespace Sys2Proof.Machine

/-- An instruction that issues: its body runs on the state the fetch left. -/
theorem issue_of_issues {s t : State} {c : CoreId} {len : Nat} (h : Issues s c len t) (body : State → Effect) :
    s.issue c len body = .next (t.finish c len (body t)) := by
  obtain ⟨h1, h2⟩ := h
  simp [State.issue, h1, h2]

/-- A core that cannot issue leaves the state as it is. -/
theorem issue_idle {s : State} {c : CoreId} (h : s.canIssue c = false) (len : Nat) (body : State → Effect) :
    s.issue c len body = .next s := by simp [State.issue, h]

/-- Issuing always answers a next state. -/
theorem issue_goes (s : State) (c : CoreId) (len : Nat) (body : State → Effect) : ∃ t, s.issue c len body = .next t := by
  unfold State.issue
  split
  · split
    · exact ⟨_, rfl⟩
    · exact ⟨_, rfl⟩
  · exact ⟨s, rfl⟩

/-- With no loop active, an instruction that completes in u leaves u with the program counter past it. -/
theorem finish_done {t u : State} {c : CoreId} (h : Plain t c) (len : Nat)
    (hl : (u.core c).ctl.status.lm = false) (hp : (u.core c).pcc.cursor = t.pc c) :
    t.finish c len (.done u) = u.setCore c ((u.core c).advanced len) := by
  obtain ⟨_, h2⟩ := h
  simp [State.finish, State.retire, Control.loopEnd, h2, hl, CoreState.counted, CoreState.advanced, hp]

/-- The same for an effect that only writes fields of core c other than pcc and status. -/
theorem finish_doneCore {t : State} {c : CoreId} (h : Plain t c) (len : Nat) (f : CoreState → CoreState)
    (hc : (f (t.core c)).ctl.status.lm = (t.core c).ctl.status.lm) (hp : (f (t.core c)).pcc = (t.core c).pcc) :
    t.finish c len (t.doneCore c f) = t.setCore c ((f (t.core c)).advanced len) := by
  unfold State.doneCore
  rw [finish_done h len (by simp [hc, h.1]) (by simp [hp, State.pc])]
  simp [State.mapCore]

@[simp] theorem CoreState.setG_ctl (x : CoreState) (r : GReg) (v : Word) : (x.setG r v).ctl = x.ctl := by
  unfold CoreState.setG; split <;> rfl

@[simp] theorem CoreState.setG_pcc (x : CoreState) (r : GReg) (v : Word) : (x.setG r v).pcc = x.pcc := by
  unfold CoreState.setG; split <;> rfl

@[simp] theorem CoreState.setK_ctl (x : CoreState) (r : KReg) (v : Cap) : (x.setK r v).ctl = x.ctl := rfl

@[simp] theorem CoreState.setK_pcc (x : CoreState) (r : KReg) (v : Cap) : (x.setK r v).pcc = x.pcc := rfl

/-- An instruction that writes one general register. -/
theorem finish_doneG {t : State} {c : CoreId} (h : Plain t c) (len : Nat) (rd : GReg) (v : Word) :
    t.finish c len (t.doneG c rd v) = t.setCore c (((t.core c).setG rd v).advanced len) :=
  finish_doneCore h len (fun x => x.setG rd v) (by simp) (by simp)

/-- A transfer. -/
theorem finish_jump {t u : State} {c : CoreId} (h : Plain t c) (len : Nat) (k : Cap) :
    t.finish c len (.jump u k) = u.setCore c ((u.core c).transferred k) := by
  simp [State.finish, State.retireJump, h.2, CoreState.counted, CoreState.transferred]

/-- A cause that is not taken after the instruction is taken with the program counter as it stands. -/
theorem finish_trap {t u : State} {c : CoreId} (len : Nat) (k : Cause) (h : k.afterIt = false) :
    t.finish c len (.trap u k) = u.takeCause c k (t.pc c) := by
  simp [State.finish, h]

@[simp] theorem orTrap_nil (s : State) (e : Effect) : s.orTrap [] e = e := rfl

end Sys2Proof.Machine
end

