-- ==== Sys2Proof/WellFormed.lean ====
section
/-!
DEFINITION. Which commands can be sent: operands that fit the fields, memories and frames they stand for. What a chapter
gives an effect for an unusual value is well formed; `exec` is total on every term.
-/
namespace Sys2Proof

/-- ECC words of 32 bytes in each memory of a stack: 48 GiB of data space, 64 MiB of instruction store, 256 MiB of
staging SRAM (R21, R255, R268). -/
def StackSpace.words : StackSpace → Nat
  | .dram => 1610612736
  | .istore => 2097152
  | .sram => 8388608

def StackSpace.holds (x : StackSpace) (word : Nat) : Bool := decide (word < x.words)

/-- A frame that fits a port's receive buffer field (R320 gives the longest that is taken). -/
def frameOk (f : Frame) : Bool := decide (f.len < 65536)

/-- A packet's payload fits 4,096 bytes, the largest payload (R346). -/
def packetOk (p : Packet) : Bool := decide (p.payload.length ≤ 4096)

/-- A slot's header is 512 bytes where it can be read, and the image fits the slot (R410, R411). -/
def imageOk (slot : Nat) (i : FlashImage) : Bool :=
  !i.readOk || (i.header.length == 512 && decide (i.body.length + 512 ≤ slot))

/-- A datagram fits one UDP datagram. -/
def datagramOk (m : DapMsg) : Bool := decide (m.body.length < 65536)

def Instr.wellFormed : Instr → Bool
  | .add _ _ _ _ => true
  | .sub _ _ _ _ => true
  | .and _ _ _ _ => true
  | .or _ _ _ _ => true
  | .xor _ _ _ _ => true
  | .andn _ _ _ _ => true
  | .sll _ _ _ _ => true
  | .srl _ _ _ _ => true
  | .sra _ _ _ _ => true
  | .rol _ _ _ _ => true
  | .ror _ _ _ _ => true
  | .slt _ _ _ _ => true
  | .sltu _ _ _ _ => true
  | .min _ _ _ _ => true
  | .max _ _ _ _ => true
  | .minu _ _ _ _ => true
  | .maxu _ _ _ _ => true
  | .mul _ _ _ _ => true
  | .mulh _ _ _ _ => true
  | .mulhu _ _ _ _ => true
  | .mulhsu _ _ _ _ => true
  | .div _ _ _ _ => true
  | .divu _ _ _ _ => true
  | .rem _ _ _ _ => true
  | .remu _ _ _ _ => true
  | .sel _ _ _ _ _ => true
  | .addi _ _ _ _ => true
  | .andi _ _ _ _ => true
  | .ori _ _ _ _ => true
  | .xori _ _ _ _ => true
  | .slli _ _ _ _ => true
  | .srli _ _ _ _ => true
  | .srai _ _ _ _ => true
  | .roli _ _ _ _ => true
  | .clz _ _ _ => true
  | .ctz _ _ _ => true
  | .bperm _ _ _ _ _ => true
  | .bfext _ _ _ _ _ => true
  | .bfexts _ _ _ _ _ => true
  | .bfins _ _ _ _ _ => true
  | .bfextr _ _ _ _ => true
  | .bfextsr _ _ _ _ => true
  | .bfinsr _ _ _ _ => true
  | .li _ _ _ => true
  | .lih _ _ _ => true
  | .beq _ _ _ _ => true
  | .bne _ _ _ _ => true
  | .blt _ _ _ _ => true
  | .bge _ _ _ _ => true
  | .bltu _ _ _ _ => true
  | .bgeu _ _ _ _ => true
  | .jal _ _ _ => true
  | .jalr _ _ _ _ => true
  | .ld _ _ _ _ _ => true
  | .st _ _ _ _ _ => true
  | .lc _ _ _ _ => true
  | .sc _ _ _ _ => true
  | .loop _ _ _ _ _ => true
  | .endloop _ => true
  | .fence _ => true
  | .mfc _ _ _ => true
  | .mtc _ _ _ => true
  | .ioIn _ _ _ _ => true
  | .ioOut _ _ _ _ => true
  | .rmov _ _ _ _ _ _ _ _ => true
  | .rfill _ _ _ _ _ _ _ => true
  | .rcmp _ _ _ _ _ _ _ _ => true
  | .rscan _ _ _ _ _ _ _ => true
  | .iload _ _ _ _ _ _ _ => true
  | .iflush _ _ _ _ _ => true
  | .dcclean _ _ _ _ _ => true
  | .dcinval _ _ _ _ _ => true
  | .l1MissFill _ => true
  | .kmov _ _ _ => true
  | .kread _ _ _ _ => true
  | .kstep _ _ _ _ => true
  | .kpoint _ _ _ _ => true
  | .knarrow _ _ _ _ => true
  | .knarrowx _ _ _ _ => true
  | .kperm _ _ _ _ => true
  | .klock _ _ _ _ => true
  | .kunlock _ _ _ _ => true
  | .kwithin _ _ _ _ => true
  | .kstrip _ _ _ => true
  | .kgo _ _ _ _ => true
  | .kpc _ _ _ => true
  | .kmfc _ _ _ => true
  | .kmtc _ _ _ => true
  | .shsave _ _ => true
  | .shload _ _ => true
  | .mfsg _ _ _ => true
  | .mtsg _ _ _ => true
  | .mfsk _ _ _ => true
  | .mtsk _ _ _ => true
  | .mfss _ _ => true
  | .mtss _ _ => true
  | .xadv _ _ => true
  | .xret _ => true
  | .ecall _ => true
  | .brk _ => true
  | .exceptionEntry _ => true
  | .mand _ _ => true
  | .mor _ _ => true
  | .mxor _ _ => true
  | .mandn _ _ => true
  | .mnot _ _ => true
  | .mset _ _ => true
  | .mpopc _ _ => true
  | .mfirst _ _ => true
  | .mtov _ _ => true
  | .vtom _ _ => true
  | .vsetvl _ _ => true
  | .vmv _ _ => true
  | .vbcast _ _ => true
  | .vperm _ _ => true
  | .vslideup _ _ => true
  | .vslidedown _ _ => true
  | .vcompress _ _ => true
  | .vexpand _ _ => true
  | .vext _ _ => true
  | .vins _ _ => true
  | .vld _ _ _ => true
  | .vst _ _ _ => true
  | .vlds _ _ _ => true
  | .vsts _ _ _ => true
  | .vldx _ _ _ => true
  | .vstx _ _ _ => true
  | .vlseg _ _ _ => true
  | .vsseg _ _ _ => true
  | .vc _ _ _ _ _ => true
  | .vcCompare _ _ _ _ _ => true
  | .vcDrop _ _ _ _ => true
  | .vcRandu _ _ _ _ => true
  | .vcRandb _ _ _ _ => true
  | .qstat _ _ _ _ _ _ => true
  | .qmma _ _ _ _ _ _ _ _ _ _ _ _ => true
  | .qdrain _ _ _ _ _ _ _ _ _ _ => true
  | .tld _ _ _ _ _ _ _ => true
  | .accpeek _ _ _ => true
  | .accsave _ _ _ => true
  | .accrestore _ _ _ => true
  | .tc _ _ _ _ _ _ => true
  | .txStats _ _ _ => true
  | .txOptim _ _ _ => true
  | .txSlice _ _ _ => true
  | .txDwround _ _ _ => true
  | .sopen _ _ _ _ _ => true
  | .scancel _ _ => true
  | .srestart _ _ _ => true
  | .sfence _ _ => true
  | .sstat _ _ _ _ => true
  | .stationaryRowLoad _ => true
  | .quinceRowEnter _ => true
  | .invalidCycle _ => true
  | .quinceRowCheck _ m _ => decide (m < 2048)
  | .stationaryReload _ => true
  | .accRowWrite _ => true
  | .arrayHoldEnd _ => true
  | .drainSlotReadStart _ _ => true
  | .drainPause _ _ => true
  | .drainResume _ _ => true
  | .drainSlotReadEnd _ _ => true
  | .tokenRaise _ => true
  | .tldRowArrival _ => true
  | .streamRequest _ _ => true
  | .streamDataArrival _ _ => true
  | .streamUnitRelease _ _ => true
  | .storeStreamWriteAck _ _ => true
  | .scancelComplete _ _ => true
  | .srestartComplete _ _ => true
  | .sfenceComplete _ => true
  | .depthSample _ _ => true
  | .patrolScrubRead _ space word _ => space.holds word
  | .rowSpareDone _ => true
  | .refresh _ _ _ => true
  | .targetedRefresh _ _ row => decide (row < 32768)
  | .poisonStormFence _ => true
  | .stackTrainingDone _ => true
  | .stackInitDone => true
  | .scatterAddSegment _ => true
  | .scatterAddCommand _ => true
  | .gatherCommand _ => true
  | .engineCommandEnd _ => true
  | .stkFenceWrite _ _ => true
  | .stackSlowCheck _ _ _ => true
  | .stepAdvWrite _ _ => true
  | .stepIncWrite _ _ => true
  | .snapDrain _ _ => true
  | .snapRestore _ _ => true
  | .snapRelease _ _ => true
  | .snapAccept _ _ => true
  | .drainSectionsAcked => true
  | .drainHeaderAcked => true
  | .drainValidAcked => true
  | .drainFail _ _ => true
  | .restoreReadDone _ => true
  | .poldoalWrite _ => true
  | .poldoalRead _ => true
  | .atomicAdd _ => true
  | .atomicMax _ => true
  | .atomicCas _ => true
  | .writeAcc _ => true
  | .poldoalNotify _ => true
  | .poldoalFence _ => true
  | .send _ => true
  | .rdmaWrite _ => true
  | .rdmaRead _ => true
  | .fetchAdd _ => true
  | .cmpSwap _ => true
  | .packetSend _ _ => true
  | .reqReceive f p => frameOk f && packetOk p
  | .ackTimer _ => true
  | .ackReceive f p => frameOk f && packetOk p
  | .nackReceive f p => frameOk f && packetOk p
  | .respReceive f p => frameOk f && packetOk p
  | .retransmitTimeout _ _ => true
  | .helloReceive f p => frameOk f && packetOk p
  | .helloTimer _ => true
  | .byeReceive f p => frameOk f && packetOk p
  | .peerTimeout _ => true
  | .probeTimer _ => true
  | .probeReceive f p => frameOk f && packetOk p
  | .probeReplyReceive f p => frameOk f && packetOk p
  | .subportDown _ _ => true
  | .portFenceWrite _ _ _ => true
  | .pfcFrameReceive f _ _ => frameOk f
  | .pfcXoffSend _ _ => true
  | .pfcXonSend _ _ => true
  | .neighborEchoReceive f _ _ => frameOk f
  | .chCmdOpen _ _ => true
  | .chCmdClose _ _ => true
  | .channelDrained _ => true
  | .pqSizeWrite _ _ _ => true
  | .fabricTableWrite _ _ _ _ => true
  | .fabricEnableWrite _ _ _ => true
  | .qpCmdLoad _ _ => true
  | .qpCmdReset _ _ => true
  | .qpCmdWriteback _ _ => true
  | .roceRequestReceive f q => frameOk f && decide (q.payload.length ≤ 4096)
  | .roceResponseReceive f _ _ _ => frameOk f
  | .roceCnpReceive f _ => frameOk f
  | .roceRetryTimeout _ => true
  | .portModeWrite _ _ _ => true
  | .ledgerCheck => true
  | .fenceWriteoff pool => decide (pool < 0x7D)
  | .coreFenceWrite _ _ => true
  | .watchdogWarn _ => true
  | .watchdogFence _ => true
  | .dqPost _ _ _ => true
  | .dqClaim _ _ _ => true
  | .dqDone _ _ _ => true
  | .recordAccept => true
  | .recordWrite => true
  | .recSelWrite _ _ _ => true
  | .recSizeWrite _ _ => true
  | .pwrFailAssert => true
  | .bbPageProgrammed => true
  | .bbEraseStart => true
  | .bbEraseDone => true
  | .linkCrcError _ => true
  | .doorbellMessage _ => true
  | .intSet _ _ => true
  | .intClr _ _ => true
  | .claim _ _ => true
  | .complete _ _ => true
  | .powerOnReset _ => true
  | .resetRelease _ _ => true
  | .rstSysNAssert => true
  | .sysRstWrite _ _ => true
  | .systemResetQuiesced => true
  | .resetGlitch _ _ => true
  | .coreRstWrite _ _ _ => true
  | .coreResetDone _ => true
  | .optionLoadDone => true
  | .optGoWrite _ _ => true
  | .romBoot a b => imageOk 0x100000 a && imageOk 0x100000 b
  | .stage1Boot a b => imageOk 0x400000 a && imageOk 0x400000 b
  | .hubFwBoot a b _ => imageOk 0x800000 a && imageOk 0x800000 b
  | .coreRelease => true
  | .recover img => imageOk 0x100000 img
  | .sysreset => true
  | .keyprog _ _ => true
  | .lcadv => true
  | .extest => true
  | .samplePreload _ _ => true
  | .idcode => true
  | .bypass => true
  | .jtagDebug _ => true
  | .svnCommit _ _ => true
  | .fuseProgramDone => true
  | .keyRevoke _ _ => true
  | .qCmd _ _ _ => true
  | .quoteDone => true
  | .extGo _ _ _ => true
  | .pdCmdOn _ _ => true
  | .pdCmdOff _ _ => true
  | .rampSlotGrant _ _ => true
  | .domainPowerupDone _ => true
  | .domainShutdownDone _ => true
  | .sensorSample _ => true
  | .powerMeasure _ => true
  | .pwrCapWrite _ _ => true
  | .marginMonitor _ _ _ => true
  | .droopDetect _ => true
  | .droopEnd _ => true
  | .fSetWrite _ _ _ => true
  | .frequencyChange _ _ => true
  | .vregTimeout _ _ _ => true
  | .collMark _ _ _ => true
  | .critWindowEnd => true
  | .refclkLost => true
  | .dapHello _ m => datagramOk m
  | .dapConfirm _ m => datagramOk m
  | .dapRead _ m => datagramOk m
  | .dapWrite _ m => datagramOk m
  | .dapBlockRead _ m => datagramOk m
  | .dapClose _ m => datagramOk m
  | .certGet _ m => datagramOk m
  | .dapIdleTimeout _ _ => true
  | .challengeTimeout => true
  | .mgmtIcmpReceive _ _ => true
  | .optCommit _ _ => true
  | .optCommitPageDone => true
  | .descSelWrite _ _ _ => true
  | .dictionaryWrite _ _ _ _ _ => true
  | .pwrFailNRelease => true
  | .refclkGood => true
  | .subportLinkUp _ => true
  | .stackTemperatureChange _ _ => true
  | .pfcPauseTimeEnd _ _ => true
  | .cnpRateRecovery _ => true
  | .rnrRetryTimer _ => true
  | .pauseFrameReceive f => frameOk f
  | .testLogicReset => true
  | .challengeSend => true
  | .acceptSend => true

end Sys2Proof
end

