-- ==== Sys2Proof/Tests/Slice0.lean ====
section
/-!
SUPPORT. Tests: ill-formed commands, results written out from the spec's rules, and for each statement states and operands
that meet its hypotheses, clause by clause.
-/
namespace Sys2Proof.Tests
open Sys2Proof Sys2Proof.Machine

/-! ### States -/

/-- A device at work: every core, stack and domain, hub firmware runs, and core c holds x. -/
def devOf (f : CoreState → CoreState) : State :=
  let s := State.reset
  { s with
    cores := vmap s.cores fun x => f { x with cond := .running, pcc := capRoot 0x1000, xvcc := capRoot 0x2000 },
    stks := vmap s.stks fun k => { k with st := .ready },
    pow := { s.pow with domains := Vector.replicate 96 ⟨.on, true, false, 0, 0⟩ },
    rst := { s.rst with phase := .ready }, rowan := { s.rowan with stage := 2 } }

/-- The same with general register g1 = v, g2 = w, and k2 the root capability at address a. -/
def devAt (v w a : Word) : State := devOf fun x => ((x.setG 1 v).setG 2 w).setK 2 (capRoot a)

def dev : State := devAt 5 7 0x018000000100

/-- What the fetch of core 0 leaves. -/
def fetched (s : State) (len : Nat) : State := (s.fetch 0 len).1

/-- Core 0 issues, and no loop is active: a state in which a statement's first hypotheses hold. -/
def Works (s : State) (len : Nat) : Prop := Issues s 0 len (fetched s len) ∧ Plain (fetched s len) 0

theorem issues_of {s : State} {len : Nat} (h : s.canIssue 0 = true ∧ (s.fetch 0 len).2 = none) :
    Issues s 0 len (fetched s len) := ⟨h.1, Prod.ext rfl h.2⟩

theorem works {s : State} {len : Nat} (h : s.canIssue 0 = true ∧ (s.fetch 0 len).2 = none ∧
    ((fetched s len).core 0).ctl.status.lm = false ∧ ((fetched s len).core 0).ctl.status.ss = false) : Works s len :=
  ⟨issues_of ⟨h.1, h.2.1⟩, h.2.2⟩

theorem access {t : State} {k : Cap} {p : Nat} {a : Word} {n : Nat} (h : k.tag = true ∧ k.isSealed = false ∧
    k.has p = true ∧ k.base ≤ a.toNat ∧ a.toNat + n ≤ k.top ∧ a.toNat % n = 0 ∧ (t.region a.toNat).mapped = true ∧
    (t.region a.toNat = .hub → k.has permFabric = true)) : MayAccess t k p a n :=
  ⟨h.1, h.2.1, h.2.2.1, h.2.2.2.1, h.2.2.2.2.1, h.2.2.2.2.2.1, h.2.2.2.2.2.2.1, h.2.2.2.2.2.2.2⟩

theorem dev_works : Works dev 4 := works (by decide)
theorem dev_works8 : Works dev 8 := works (by decide)
theorem hub : dev.hubRuns = true := by decide

/-- What the fetch of four bytes leaves of dev. -/
def devT : State := fetched dev 4

/-- No stack is fenced and no word is bad: every range is sound. -/
theorem sound {t : State} (h : (∀ st : StackId, (t.stack st).st ≠ .fenced) ∧ t.mem.latent = [] ∧ t.mem.poison = []) (a n : Nat) :
    SoundAt t a n := by
  refine ⟨fun j _ st _ => h.1 st, fun e he => ?_, fun j _ => ?_⟩
  · rw [h.2.1] at he; cases he
  · rw [h.2.2]; rfl

/-- Low addresses lie in stack memory. -/
theorem dram_region {t : State} (h : t.scfg.ilvActive = 0xFF) {a : Nat} (ha : a < 0x00BFFC000000) :
    (t.region a).mapped = true ∧ t.region a ≠ .hub := by
  have h1 : dramEnd t.scfg.ilvActive = 0x00C000000000 := by rw [h]; rfl
  have h2 : a < 0x00C000000000 := by omega
  have h3 : ¬ 0x00C000000000 - 0x4000000 ≤ a := by omega
  simp [State.region, regionOf, h1, h2, h3, Region.mapped]

theorem of_right {α β : Type} {x : State × (α ⊕ β)} (h : x.2.isRight = true) : ∃ t v, x = (t, .inr v) := by
  obtain ⟨t, _ | v⟩ := x
  · cases h
  · exact ⟨t, v, rfl⟩

theorem of_left {β : Type} {x : State × (Nat ⊕ β)} {a : Nat} (h : x.2.getLeft? = some a) : ∃ t, x = (t, .inl a) := by
  obtain ⟨t, v | _⟩ := x
  · cases h; exact ⟨t, rfl⟩
  · cases h

/-! ### Witnesses: steps and invariants -/

theorem witness_StepRunsFrontCommand : ({ dev with pending := [.fence 0] } : State).pending = .fence 0 :: [] := rfl
theorem witness_IdleStepIsOneTick : dev.pending = [] := by decide
theorem witness_CommandsLeaveTheQueue : ∃ t, exec (.fence 0) dev = .next t := ⟨_, rfl⟩
theorem witness_MemoryStaysCanonical : dev.memWf = true ∧ ∃ t, step dev = .next t := ⟨by decide, _, rfl⟩
theorem witness_FusesOnlyBlow : dev.fuseUp ∧ ∃ t, step dev = .next t := ⟨trivial, _, rfl⟩

/-! ### Witnesses: scalar instructions -/

theorem witness_IntegerInstructions : Works dev 4 ∧ Works dev 8 ∧
    (aluTable (devT.getG 0) 0 3 1 2 0 0xFFF 63 0 63 0).length = 45 ∧
    (BitVec.extractLsb' 6 6 (0x040 : BitVec 12)) ≠ 0 ∧ (BitVec.extractLsb' 6 6 (0xFFF : BitVec 12)) ≠ 0 :=
  ⟨dev_works, dev_works8, by decide⟩

theorem witness_BranchesAndJumps : Works dev 4 ∧
    -- a condition that fails, one that holds; targets at both ends of imm
    decide (devT.getG 0 1 = devT.getG 0 2) = false ∧ decide (devT.getG 0 1 ≠ devT.getG 0 2) = true ∧
    (∀ a ∈ [0x1000 - 4 * 2048, 0x1000 + 4 * 2047, 0, 0x1000 - 4 * 0x400], a % 4 = 0 ∧ (devT.core 0).pcc.base ≤ a ∧
      a < (devT.core 0).pcc.top) ∧
    -- jalr to an address that is not aligned
    (devT.getG 0 1 + BitVec.ofInt 64 (0 : BitVec 12).toInt).toNat % 4 ≠ 0 ∧
    (devT.core 0).ctl.status.sb = false ∧ (devT.core 0).xvcc.entersHandler = true :=
  ⟨dev_works, by decide⟩

/-- Loads of every size, at the first and the last bytes of hub buffers and of stack memory. -/
theorem witness_LoadsReadMemory : Works dev 4 ∧
    (∀ p ∈ loadTable, MayAccess devT (devT.getK 0 2) permLoad 0x018000000000 p.2.1 ∧
      MayAccess devT (devT.getK 0 2) permLoad (0x0180040A0000 - BitVec.ofNat 64 p.2.1) p.2.1 ∧
      MayAccess devT (devT.getK 0 2) permLoad 0 p.2.1) ∧
    MayAccess devT (devT.getK 0 2) permLoad 0x018000000100 16 ∧
    (∀ n ∈ [8, 16], (devT.scalarRead 0 0 n).2.poison = false) ∧
    -- the failing checks: no tag, sealed, no permission, out of bounds
    (devT.getK 0 3).tag = false ∧
    (∀ k ∈ [(capRoot 0).sealAs 5], k.tag = true ∧ k.isSealed = true) ∧
    (∀ k ∈ [(capRoot 0).setPerms 0], k.tag = true ∧ k.isSealed = false ∧ k.has permLoad = false) ∧
    (∀ k ∈ ((capRoot 0x100).narrow 16 true).toList, k.tag = true ∧ k.isSealed = false ∧ k.has permLoad = true ∧
      (0xFF < k.base ∧ k.top ≤ 0x110) ∧
      -- 8 and 16 bytes that begin within and end past the top
      k.base ≤ 0x10C ∧ 0x10C < k.top ∧ k.top < 0x10C + 8 ∧ k.base ≤ 0x108 ∧ 0x108 < k.top ∧ k.top < 0x108 + 16) ∧
    ((capRoot 0x100).narrow 16 true).isSome = true ∧
    -- hub buffers, the reserved block above them (R327), an address that is not aligned
    devT.region 0x018000000000 = .hub ∧ (devT.region 0x0180040A0000).mapped = false ∧ (0x018000000001 : Word).toNat % 2 ≠ 0 := by
  refine ⟨dev_works, fun p h => ?_, access (by decide), ?_⟩
  · fin_cases h <;> exact ⟨access (by decide), access (by decide), access (by decide)⟩
  · decide

theorem witness_StoresWriteMemory : Works dev 4 ∧
    (∀ p ∈ storeTable, MayAccess devT (devT.getK 0 2) permStore 0x018000000000 p.2 ∧ devT.region 0x018000000000 = .hub ∧
      MayAccess devT (devT.getK 0 2) permStore 0x018 p.2 ∧ devT.region 0x018 ≠ .hub) ∧
    MayAccess devT (devT.getK 0 2) permStore 0x010 16 ∧ (devT.getK 0 2).has permStoreCap = true := by
  refine ⟨dev_works, fun p h => ?_, access (by decide), by decide⟩
  fin_cases h <;> exact ⟨access (by decide), by decide, access (by decide), by decide⟩

/-- Core 0 with a loop of n passes whose last instruction is at its pcc. -/
def looping (n : Word) : State := devOf fun x => { x with ctl := { x.ctl with
  status := ⟨false, true, false, false⟩, lc0 := n, ls0 := 0xFF0, le0 := 0x1000 } }

/-- Core 0 inside a loop that ends at e, with nothing at its pcc. -/
def nested (e : Word) : State := devOf fun x => { x with ctl := { x.ctl with
  status := ⟨false, true, false, false⟩, lc0 := 3, ls0 := 0xFF0, le0 := e } }

theorem witness_LoopsAndControlRegisters : Works dev 4 ∧
    -- level 0 is free; both counts, zero too; a target that level 1 ends at (le1 = 0x1004)
    (1 : BitVec 9) ≠ 0 ∧ (devT.core 0).ctl.lc0 = 0 ∧ (devT.core 0).ctl.le1 ≠ 0x1004 ∧ devT.getG 0 0 = 0 ∧ devT.getG 0 1 ≠ 0 ∧
    -- an inner loop to 0x1004, one that would end with the outer, one that would leave it
    (∀ e ∈ [(0x2000 : Word), 0x1004, 0x1002], let x := ((fetched (nested e) 4).core 0)
      Issues (nested e) 0 4 (fetched (nested e) 4) ∧ x.ctl.status.ss = false ∧ x.ctl.status.lm = true ∧ x.ctl.lc0 ≠ 0 ∧ x.ctl.lc1 = 0 ∧
      x.ctl.le0 ≠ x.pcc.cursor ∧ x.ctl.ls0.toNat ≤ (x.pcc.cursor + 4).toNat) ∧
    (∀ n ∈ [1, 2], Issues (looping n) 0 4 (fetched (looping n) 4) ∧ ((fetched (looping n) 4).core 0).ctl.status.lm = true ∧
      ((fetched (looping n) 4).core 0).ctl.status.ss = false ∧ ((fetched (looping n) 4).core 0).ctl.lc1 = 0 ∧
      ((fetched (looping n) 4).core 0).ctl.le0 = (fetched (looping n) 4).pc 0 ∧ ((fetched (looping n) 4).core 0).ctl.lc0 ≠ 0) ∧
    (devT.core 0).tile.drains = [] ∧ (ctlTable (devT.core 0) 0).length = 22 ∧ (ctlWrites (devT.core 0).ctl 0).length = 17 ∧
    ∃ p ∈ ctlTable (devT.core 0) 0, p.1 = 0x0A := by
  refine ⟨dev_works, by decide, by decide, by decide, by decide, by decide, fun e h => ?_, fun n h => ?_, by decide⟩
  · fin_cases h <;> exact ⟨issues_of (by decide), by decide⟩
  · fin_cases h <;> exact ⟨issues_of (by decide), by decide⟩

/-- Block repeats: g1 = 0x018000000100, g2 = 1 and 0, g3 = 0x018000000200; k2 and k3 root capabilities. -/
def repeats (n : Word) : State := devOf fun x =>
  ((((x.setG 1 0x018000000100).setG 2 n).setG 3 0x018000000200).setK 2 (capRoot 0)).setK 3 (capRoot 0)

theorem witness_BlockRepeats : Works (repeats 1) 4 ∧ Works (repeats 0) 4 ∧
    (let t := fetched (repeats 1) 4
     t.getG 0 2 = 1 ∧
     (∀ sz ∈ [(0 : BitVec 2), 1, 2, 3], let w := 2 ^ sz.toNat
       MayAccess t (t.getK 0 2) permStore (t.getG 0 1) w ∧ MayAccess t (t.getK 0 3) permLoad (t.getG 0 3) w ∧
       MayAccess t (t.getK 0 2) permLoad (t.getG 0 1) w) ∧
     (let r := t.scalarRead 0 0x018000000200 8
      r.2.poison = false) ∧
     (let r := t.scalarRead 0 0x018000000100 8
      let q := r.1.scalarRead 0 0x018000000200 8
      r.2.poison = false ∧ q.2.poison = false ∧ r.2.bytes = q.2.bytes) ∧
     (t.getK 0 2).usable ∧ (t.getK 0 2).has permFabric = true ∧ (0x018000000100 : Nat) % 8 = 0 ∧
     (t.getK 0 2).base ≤ 0x018000000100 ∧ 0x018000000108 ≤ (t.getK 0 2).top ∧ 0x0180040A0000 ≤ (t.getK 0 2).top) ∧
    (fetched (repeats 0) 4).getG 0 2 = 0 ∧ ((fetched (repeats 0) 4).core 0).ctl.status.ie = false := by
  refine ⟨works (by decide), works (by decide), ⟨by decide, fun sz h => ?_, by decide, by decide, ⟨by decide, by decide⟩, by decide⟩, by decide, by decide⟩
  fin_cases h <;> exact ⟨access (by decide), access (by decide), access (by decide)⟩

/-- A dirty line. -/
def aLine : CacheLine := ⟨2, 0, true, ⟨Vector.replicate 128 0, Vector.replicate 8 false, Vector.replicate 4 false,
  Vector.replicate 128 true, Vector.replicate 128 false⟩⟩

theorem witness_LineInstructions : Works (repeats 1) 4 ∧
    -- iload: the first line of instruction space, from stack memory; iflush, dcclean and dcinval of a line
    (let s := devOf fun x => ((x.setG 1 0x100).setG 2 1).setK 2 (capRoot 0)
     let t := fetched s 4
     Works s 4 ∧ (t.getK 0 2).usable ∧ (t.getK 0 2).has permExec = true ∧ (t.getK 0 2).has permStore = true ∧
     (t.getG 0 1).toNat % 128 = 0 ∧ (t.getK 0 2).base ≤ 0x100 ∧ 0x180 ≤ (t.getK 0 2).top ∧
     0x180 ≤ istoreEnd t.scfg.ilvActive ∧ MayAccess t (t.getK 0 2) permLoad 0x100 128 ∧
     (t.scalarRead 0 0x100 128).2.poison = false ∧ MayMaintain t (t.getK 0 2) 0x100) ∧
    (∃ (s : State) (l : CacheLine), (s.core 0).cache.miss = some l) :=
  ⟨works (by decide), ⟨works (by decide), ⟨by decide, by decide⟩, by decide, by decide, by decide, by decide, by decide, by decide,
    access (by decide), by decide, ⟨⟨by decide, by decide⟩, by decide, by decide, by decide, by decide, by decide⟩⟩,
   devOf (fun x => { x with cache := { x.cache with miss := some aLine } }), aLine, rfl⟩

/-! ### Witnesses: capabilities and events -/

theorem witness_CapabilityOperations : Works dev 4 ∧
    -- ks1 = k2 (root), ks2 = k3: a sealed one for kunlock, its type as cursor for the sealer
    (let s := devOf fun x => (((x.setK 2 (capRoot 0x1000)).setK 3 (capRoot 0x20)).setK 4 ((capRoot 0x1000).sealAs 0x20)).setG 1 0x80
     let t := fetched s 4
     Works s 4 ∧ (t.getK 0 2).usable ∧ MaySeal (t.getK 0 3) permSeal ∧ MaySeal (t.getK 0 3) permUnseal ∧
     (t.getK 0 3).cursor ≠ 0 ∧ (t.getK 0 3).cursor.toNat ≤ 0x7F ∧ ¬(0x60 ≤ (t.getK 0 3).cursor.toNat ∧ (t.getK 0 3).cursor.toNat ≤ 0x7D) ∧
     (t.getK 0 4).tag = true ∧ (t.getK 0 4).isSealed = true ∧ (t.getK 0 4).otype.toNat = (t.getK 0 3).cursor.toNat ∧
     (t.core 0).pcc.has permMask = true ∧ (t.getK 0 2).boundsGiven = true ∧
     -- knarrow: 0x80 bytes at 0x1000 fit exactly with exponent 0
     (t.getK 0 2).cursor.toNat = 0x1000 ∧ (t.getG 0 1).toNat = 0x80 ∧
     ((0x1000 + 0x80 + 2 ^ 0 - 1) / 2 ^ 0 - 0x1000 / 2 ^ 0 ≤ 0x1E000) ∧ (t.getK 0 2).base ≤ 0x1000 ∧ 0x1080 ≤ (t.getK 0 2).top) ∧
    -- 0x1E001 bytes need exponent 1 and are rounded; bounds that leave ks1's
    (let n := 0x1E001
     ¬((0x1000 + n + 2 ^ 0 - 1) / 2 ^ 0 - 0x1000 / 2 ^ 0 ≤ 0x1E000) ∧ ((0x1000 + n + 2 ^ 1 - 1) / 2 ^ 1 - 0x1000 / 2 ^ 1 ≤ 0x1E000) ∧
     (0x1000 + n + 2 ^ 1 - 1) / 2 ^ 1 * 2 ^ 1 ≠ 0x1000 + n) ∧
    (∀ k ∈ ((capRoot 0x1000).narrow 16 true).toList, k.top < 0x1080) := by
  refine ⟨dev_works, ⟨works (by decide), ⟨by decide, by decide⟩, ⟨⟨by decide, by decide⟩, by decide, by decide, by decide⟩,
    ⟨⟨by decide, by decide⟩, by decide, by decide, by decide⟩, by decide, by decide, by decide, by decide, by decide, by decide, by decide,
    by decide, by decide, by decide, by norm_num, by decide, by decide⟩, by norm_num, by decide⟩

theorem witness_DerivedNeverExceeds : (capRoot 0).boundsGiven = true ∧ ((capRoot 0x1000).narrow 16 true).isSome = true := by decide

set_option maxRecDepth 4000 in
theorem witness_CapabilityControl :
    -- kgo through an unsealed capability and through a gate
    (let s := devOf fun x => ((x.setK 2 (capRoot 0x2000)).setK 3 ((capRoot 0x2000).sealAs 0x7E)).setG 1 0x10
     let t := fetched s 4
     Works s 4 ∧ ∀ kg ∈ [((2 : KReg), (1 : GReg)), (3, 0)],
       let k := t.getK 0 kg.1
       let v := if k.isSealed then k.cursor else k.cursor + t.getG 0 kg.2
       k.tag = true ∧ k.has permExec = true ∧ (k.isSealed = true → k.otype = 0x7E ∧ kg.2 = 0) ∧ k.exp = 63 ∧
       k.base ≤ v.toNat ∧ v.toNat < k.top ∧ v.toNat % 4 = 0) ∧
    -- without MASK and DEBUG in pcc, and with them
    (let s := devOf fun x => { (x.setG 1 0x9) with pcc := (capRoot 0x1000).setPerms (0xFFFF ^^^ (BitVec.ofNat 16 (2 ^ permMask)) ^^^
       (BitVec.ofNat 16 (2 ^ permDebug))) }
     let t := fetched s 4
     Works s 4 ∧ (t.core 0).pcc.has permMask = false ∧ (t.core 0).pcc.has permDebug = false ∧
       (t.getG 0 1).getLsbD 0 ≠ (t.core 0).ctl.status.ie ∧ (t.getG 0 1).getLsbD 3 = true) ∧
    Works dev 4 ∧ (devT.core 0).pcc.has permMask = true ∧ (devT.core 0).pcc.has permDebug = true ∧ (devT.getG 0 1).getLsbD 1 = false := by
  refine ⟨⟨works (by decide), by decide⟩, ⟨works (by decide), by decide⟩, dev_works, by decide⟩

/-- Core 0 inside a handler: sb = 1 and the return capability in the bank. -/
def handling : State := devOf fun x => { x with
  ctl := { x.ctl with status := ⟨false, false, true, false⟩ },
  shadow := { x.shadow with pcc := (capRoot 0x3000).sealAs 0x7F, status := ⟨true, false, false, true⟩ } }

/-- The root capability at 0x1000 without MASK and DEBUG. -/
def bare : Cap := (capRoot 0x1000).setPerms (0xFFFF ^^^ (BitVec.ofNat 16 (2 ^ permMask)) ^^^ (BitVec.ofNat 16 (2 ^ permDebug)))

/-- Core 0 under pcc inside a handler that would return to saved with status st. -/
def returning (pcc saved : Cap) (st : Status) : State := devOf fun x => { x with
  pcc := pcc, ctl := { x.ctl with status := ⟨false, false, true, false⟩ }, shadow := { x.shadow with pcc := saved, status := st } }

/-- `handling` with ECC word 0xF8 marked poisoned. -/
def poisoned (t : State) : State := t.setMem { t.mem with poison := [(0xF8, 7)] }

/-- A root capability at a, 16-byte aligned, for a frame of the shadow bank. -/
def frameAt (a : Word) : State := devOf fun x => x.setK 2 (capRoot a)

def frameDev : State := frameAt 0x018000000100

theorem witness_ShadowFrames : Works frameDev 4 ∧
    (let t := fetched frameDev 4
     let k := t.getK 0 2
     k.usable ∧ k.has permStore = true ∧ k.has permStoreCap = true ∧ k.has permLoad = true ∧ k.has permFabric = true ∧
     k.cursor.toNat % 16 = 0 ∧ k.base ≤ k.cursor.toNat ∧ k.cursor.toNat + 640 ≤ k.top ∧ 0x018000000000 ≤ k.cursor.toNat ∧
     k.cursor.toNat + 640 ≤ 0x0180040A0000 ∧ (∀ r : KReg, ((t.core 0).shadow.k[r]).tag = false) ∧ (t.core 0).shadow.pcc.tag = false) ∧
    -- a tagged capability in the bank
    (((fetched handling 4).core 0).shadow.pcc.tag = true) ∧
    -- stack memory, sound and poisoned
    (∀ j < 640, ((fetched (frameAt 0x1F00) 4).region (0x1F00 + j)).mapped = true ∧ (fetched (frameAt 0x1F00) 4).region (0x1F00 + j) ≠ .hub) ∧
    (∃ t1 gs, (fetched (frameAt 0x1F00) 4).readGranules 0 0x1F00 33 = (t1, .inr gs)) ∧
    (∃ t1, (poisoned (fetched (frameAt 0x1F00) 4)).readGranules 0 0x1F00 33 = (t1, .inl 0x1F00)) :=
  ⟨works (by decide), ⟨⟨by decide, by decide⟩, by decide⟩, by decide, fun j hj => dram_region (by decide) (by omega),
    of_right (by decide), of_left (by decide)⟩

theorem witness_ReturnRestores : Works handling 4 ∧ MayReturn ((fetched handling 4).core 0) ∧
    Works dev 4 ∧ (devT.core 0).ctl.status.sb = false ∧
    -- sb = 1 and a saved pcc without tag; a gate without MASK and without DEBUG in pcc
    (let s := returning (capRoot 0x1000) { capRoot 0x3000 with tag := false } ⟨true, false, false, false⟩
     Works s 4 ∧ ((fetched s 4).core 0).ctl.status.sb = true ∧ ((fetched s 4).core 0).shadow.pcc.tag = false) ∧
    (∀ st ∈ [(⟨false, false, false, false⟩ : Status), ⟨true, false, false, true⟩],
     let s := returning bare ((capRoot 0x3000).sealAs 0x7F) st
     let x := (fetched s 4).core 0
     let p := x.shadow.pcc
     Works s 4 ∧ x.ctl.status.sb = true ∧ (p.tag = true ∧ p.isSealed = true ∧ p.otype = 0x7F ∧ p.has permExec = true ∧
       p.base ≤ p.cursor.toNat ∧ p.cursor.toNat < p.top ∧ p.cursor.toNat % 4 = 0) ∧
     ((x.shadow.status.ie = false ∧ x.pcc.has permMask = false) ∨ (x.shadow.status.ss = true ∧ x.pcc.has permDebug = false))) :=
  ⟨works (by decide), ⟨by decide, by decide, ⟨by decide, by decide⟩, by decide, by decide, by decide, by decide, by decide, by decide⟩,
    dev_works, by decide, ⟨works (by decide), by decide, by decide⟩, fun st h => by
      fin_cases h <;> exact ⟨works (by decide), by decide⟩⟩

/-- Core 0 with notice n pending, masked or not, and the handler h. -/
def noticed (n : Notices) (ie : Bool) (h : Cap) : State := devOf fun x => { x with
  xvcc := h, ctl := { x.ctl with status := ⟨ie, false, false, false⟩ }, notice := n }

/-- Source 64 is pending, of priority 5. -/
def interrupted : State :=
  let s := noticed ⟨false, false, false⟩ true (capRoot 0x2000)
  let blocks := vmap s.int.blocks fun b => { b with pending := flagSet b.pending 64 true }
  { s with int := { s.int with blocks := blocks, prio := sparseSet (fun _ => 0) s.int.prio 64 5 } }

theorem witness_EntriesAreTaken : Works dev 4 ∧ (devT.core 0).ctl.status.sb = false ∧ (devT.core 0).xvcc.entersHandler = true ∧
    Works handling 4 ∧ ((fetched handling 4).core 0).ctl.status.sb = true ∧
    -- each event first, with a handler and without one
    (∀ e ∈ [((57 : BitVec 6), (⟨true, true, true⟩ : Notices)), (58, ⟨false, true, true⟩), (59, ⟨false, false, true⟩)],
       ∀ h ∈ [capRoot 0x2000, { capRoot 0x2000 with tag := false }],
     let s := noticed e.2 true h
     s.coreRuns 0 = true ∧ (s.core 0).tile.op = none ∧ (s.core 0).str.wait = .none ∧ (s.core 0).ctl.status.ie = true ∧
     (s.core 0).ctl.status.sb = false ∧ FirstEvent s 0 e.1) ∧
    (capRoot 0x2000).entersHandler = true ∧ ({ capRoot 0x2000 with tag := false } : Cap).entersHandler = false ∧
    (let s := interrupted
     s.coreRuns 0 = true ∧ (s.core 0).tile.op = none ∧ (s.core 0).str.wait = .none ∧ (s.core 0).ctl.status.ie = true ∧
     (s.core 0).ctl.status.sb = false ∧ FirstEvent s 0 56) ∧
    -- none deliverable
    dev.coreRuns 0 = true ∧ (dev.core 0).tile.op = none ∧ (dev.core 0).str.wait = .none ∧ (dev.core 0).ctl.status.ie = false ∧
    -- a fetch that fails, and a cause with sb = 0 and with sb = 1
    (let s := devOf fun x => { x with pcc := { capRoot 0x1000 with tag := false } }
     s.canIssue 0 = true ∧ (s.fetch 0 4).2.isSome = true) ∧
    Traps (.mfsg 0 1 0) dev devT 0 (cILLEGAL (devT.pc 0)) ∧
    Traps (.mfsg 0 1 0) handling (fetched handling 4) 0 (cILLEGAL ((fetched handling 4).pc 0)) := by
  refine ⟨dev_works, by decide, by decide, works (by decide), by decide, fun e he h hh => ?_, by decide, by decide, ?_, by decide, by decide,
    by decide, by decide, by decide, rfl, rfl⟩
  · fin_cases he <;> fin_cases hh <;> exact ⟨by decide, by decide, by decide, by decide, by decide, by
      first
        | exact .inl ⟨rfl, by decide⟩
        | exact .inr (.inl ⟨rfl, by decide⟩)
        | exact .inr (.inr (.inl ⟨rfl, by decide⟩))⟩
  · exact ⟨by decide, by decide, by decide, by decide, by decide, .inr (.inr (.inr ⟨rfl, by decide, by decide, by decide, 64, by decide⟩))⟩

/-! ### Witnesses: vectors -/

/-- Two elements in a vector; g1 = 1; k2 a root capability in hub buffers. -/
def vecDev : State := devOf fun x =>
  let y := (x.setG 1 1).setK 2 (capRoot 0x018000000100)
  { y with ctl := { y.ctl with vl := 2 } }

/-- A register form on v0 to v4 of format fm, one register to a group. -/
def vr (fm : BitVec 4) (me : Bool) : VrFields := ⟨0, 0, 0, false, me, 0, fm, fm, 1, 2, 3, 4⟩

def vm (fm : BitVec 4) (nf : BitVec 2) (gs : GReg) (vi : Fin 32) : VmFields := ⟨0, false, nf, 0, false, false, 0, fm, vi, gs, 2, 4⟩

def vecT : State := fetched vecDev 8

theorem vec_issues : VecIssues vecDev vecT 0 := by
  have h : Works vecDev 8 := works (by decide)
  exact ⟨h.1, h.2, by decide⟩

/-- The same with vl = 0. -/
def noVec : State := fetched dev 8

theorem noVec_issues : VecIssues dev noVec 0 ∧ (noVec.core 0).ctl.vl = 0 := ⟨⟨dev_works8.1, dev_works8.2, by decide⟩, by decide⟩

theorem vec_fresh : FormFresh vecT 0 := by
  intro l h
  exact absurd h (by simp [show (vecT.core 0).forms = [] from by decide])

theorem witness_MaskInstructions : VecIssues vecDev vecT 0 ∧ (VecIssues dev noVec 0 ∧ (noVec.core 0).ctl.vl = 0) ∧ (vecT.core 0).ctl.vl ≠ 0 ∧
    (let f : VrFields := ⟨0, 0, 0, false, true, 0, 9, 9, 1, 2, 7, 7⟩
     VrPlain f ∧ (vecT.core 0).ctl.vl.toNat ≤ capacity (2 ^ f.grp.toNat) (vrWidth f) ∧
     (∀ p ∈ maskTable 0 f, ∀ r ∈ p.2.1, r.val < 8) ∧ f.vs1.val < 8 ∧ f.vd.val < 8) :=
  ⟨vec_issues, noVec_issues, by decide, ⟨by decide, by decide, by decide⟩, by decide⟩

theorem witness_VectorPermutations : VecIssues vecDev vecT 0 ∧ (VecIssues dev noVec 0 ∧ (noVec.core 0).ctl.vl = 0) ∧ VrPlain (vr 13 true) ∧ VrPlain (vr 13 false) ∧
    (vecT.core 0).ctl.vl.toNat ≤ capacity 1 (vrWidth (vr 13 true)) ∧ (vr 13 true).sfmt = (vr 13 true).fmt ∧
    groupsApart (vr 13 true).vd.val (vr 13 true).vs1.val 1 ∧ (vr 13 true).me = true ∧
    -- vresume below vl, and at vl
    (vecT.core 0).ctl.vresume.toNat < (vecT.core 0).ctl.vl.toNat ∧ (noVec.core 0).ctl.vl.toNat ≤ (noVec.core 0).ctl.vresume.toNat ∧
    ((vr 13 false).me = false ∧ (vr 13 false).zm = false ∧ (vr 13 false).ms = 0) ∧
    (let f : VrFields := ⟨0, 0, 0, false, false, 0, 12, 13, 0, 2, 3, 4⟩
     VrPlain f ∧ f.sfmt = 12 ∧ (vecT.core 0).ctl.vl.toNat ≤ capacity 1 (vrWidth f) ∧ max 1 (1 * 2 / vrWidth f) ≤ 8 ∧
     groupsApart f.vd.val f.vs1.val 1 ∧ (f.vd.val + 1 ≤ f.vs2.val ∨ f.vs2.val + max 1 (1 * 2 / vrWidth f) ≤ f.vd.val)) := by
  refine ⟨vec_issues, noVec_issues, ⟨by decide, by decide, by decide⟩, ⟨by decide, by decide, by decide⟩, by decide, by decide, by unfold groupsApart; decide,
    by decide, by decide, by decide, by decide, ⟨by decide, by decide, by decide⟩, by decide, by decide, by decide, by unfold groupsApart; decide, by decide⟩

theorem holds_none (c : CoreId) (l : Nat) : (vecT.core c).cache.holds l = false := by fin_cases c <;> rfl

theorem vec_sound (a n : Nat) (h : ∀ j < n, (vecT.region (a + j)).stack? = none) (hp : vecT.mem.poison = []) : PlainAt vecT a n := by
  refine ⟨⟨fun j hj st e => ?_, fun e he => ?_, fun j _ => ?_⟩, fun c l _ _ => holds_none c l⟩
  · rw [h j hj] at e; cases e
  · exact absurd he (by simp [show vecT.mem.latent = [] from by decide])
  · rw [hp]; rfl

/-- Every element below vl = 2 may be reached: its address is one of a few bytes of hub buffers. -/
theorem vec_reach (m : VmMode) (f : VmFields) (w nf : Nat)
    (h : ∀ e ∈ [0, 1], let a := vmElemAddr vecT 0 f m w nf e
      (vecT.getK 0 f.kb).base ≤ a.toNat ∧ a.toNat + w * nf ≤ (vecT.getK 0 f.kb).top ∧ a.toNat + w * nf ≤ 2 ^ 64 ∧ a.toNat % w = 0 ∧
      (∀ j < w * nf, (vecT.region (a.toNat + j)).mapped = true ∧ (vecT.region (a.toNat + j)).stack? = none) ∧
      (vecT.getK 0 f.kb).has permFabric = true) :
    ∀ e, vmReaches vecT 0 f w e → MayReach vecT (vecT.getK 0 f.kb) (vmElemAddr vecT 0 f m w nf e) (w * nf) w ∧
      PlainAt vecT (vmElemAddr vecT 0 f m w nf e).toNat (w * nf) := by
  intro e he
  have hv : (vecT.core 0).ctl.vl.toNat = 2 := by decide
  have h2 : e ∈ [0, 1] := by
    have := he.1.2
    rw [hv] at this
    interval_cases e <;> simp
  obtain ⟨h1, h2, h3, h4, h5, h6⟩ := h e h2
  exact ⟨⟨h1, h2, h3, h4, fun j hj => (h5 j hj).1, fun _ _ _ => h6⟩, vec_sound _ _ (fun j hj => (h5 j hj).2) (by decide)⟩

theorem vec_form (m : VmMode) (f : VmFields) (store : Bool) (w nf : Nat) (hu : (vecT.getK 0 f.kb).usable)
    (h : (vecT.getK 0 f.kb).has (if store then permStore else permLoad) = true ∧ f.v.val % 2 ^ f.grp.toNat = 0 ∧
      (vecT.core 0).ctl.vl.toNat ≤ capacity (2 ^ f.grp.toNat) w ∧ (m ≠ .strided → f.gs = 0) ∧
      (m ≠ .indexed → f.vi = 0 ∧ f.iw = false) ∧ (store = true → f.zm = false))
    (hf : if m = .structure then f.nf ≠ 0 ∧ nf = f.nf.toNat + 1 ∧ nf * 2 ^ f.grp.toNat ≤ 8 ∧ f.v.val + nf * 2 ^ f.grp.toNat ≤ 32
      else f.nf = 0 ∧ nf = 1)
    (hi : m = .indexed → let span := max 1 (2 ^ f.grp.toNat * (if f.iw then 8 else 4) / w)
      span ≤ 8 ∧ f.vi.val % span = 0 ∧ (store = false → f.v.val + 2 ^ f.grp.toNat ≤ f.vi.val ∨ f.vi.val + span ≤ f.v.val)) :
    VmIssues vecT 0 f m store w nf :=
  ⟨hu, h.1, h.2.1, h.2.2.1, h.2.2.2.1, h.2.2.2.2.1, hf, h.2.2.2.2.2, hi⟩

/-- The four addressing modes on 4-byte elements; a structure of two fields. -/
def vmForms : List (VmMode × VmFields × Nat) :=
  [(.unit, vm 13 0 0 0, 1), (.strided, vm 13 0 0 0, 1), (.indexed, vm 13 0 0 2, 1), (.structure, vm 13 1 0 0, 2)]

theorem vec_forms (store : Bool) : ∀ p ∈ vmForms, VmIssues vecT 0 p.2.1 p.1 store 4 p.2.2 ∧
    ∀ e, vmReaches vecT 0 p.2.1 4 e → MayReach vecT (vecT.getK 0 p.2.1.kb) (vmElemAddr vecT 0 p.2.1 p.1 4 p.2.2 e) (4 * p.2.2) 4 ∧
      PlainAt vecT (vmElemAddr vecT 0 p.2.1 p.1 4 p.2.2 e).toNat (4 * p.2.2) := by
  intro p hp
  fin_cases hp <;> cases store <;>
    exact ⟨vec_form _ _ _ _ _ ⟨by decide, by decide⟩ (by decide) (by decide) (by decide), vec_reach _ _ _ _ (by decide)⟩

theorem witness_VectorLoads : VecIssues vecDev vecT 0 ∧ FormFresh vecT 0 ∧ Fmt.ofCode 13 = some .i32 ∧ 8 ≤ Fmt.i32.bits ∧ Fmt.i32.lanes = 4 ∧
    ∀ p ∈ vmForms, VmIssues vecT 0 p.2.1 p.1 false 4 p.2.2 := 
  ⟨vec_issues, vec_fresh, by decide, by decide, by decide, fun p hp => (vec_forms false p hp).1⟩

theorem witness_VectorStores : VecIssues vecDev vecT 0 ∧ FormFresh vecT 0 ∧ Fmt.ofCode 13 = some .i32 ∧ 8 ≤ Fmt.i32.bits ∧
    ∀ p ∈ vmForms, VmIssues vecT 0 p.2.1 p.1 true 4 p.2.2 := 
  ⟨vec_issues, vec_fresh, by decide, by decide, fun p hp => (vec_forms true p hp).1⟩

theorem sub_forms (store : Bool) (hl : (vecT.core 0).ctl.vl.toNat ≤ capacity 1 1) :
    VmIssues vecT 0 (vm 8 0 0 0) .unit store 1 1 :=
  ⟨⟨by decide, by decide⟩, by cases store <;> decide, by decide, hl, by intro; rfl, by intro; exact ⟨rfl, rfl⟩, ⟨rfl, rfl⟩, by intro; rfl,
    by intro h; cases h⟩

/-- A Bramble form on FP32 that issues: addition, comparison, dropout, the generators. -/
theorem chain_issues (op : BitVec 5) (red : BitVec 2) (f : VrFields) (sf df : Fmt) (h : Fmt.ofCode f.sfmt = some sf ∧ Fmt.ofCode f.fmt = some df ∧
    RMode.ofField f.rm (vecT.core 0).ctl.rm = some .rne ∧ opKnown op = true ∧ opKind op sf.isInt = true ∧
    (f.cfg.extractLsb' 0 2 ≠ 3 ∧ (f.cfg.getLsbD 2 = true → f.cfg.extractLsb' 0 2 = 1) ∧ (op = opDrop → f.cfg.extractLsb' 0 2 = 2)) ∧
    (sf.isInt = true → f.cfg.extractLsb' 0 2 ≠ 1) ∧ (op = 0x0A → sf.workWide = false) ∧ (op = opRandb → df.isInt = true) ∧
    (red ≠ 0 → opUsesB op = false) ∧ (2 ≤ red.toNat → f.vs2 ≠ 31) ∧ (opReadsA op = false → f.vs1 = 0) ∧
    ((opReadsA op = true → f.vs1.val % operandGroup (2 ^ f.grp.toNat) sf.lanes (chainLanes sf df) = 0) ∧
     (opUsesB op = true → f.vs2.val % operandGroup (2 ^ f.grp.toNat) sf.lanes (chainLanes sf df) = 0)) ∧
    (if opCompares op then red = 0 ∧ f.vd.val < 8 ∧ sf = df
      else f.vd.val % operandGroup (2 ^ f.grp.toNat) df.lanes (chainLanes sf df) = 0) ∧
    (vecT.core 0).ctl.vl.toNat ≤ capacity (2 ^ f.grp.toNat) (chainLanes sf df)) :
    ChainIssues vecT 0 op 0 red f sf df .rne := by
  obtain ⟨h1, h2, h3, h4, h5, h6, h7, h8, h9, h10, h11, h12, h13, h14, h15⟩ := h
  refine ⟨h1, h2, h3, h4, h5, h6, fun i => ⟨rfl, h7 i⟩, h8, h9, h10, h11, h12, h13, ?_, h15⟩
  split at h14
  · rw [if_pos ‹_›]; exact ⟨rfl, h14⟩
  · rw [if_neg ‹_›]; exact h14

theorem witness_BrambleForms : VecIssues vecDev vecT 0 ∧ FormFresh vecT 0 ∧
    -- packed elements of every group: FP4 (2 in a byte) and FP6 (4 in three bytes)
    (Fmt.ofCode 8 = some .e2m1 ∧ packGroup .e2m1 = some (2, 1) ∧ Fmt.ofCode 7 = some .e2m3 ∧ packGroup .e2m3 = some (4, 3) ∧
     (let t := vecT; let k := t.getK 0 2
      (∀ n ∈ [1, 3], k.base ≤ k.cursor.toNat ∧ k.cursor.toNat + n ≤ k.top ∧ ∀ j < n, (t.region (k.cursor.toNat + j)).mapped = true) ∧
      k.has permFabric = true) ∧ PlainAt vecT 0x018000000100 3 ∧
     VmIssues vecT 0 (vm 8 0 0 0) .unit false 1 1 ∧ VmIssues vecT 0 (vm 8 0 0 0) .unit true 1 1 ∧
     (vecT.core 0).ctl.vl.toNat % 2 = 0 ∧ (vecT.core 0).ctl.vresume.toNat % 2 = 0) ∧
    -- an addition, a comparison, a dropout and the generators
    ChainIssues vecT 0 0x01 0 0 (vr 1 true) .fp32 .fp32 .rne ∧ ChainIssues vecT 0 opCeq 0 0 (vr 1 true) .fp32 .fp32 .rne ∧
    ChainIssues vecT 0 opDrop 0 0 ⟨2, 0, 0, false, true, 0, 1, 1, 1, 2, 3, 4⟩ .fp32 .fp32 .rne ∧
    ChainIssues vecT 0 opRandu 0 0 ⟨0, 0, 0, false, true, 0, 1, 1, 1, 2, 0, 4⟩ .fp32 .fp32 .rne ∧
    ChainIssues vecT 0 opRandb 0 0 ⟨0, 0, 0, false, true, 0, 13, 13, 1, 2, 0, 4⟩ .i32 .i32 .rne :=
  ⟨vec_issues, vec_fresh, ⟨by decide, by decide, by decide, by decide, ⟨by decide, by decide⟩,
    vec_sound _ _ (by decide) (by decide), sub_forms _ (by decide), sub_forms _ (by decide), by decide, by decide⟩,
   chain_issues _ _ _ _ _ (by decide), chain_issues _ _ _ _ _ (by decide), chain_issues _ _ _ _ _ (by decide),
   chain_issues _ _ _ _ _ (by decide), chain_issues _ _ _ _ _ (by decide)⟩

theorem witness_BrambleReductions : VecIssues vecDev vecT 0 ∧
    (∀ red ∈ [(1 : BitVec 2), 2, 3], red ≠ 0 ∧ ChainIssues vecT 0 0 0 red (vr 1 true) .fp32 .fp32 .rne) ∧
    -- vs2 = 0 discards the result
    (∀ red ∈ [(1 : BitVec 2), 3], ChainIssues vecT 0 0 0 red ⟨0, 0, 0, false, true, 0, 1, 1, 1, 0, 3, 4⟩ .fp32 .fp32 .rne) ∧
    Fmt.int8.isInt = true ∧ saturate 8 (-128) = -128 ∧ saturate 32 7 = 7 := by
  refine ⟨vec_issues, fun red h => ?_, fun red h => ?_, by decide⟩
  · fin_cases h <;> exact ⟨by decide, chain_issues _ _ _ _ _ (by decide)⟩
  · fin_cases h <;> exact chain_issues _ _ _ _ _ (by decide)

/-! ### Witnesses: tiles -/

/-- Core 0 with tiles x; g1 is an operand in the tile area, and it has all of the stream buffer. -/
def tileDev (f : Tiles → Tiles) : State := devOf fun x =>
  let y := (x.setG 1 1).setK 2 (capRoot 0)
  { y with tile := f { y.tile with tblocks := 256 } }

def plainTile : State := tileDev id

/-- A loaded stationary operand of 512 × 512 INT4 elements. -/
def loaded (t : Tiles) : Tiles := { t with stat := { t.stat with usable := true, fmt := 0x10, tsc := false, k := 512, n := 512 } }

def aQstat : Qstat := ⟨0, false, 0x10, 512, 512, parseOperand 1⟩
def aQmma : Qmma := ⟨0, false, false, false, true, 0x10, 0x10, 512, 512, 2048, 0, parseOperand 1, 0x1000⟩
def aTld : TldJob := ⟨0, 64, 0, 64, 2048, 2, capRoot 0⟩

/-- A drain of one INT8 row of 32 columns to tile buffer 0, and the same with more done. -/
def aDrain : Drain := ⟨0, 0, false, 0, 9, 32, 1, 0, 0, false, false, 0, 0, .tileBuffer 0, .integer, false, false, 0, 0, 0, 0⟩

theorem witness_TileInstructions :
    (let s := tileDev id
     Works s 8 ∧ StatIssues (fetched s 8) 0 aQstat) ∧
    (let s := tileDev loaded
     Works s 8 ∧ MmaIssues (fetched s 8) 0 aQmma) ∧
    (let s := tileDev id
     (((fetched s 8).getK 0 2).usable ∧ ((fetched s 8).getK 0 2).has permLoad = true ∧
      aTld.unit + 2048 * ((aTld.len + 63) / 64) ≤ 256 * ((fetched s 8).tile 0).tblocks.toNat ∧ ((fetched s 8).core 0).str.fence = [] ∧
      ((fetched s 8).tile 0).areaBusy = false ∧ ((fetched s 8).core 0).ctl.trestart.toNat < 2048)) ∧
    -- a drain of row 0 of slot 0, 32 INT8 columns, to tile buffer 0
    (let s := tileDev fun t => { t with modes := Vector.replicate 16 .integer }
     Works s 8 ∧ DrainIssues (fetched s 8) 0 ((fetched s 8).drainOf 0 0 false 0 1 0 9 32 1 0) 32 0 1) ∧
    -- the four states of the oldest drain
    (∀ d ∈ [aDrain, { aDrain with started := true }, { aDrain with started := true, paused := true }],
      let s := tileDev fun t => { t with drains := [d] }
      DrainHead s 0 0 d [] ∧ (s.tile 0).slotUnwritten 0 d.seq = false) ∧
    (aDrain.started = false ∧ aDrain.dest = .tileBuffer 0 ∧ aDrain.cfg.getLsbD 3 = false ∧ aDrain.operand.getLsbD 33 = false ∧
      8 ∣ aDrain.format.bits ∧ aDrain.done + 1 = (aDrain.m + 127) / 128) := by
  refine ⟨⟨works (by decide), ⟨by decide, by decide, by decide, by decide, by decide, by decide, by decide⟩⟩,
    ⟨works (by decide), ⟨by decide, by decide, by decide, by decide, by decide, by decide, ?_, by decide, by decide⟩⟩,
    ⟨⟨by decide, by decide⟩, by decide⟩,
    ⟨works (by decide), ⟨by decide, by decide, by decide, by decide, ?_, ?_⟩⟩, fun d h => ?_, by decide⟩
  · intro h; cases h
  · intro v h
    exact absurd ((show _ = DrainDest.tileBuffer 0 by decide).symm.trans h) (by simp)
  · intro e h; exact absurd h (by fin_cases e <;> decide)
  · fin_cases h <;> exact ⟨⟨by decide, by decide, by decide⟩, by decide⟩

theorem low_mapped (t : State) (h : t.scfg.ilvActive = 0xFF) (a : Nat) (ha : a < 0x1000000) :
    (t.region a).mapped = true ∧ t.region a ≠ .hub := by
  have e : t.region a = .dram (dramPlace 0xFF a).1 (dramPlace 0xFF a).2 := by
    unfold State.region regionOf
    rw [h, if_pos (by have : 0x1000000 ≤ dramEnd 0xFF := by decide
                      omega), if_neg (by have : 0x1000000 ≤ dramEnd 0xFF - 0x4000000 := by decide
                                         omega)]
  rw [e]
  exact ⟨rfl, by simp⟩

/-- No engine of core 0 asks for anything, and it has tags for three requests: its tile path may request. -/
theorem may_request {t : State} (h : (t.ledger 0).canTake 3 = true ∧ ∀ e ∈ List.range 6, (t.eng 0 e).reqs = []) {a n : Nat} (hn : n ≤ 4096)
    : t.mayRequest 0 a n = true := by
  obtain ⟨h1, h2⟩ := h
  have hb : blocksOf a n ≤ 3 := by unfold blocksOf; omega
  simp only [State.mayRequest, Bool.and_eq_true, List.all_eq_true]
  refine ⟨?_, fun b _ => ?_⟩
  · simp only [Ledger.canTake, Bool.and_eq_true, decide_eq_true_eq] at h1 ⊢
    exact ⟨⟨h1.1.1, hb.trans h1.1.2⟩, h1.2⟩
  · unfold State.bankFree
    split
    · rfl
    · have : ∀ e ∈ List.range 6, ((t.eng 0 e).reqs.filter fun q => q.bank == t.bankOf b).length = 0 := by
        intro e he; rw [h2 e he]; rfl
      rw [List.map_congr_left this]
      decide

/-- A tile instruction taken up past its last row. -/
def pastRows (r : BitVec 11) (f : Tiles → Tiles) : State := devOf fun x =>
  { x with tile := f { x.tile with tblocks := 256 }, ctl := { x.ctl with trestart := r } }

theorem witness_TileInstructionsResumed :
    (let s := pastRows 512 id
     Works s 8 ∧ StatIssues (fetched s 8) 0 aQstat ∧ 512 ≤ ((fetched s 8).core 0).ctl.trestart.toNat) ∧
    (let s := pastRows 1 fun t => { loaded t with modes := Vector.replicate 16 .integer }
     let q := { aQmma with m := 1, start := false }
     Works s 8 ∧ MmaIssues (fetched s 8) 0 q ∧ q.m ≤ ((fetched s 8).core 0).ctl.trestart.toNat) := by
  refine ⟨⟨works (by decide), ⟨by decide, by decide, by decide, by decide, by decide, by decide, by decide⟩, by decide⟩,
    works (by decide), ⟨by decide, by decide, by decide, by decide, by decide, by decide, fun _ e _ h => ?_, by decide, by decide⟩, by decide⟩
  have : e = 0 := by simp [aQmma] at h; omega
  subst this; decide

theorem witness_AccumulatorsAreSaved :
    (let s := tileDev id
     let t := fetched s 8
     Works s 8 ∧ (t.core 0).pcc.has permDebug = true ∧ (t.getG 0 1).getLsbD 20 = false ∧ (t.core 0).tile.rows = [] ∧
     (t.core 0).tile.retry = none ∧ (0x100000 : Word).getLsbD 20 = true ∧ MaySave t 0 (t.getK 0 2) permStore ∧
     MaySave t 0 (t.getK 0 2) permLoad ∧ (t.core 0).ctl.trestart = 0 ∧
     ∀ i < 16, leNat (cellsGet t.mem.data (t.getK 0 2).cursor.toNat 4) / 4 ^ i % 4 ≠ 3) := by
  have hi : (fetched (tileDev id) 8).scfg.ilvActive = 0xFF := by decide
  have hs := sound (t := fetched (tileDev id) 8) (by decide)
  have hr : ∀ p, ((fetched (tileDev id) 8).getK 0 2).has p = true → MaySave (fetched (tileDev id) 8) 0 ((fetched (tileDev id) 8).getK 0 2) p :=
    fun p hp => ⟨⟨by decide, by decide⟩, ⟨hp, by decide⟩, ⟨by decide, by decide, by decide, by decide,
      fun j hj => (low_mapped _ hi _ (by have : (((fetched (tileDev id) 8).getK 0 2).cursor).toNat = 0 := by decide
                                         omega)).1,
      fun j hj h => absurd h (low_mapped _ hi _ (by have : (((fetched (tileDev id) 8).getK 0 2).cursor).toNat = 0 := by decide
                                                    omega)).2⟩, hs _ _, by decide,
      ⟨⟨by decide, by decide, by decide, by decide⟩, may_request (by decide) (by omega), fun e _ => may_request (by decide) (by omega)⟩⟩
  exact ⟨works (by decide), by decide, by decide, by decide, by decide, by decide, hr _ (by decide), hr _ (by decide), by decide, by decide⟩

/-- An integer row of aQmma in the array. -/
def aRow : ArrayRow := ⟨0, aQmma, none, [], [1, 2], 1, false, none, none, false⟩

/-- Core 0 at row r of tile operation o. -/
def atRow (o : TileOp) (r : BitVec 11) (f : Tiles → Tiles) : State := devOf fun x =>
  { x with tile := f { x.tile with op := some o, tblocks := 256 }, ctl := { x.ctl with trestart := r } }

theorem witness_TileRowsEnter :
    -- the first and the last stationary row
    (∀ r ∈ [(0 : BitVec 11), 511],
      let s := atRow (.qstat { aQstat with k := 1 }) r id
      s.coreRuns 0 = true ∧ Plain s 0 ∧ (s.core 0).tile.op = some (.qstat { aQstat with k := 1 }) ∧ (s.core 0).tile.hold = false ∧ (s.core 0).tile.retry = none ∧
      (s.core 0).ctl.trestart.toNat < 512 ∧ ((s.core 0).rowOf aQstat.src (statShape 0x10 512 false) 0).isSome = true) ∧
    -- the first and the last streaming row; one that is not there
    (∀ r ∈ [(0 : BitVec 11), 2047],
      let s := atRow (.qmma aQmma) r loaded
      s.coreRuns 0 = true ∧ Plain s 0 ∧ (s.core 0).tile.op = some (.qmma aQmma) ∧ (s.core 0).tile.hold = false ∧
      (s.core 0).tile.retry = none ∧ ((s.core 0).rowOf aQmma.src (streamShape 0x10 512 false) r.toNat).isSome = true ∧
      (s.core 0).tile.slotOpen aQmma r.toNat = true ∧ s.inject.armed = false ∧ r.toNat < aQmma.m) ∧
    (let q : Qmma := { aQmma with src := parseOperand 0 }
     (atRow (.qmma q) 0 loaded).core 0 |>.rowOf q.src (streamShape q.sfmt q.k q.ssc) 0) = none ∧
    -- an armed injection; a row that streams again, its operand loaded
    (let s := { atRow (.qmma aQmma) 0 loaded with inject := { State.reset.inject with armed := true, core := 0 } }
     s.coreRuns 0 = true ∧ s.inject.armed = true ∧ s.inject.core.toNat = 0) ∧
    (let s := atRow (.qmma aQmma) 0 fun t => { loaded t with retry := some ⟨[aRow], true⟩ }
     s.coreRuns 0 = true ∧ (s.core 0).tile.hold = false ∧ (s.core 0).tile.retry = some ⟨aRow :: [], true⟩ ∧
     (s.core 0).tile.slotOpen aRow.op aRow.m = true) := by
  refine ⟨fun r h => ?_, fun r h => ?_, by decide⟩
  · fin_cases h <;> exact ⟨by decide, ⟨by decide, by decide⟩, by decide⟩
  · fin_cases h <;> exact ⟨by decide, ⟨by decide, by decide⟩, by decide⟩

/-- A row of one 10-bit product under a stationary operand of one cell, and an F pair of FP16 by E4M3. -/
def oneCell (f : BitVec 5) (t : Tiles) : Tiles := { t with stat := { t.stat with usable := true, fmt := f, tsc := false, k := 1, n := 1 } }

def shortRow (sf tf : BitVec 5) : ArrayRow := { aRow with op := { aQmma with k := 1, n := 1, sfmt := sf, tfmt := tf }, bytes := [0, 0] }

theorem witness_RowsAreChecked :
    (∀ p ∈ [(1 : Nat), 2], let r : ArrayRow := { shortRow 0x10 0x10 with pass := p }
      let s := tileDev fun t => { oneCell 0x10 t with rows := [r] }
      let o := (s.core 0).tile.operandOf r
      s.coreRuns 0 = true ∧ (s.core 0).tile.hold = false ∧ (s.core 0).tile.rows = [] ++ r :: [] ∧ r.checked = false ∧
      ClaimsSound s 0 ∧ CheckRowRight o r.op.tfmt r.op.k ∧ Unstruck r none ∧
      -- a product off by one; each adder off by one
      FoundAs r o (some (.product 0 0 (r.op.checkProduct o r.bytes 0 0 + 1))) ⟨0, 0⟩ ∧
      (∀ k : Fin 4, FoundAs r o (some (.adder k 0 0 1)) ⟨0, k.succ.castSucc⟩) ∧
      -- an injected flip
      FoundAs { r with flip := some (0, 0) } o none ⟨0, 0⟩) ∧
    -- a product beyond bit 15 in an F pair
    (let r := shortRow 0x03 0x05
     let o := ((tileDev (oneCell 0x05)).core 0).tile.operandOf r
     FoundAs r o (some (.product 0 0 65536)) ⟨0, 5⟩) := by
  refine ⟨fun p h => ?_, ?_⟩
  · fin_cases h <;> exact ⟨by decide, by decide, by decide, by decide, by unfold ClaimsSound; decide, by unfold CheckRowRight; decide, ⟨by decide, by decide⟩,
      ⟨by decide, by decide, .inl (by decide)⟩, fun k => ⟨by decide, rfl, by simp⟩, ⟨by decide, by decide, by decide⟩⟩
  · exact ⟨by decide, by decide, .inr (by decide)⟩

theorem witness_TileRowsLeave :
    (∀ p ∈ [1, 2], let r : ArrayRow := { aRow with pass := p }
      let s := tileDev fun t => { t with rows := [r] }
      s.coreRuns 0 = true ∧ (s.core 0).tile.hold = false ∧ (s.core 0).tile.rows = [] ++ r :: [] ∧ r.checked = false ∧ r.flip = none) ∧
    (let r : ArrayRow := { aRow with checked := true }
     (∀ h ∈ [true, false], let s := tileDev fun t => { t with rows := [r], hold := h }
       s.coreRuns 0 = true ∧ (s.core 0).tile.rows = r :: [] ∧ (s.core 0).tile.hold = h ∧ r.sums.length ≤ 512 ∧
       (s.core 0).tile.slotRead r.op r.m = true) ∧
     -- a drain issued before has the slot still to read
     (let s := tileDev fun t => { t with rows := [{ r with op := { aQmma with seq := 1 } }], drains := [aDrain] }
      (s.core 0).tile.slotRead { aQmma with seq := 1 } r.m = false)) ∧
    (let s := tileDev fun t => { t with retry := some ⟨[aRow], false⟩ }
     s.coreRuns 0 = true ∧ (s.core 0).tile.retry = some ⟨[aRow], false⟩ ∧ (s.core 0).tile.rows = []) := by decide

/-- An active engine 0 whose first record holds a token. -/
def tokened (x : CoreState) : CoreState :=
  let e := vget x.str.eng 0 Engine.idle
  let r : StreamRec := ⟨0, [], [], 0, 0, some ⟨0x20, 0x100, 0, false⟩, none, false, 0, 0⟩
  { x with str := { x.str with eng := vset x.str.eng 0 { e with st := .active, recs := [r] } } }

theorem witness_TileLoads :
    (let q : Qmma := { aQmma with src := parseOperand 0 }
     let s := devOf fun x => tokened { x with tile := { x.tile with op := some (.qmma q) } }
     s.coreRuns 0 = true ∧ (s.core 0).tile.op = some (.qmma q) ∧ (s.core 0).tile.rows = [] ∧ (s.core 0).tile.retry = none ∧
     q.src.tileArea = false ∧ ((s.core 0).str.eng[q.src.engine.val].front.bind fun r => r.token).isSome = true ∧
     (s.core 0).ctl.status.sb = false ∧ (s.core 0).xvcc.entersHandler = true) ∧
    ∀ r ∈ [(0 : BitVec 11), 2047],
      let s := atRow (.tld aTld) r id
      s.coreRuns 0 = true ∧ Plain s 0 ∧ (s.core 0).tile.op = some (.tld aTld) ∧ (s.core 0).ctl.trestart.toNat < aTld.m ∧
      (s.core 0).tile.holds (aTld.unit + r.toNat) 1 = false ∧
      MayReach s aTld.cap (aTld.base + BitVec.ofNat 64 r.toNat * aTld.pitch) aTld.len 1 ∧ SoundAt s 0 64 ∧
      TagsTake s 0 2 ∧ s.mayRequest 0 0 64 = true := by
  refine ⟨by decide, fun r h => ?_⟩
  fin_cases h <;> exact ⟨by decide, ⟨by decide, by decide⟩, by decide, by decide, by decide,
    ⟨by decide, by decide, by decide, by decide, by decide, by decide⟩, sound (by decide) _ _, ⟨by decide, by decide, by decide, by decide⟩,
    may_request (by decide) (by omega)⟩

/-! ### Witnesses: tensor forms -/

/-- What a descriptor read gives: the state after it and the bytes. -/
def bytesOf (x : State × (Cause ⊕ List Byte)) : List Byte :=
  match x.2 with
  | .inr b => b
  | .inl _ => []

theorem read_of {x : State × (Cause ⊕ List Byte)} (h : x.2.isRight = true) : x = (x.1, .inr (bytesOf x)) := by
  rcases x with ⟨s, _ | b⟩
  · cases h
  · rfl

def unitState (s : State) (r : UnitResult) : State :=
  match r with
  | .next v => v
  | _ => s

def unitGoes (r : UnitResult) : Bool :=
  match r with
  | .next _ => true
  | _ => false

theorem unit_of {r : UnitResult} (s : State) (h : unitGoes r = true) : r = .next (unitState s r) := by
  cases r <;> first | rfl | cases h

/-- A state with a tensor descriptor of one element at k2, in hub buffers. -/
def tensorDev (cells : List (Nat × Byte)) : State :=
  let s := devOf fun x => { x.setK 2 (capRoot 0x018000000100) with tile := { x.tile with tblocks := 0 } }
  { s with mem := { s.mem with data := ([(0, 1), (4, 1), (8, 1), (12, 1), (16, 1)] ++ cells).map fun (e : Nat × Byte) => (0x018000000100 + e.1, e.2) } }

def tdf : TdFields := ⟨0, 0, 0, 1, 2⟩

/-- Descriptor fields of an operand i: kind 2 at byte base, of type typ. -/
def entryCells (i : Nat) (typ base : Byte) : List (Nat × Byte) :=
  [(64 + 32 * i, 2 + 16 * typ)] ++ (if base = 0 then [] else [(64 + 32 * i + 5, base)])

/-- The five forms with descriptors they take: every operand apart from the others in tile-buffer space. -/
def tensorCases : List ((State → FormLatch → TForm) × Instr × List (Nat × Byte)) :=
  [(tcForm 0 0 0 0 tdf, .tc 0 0 0 0 tdf none, entryCells 0 1 0 ++ entryCells 2 1 1),
   (txStatsForm 0 tdf, .txStats 0 tdf none, [(32, 1)] ++ entryCells 0 1 0 ++ entryCells 3 1 1),
   (txSliceForm 0 tdf, .txSlice 0 tdf none, [(32, 1)] ++ entryCells 0 0 0 ++ entryCells 1 0 1 ++ entryCells 2 12 2 ++ [(64 + 64 + 28, 64)] ++ entryCells 3 13 4),
   (txDwroundForm 0 tdf, .txDwround 0 tdf none, entryCells 0 0 0 ++ entryCells 1 13 1 ++ entryCells 2 13 2 ++ entryCells 3 0 3),
   (txOptimForm 0 tdf, .txOptim 0 tdf none, entryCells 0 1 0 ++ entryCells 1 11 1 ++ [(96 + 28, 64)] ++ entryCells 2 1 2 ++ entryCells 3 1 3 ++
     entryCells 4 11 4 ++ [(192 + 28, 64)] ++ entryCells 5 1 5 ++ entryCells 6 1 6)]

def tensorRead (s : State) : State × (Cause ⊕ List Byte) :=
  (fetched s 8).checkedReadMany 0 ((fetched s 8).getK 0 2) 2 [permLoad] ((fetched s 8).getK 0 2).cursor 320 64

/-- What the form takes at issue. -/
def latchOf (s : State) : FormLatch := (fetched s 8).newLatch 0 (bytesOf (tensorRead s))

/-- One form's first and only unit; none of its operands is a stream. -/
theorem tensor_case (h : State → FormLatch → TForm) (s : State) (hw : Works s 8) (hf : ((fetched s 8).core 0).forms = [])
    (hr : (tensorRead s).2.isRight = true)
    (hd : let t1 := (tensorRead s).1; let l := latchOf s; let f := h t1 l; let d := parseTensor l.desc
      (f.illegal = false ∧ tdf.gp ≠ 0 ∧ (RMode.ofField tdf.rm l.rm).isSome = true) ∧
      d.bad (f.slots d) f.tailUsed (f.rdimsOk d) (f.mult d) = false ∧ f.vformat d = false ∧
      ((f.slots d).all fun u => u.roles.all fun r => (t1.core 0).badSlot d r == false) = true ∧ (t1.tile 0).spaceBusy (f.slots d) = false ∧
      ((f.slots d).all fun u => u.role.ent.kind != 4 && u.role.ent.kind != 5) = true ∧
      (t1.getG 0 tdf.gp).toNat = 0 ∧ d.count = 1 ∧ d.unitLen = 1 ∧ unitGoes (f.run d (t1.putLatch 0 l) 0 1) = true) :
    let t := fetched s 8; let t1 := (tensorRead s).1; let l := latchOf s; let f := h t1 l; let d := parseTensor l.desc
    Works s 8 ∧ FormTakes t t1 0 tdf l ∧ TensorIssues f t1 0 tdf l d ∧
      (∀ u ∈ f.slots d, u.role.ent.kind ≠ 4 ∧ u.role.ent.kind ≠ 5) ∧
      ∃ us : Nat → State, us 0 = t1.putLatch 0 l ∧ UnitsRun f 0 tdf.gp d 1 id us := by
  obtain ⟨hl, h1, h2, h3, h4, h5, h6, h7, h8, h9⟩ := hd
  have hs : ∀ u ∈ (h (tensorRead s).1 (latchOf s)).slots (parseTensor (latchOf s).desc), u.role.ent.kind ≠ 4 ∧ u.role.ent.kind ≠ 5 := by
    intro u hu
    simpa using (List.all_eq_true.mp h5) u hu
  refine ⟨hw, .inl ⟨fun l hl => ?_, _, read_of hr, rfl⟩, ⟨hl, rfl, h1, h2, ?_, h4⟩, hs, ?_⟩
  · rw [hf] at hl; cases hl
  · intro u hu r hr
    simpa using (List.all_eq_true.mp ((List.all_eq_true.mp h3) u hu)) r hr
  · refine ⟨fun j => if j = 0 then (tensorRead s).1.putLatch 0 (latchOf s) else
      ((unitState s ((h (tensorRead s).1 (latchOf s)).run (parseTensor (latchOf s).desc)
        ((tensorRead s).1.putLatch 0 (latchOf s)) 0 1)).setG 0 tdf.gp (BitVec.ofNat 64 1)).progress 0, rfl, ⟨?_, ?_, ?_, ?_, ?_⟩⟩
    · intro j hj; simp at hj; subst hj; simp [h7]
    · intro j hj; simp at hj; subst hj; simp [h8]
    · intro j hj; simp at hj; subst hj
      exact ⟨_, unit_of s h9, rfl⟩
    · intro j _
      simp only [State.outputsFull, List.any_eq_false]
      intro u hu
      simp [(hs u hu).2]
    · simp [h7]

theorem witness_TensorInstructions : ∀ p ∈ tensorCases, let s := tensorDev p.2.2; let t := fetched s 8; let t1 := (tensorRead s).1
    let l := latchOf s; let d := parseTensor l.desc
    Works s 8 ∧ FormTakes t t1 0 tdf l ∧ TensorIssues (p.1 t1 l) t1 0 tdf l d ∧
      (∀ u ∈ (p.1 t1 l).slots d, u.role.ent.kind ≠ 4 ∧ u.role.ent.kind ≠ 5) ∧
      ∃ us : Nat → State, us 0 = t1.putLatch 0 l ∧ UnitsRun (p.1 t1 l) 0 tdf.gp d 1 id us := by
  intro p hp
  fin_cases hp <;> exact tensor_case _ _ (works (by decide)) (by decide) (by decide) (by decide)

/-- Arithmetic: the ends of the ranges of slice, and an exponent that marks a NaN. -/
theorem witness_TensorArithmetic : |(2 ^ 58 : Int)| ≤ 2 ^ 58 ∧ |(-(2 ^ 58) : Int)| ≤ 2 ^ 58 ∧ (0x7FFFFFFF : Int) = 0x7FFFFFFF := by norm_num

/-! ### Witnesses: streams -/

/-- A state with the descriptor of a stream of one 64-byte record at k2, in hub buffers, and g1 = v. -/
def streamDev (v : Word) : State :=
  let s := devOf fun x => { (x.setK 2 (capRoot 0x018000000100)).setG 1 v with tile := { x.tile with tblocks := 0 } }
  { s with mem := { s.mem with data := [(0, (64 : Byte)), (4, 1), (8, 1), (12, 1), (16, 1), (74, 4)].map fun (e : Nat × Byte) =>
      (0x018000000100 + e.1, e.2) } }

def streamRead (s : State) : State × (Cause ⊕ List Byte) :=
  (fetched s 8).checkedReadMany 0 ((fetched s 8).getK 0 2) (kNum 2) [permLoad] ((fetched s 8).getK 0 2).cursor 128 64

theorem stream_opens (s : State) (e : Nat) (hr : (streamRead s).2.isRight = true)
    (h : let t := fetched s 8; let t1 := (streamRead s).1; let d := parseStream (bytesOf (streamRead s)); let p := (t1.getG 0 1).toNat
      e < 6 ∧ (t.core 0).str.fence = [] ∧ streamReserved (bytesOf (streamRead s)) = false ∧ d.bad (decide (4 ≤ e)) = false ∧
      (p ≤ d.bytes ∧ (d.pk = false → p % d.rlen = 0)) ∧ (t1.core 0).badWindow e d = false ∧
      ((t1.getK 0 2).tag = true ∧ (t1.getK 0 2).isSealed = false) ∧ (t1.getK 0 2).has (if 4 ≤ e then permStore else permLoad) = true ∧
      (4 ≤ e → t1.storeHullCauses (t1.getK 0 2) (kNum 2) (t1.getK 0 2).cursor d = [])) :
    StreamOpens (fetched s 8) (streamRead s).1 0 e 2 2 (parseStream (bytesOf (streamRead s))) ((streamRead s).1.getG 0 1).toNat :=
  ⟨h.1, h.2.1, ⟨_, read_of hr, rfl, h.2.2.1⟩, h.2.2.2.1, h.2.2.2.2.1, h.2.2.2.2.2.1, ⟨h.2.2.2.2.2.2.1, h.2.2.2.2.2.2.2.1⟩,
    h.2.2.2.2.2.2.2.2⟩

/-- A stream of eight 64-byte records from address 0 on. -/
def aDesc : StreamDesc := ⟨64, 8, 1, 1, 1, 64, 0, 0, 0, 0, 0, 0, false, false, 0, 1024, 0, 0, 0, 0, 0, 0⟩

/-- Core 0 with engine e in another state. -/
def engDev (e : Nat) (f : Engine → Engine) (w : StreamWait) : State := devOf fun x =>
  { x with str := { x.str with eng := vset x.str.eng e (f { vget x.str.eng e Engine.idle with desc := aDesc, kb := capRoot 0 }), wait := w } }

def active (x : Engine) : Engine := { x with st := .active }

/-- The same with a position in g1. -/
def restarting (e : Fin 6) (f : Engine → Engine) (pos : Word) : State :=
  let s := engDev e.val f .none
  s.setG 0 1 pos

theorem witness_StreamControl :
    -- a load and a store stream, from its first byte and with nothing left
    (∀ v ∈ [(0 : Word), 64], let s := streamDev v
      Works s 8 ∧ ∀ e ∈ [0, 4],
        StreamOpens (fetched s 8) (streamRead s).1 0 e 2 2 (parseStream (bytesOf (streamRead s))) ((streamRead s).1.getG 0 1).toNat) ∧
    (let s := streamDev 64; ((streamRead s).1.getG 0 1).toNat = (parseStream (bytesOf (streamRead s))).bytes ∧
      ((streamRead s).1.eng 0 0).reqs = []) ∧
    -- nothing to cancel; an active engine that is cancelled or restarted
    (∀ i < 6, (devT.eng 0 i).st = .idle) ∧
    (let s := engDev 0 active .none
     Works s 8 ∧ ((fetched s 8).eng 0 0).st = .active ∧ ((fetched s 8).core 0).str.fence = [] ∧
     ((fetched s 8).getG 0 0).toNat ≤ ((fetched s 8).eng 0 0).desc.bytes ∧ ((fetched s 8).getG 0 0).toNat % ((fetched s 8).eng 0 0).desc.rlen = 0) ∧
    (let s := engDev 0 (fun x => { x with st := .cancelling }) .cancel
     (s.eng 0 0).st = .cancelling ∧ (s.eng 0 0).reqs = [] ∧ (s.eng 0 0).recs = [] ∧ Plain s 0 ∧ (s.core 0).str.wait = .cancel ∧
     s.coreRuns 0 = true ∧ ∀ i < 6, i ≠ 0 → (s.eng 0 i).st ≠ .cancelling) ∧
    -- positions that do not fit, on a load and a store engine; one that does, on an idle and on a store engine
    (∀ p ∈ [((0 : Fin 6), (5 : Word)), (4, 513)], let s := restarting p.1 active p.2
     let y := (fetched s 8).eng 0 p.1.val
     let pos := ((fetched s 8).getG 0 1).toNat
     Works s 8 ∧ ((fetched s 8).core 0).str.fence = [] ∧ y.st ≠ .idle ∧ (y.desc.bytes < pos ∨ (y.desc.pk = false ∧ pos % y.desc.rlen ≠ 0))) ∧
    (∀ p ∈ [((0 : Fin 6), fun (x : Engine) => x), (4, active)], let s := restarting p.1 p.2 64
     let y := (fetched s 8).eng 0 p.1.val
     let pos := ((fetched s 8).getG 0 1).toNat
     Works s 8 ∧ ((fetched s 8).core 0).str.fence = [] ∧ ¬(y.st ≠ .idle ∧ (y.desc.bytes < pos ∨ (y.desc.pk = false ∧ pos % y.desc.rlen ≠ 0))) ∧
     (y.st ≠ .active ∨ 4 ≤ p.1.val)) ∧
    (let s := engDev 0 (fun x => { x with st := .restarting }) (.restart 0)
     (s.eng 0 0).st = .restarting ∧ (s.eng 0 0).reqs = [] ∧ (s.eng 0 0).recs = [] ∧ 0 < (s.eng 0 0).desc.rlen ∧
     (s.eng 0 0).resume < (s.eng 0 0).desc.bytes ∧
     (s.core 0).str.wait = .restart 0 ∧ s.coreRuns 0 = true ∧ Plain s 0) := by
  refine ⟨fun v h => ?_, by decide, by decide, ⟨works (by decide), by decide⟩, ⟨by decide, by decide, by decide, ⟨by decide, by decide⟩, by decide⟩,
    fun p h => ?_, fun p h => ?_, ⟨by decide, by decide, by decide, by decide, by decide, by decide, by decide, ⟨by decide, by decide⟩⟩⟩
  · fin_cases h <;> exact ⟨works (by decide), fun e he => by
      fin_cases he <;> exact stream_opens _ _ (by decide) (by decide)⟩
  · fin_cases h <;> exact ⟨works (by decide), by decide⟩
  · fin_cases h <;> exact ⟨works (by decide), by decide⟩

/-- A record of 64 bytes, and a request of all of it. -/
def aRec : StreamRec := ⟨0, List.replicate 64 7, [], 0, 64, none, none, false, 0, 0⟩
def aReq : StreamReq := ⟨[⟨0, false, 0, 0, 64⟩], none, some 0, false⟩

def withTags (s : State) : State := s.setLedger 0 { s.ledger 0 with outstanding := pairOf 1 }

theorem witness_StreamTransfers :
    -- a record that may be asked for, and one whose check fails
    (let s := engDev 0 active .none
     let x := s.eng 0 0
     let r := s.newRecord x x.next
     s.coreRuns 0 = true ∧ x.st = .active ∧ x.asking = none ∧ x.mayBegin = true ∧ r.token = none ∧ r.toAsk ≠ 0 ∧
     (x.recs.all fun o => o.idx != r.idx) = true ∧ MayAsk s 0 0 ((x.begun r).nextAsk r).2.2.1) ∧
    (let s := engDev 0 (fun x => { active x with origin := 0x4000000000000000 }) .none
     let x := s.eng 0 0
     x.asking = none ∧ x.mayBegin = true ∧ (s.newRecord x x.next).token.isSome = true) ∧
    -- data that arrives, live and discarded
    (∀ dead ∈ [true, false], let s := withTags (engDev 0 (fun x => { active x with recs := [aRec], reqs := [{ aReq with dead := dead }] }) .none)
     (s.eng 0 0).reqs = [{ aReq with dead := dead }] ∧ TagsSound s 0 ∧ (s.core 0).cond ≠ .fenced ∧
     ((s.eng 0 0).recs.map fun r => r.idx).Nodup ∧ (∀ r ∈ (s.eng 0 0).recs, r.token = none) ∧
     (∀ p ∈ aReq.pieces, 0 < p.len ∧ SoundAt s (p.addr / 64 * 64) ((p.addr + p.len + 63) / 64 * 64 - p.addr / 64 * 64) ∧
       ∀ r ∈ (s.eng 0 0).recs, r.idx = p.idx → p.off + p.len ≤ r.data.length)) ∧
    -- a record already begun that goes on being asked for
    (let s := engDev 0 (fun x => { active x with recs := [{ aRec with toAsk := 64 }], next := 1 }) .none
     let x := s.eng 0 0
     x.asking = some { aRec with toAsk := 64 } ∧ MayAsk s 0 0 (x.nextAsk { aRec with toAsk := 64 }).2.2.1) ∧
    -- a store request acknowledged
    (let s := withTags (engDev 4 (fun x => { active x with recs := [aRec], reqs := [aReq] }) .none)
     let x := s.eng 0 4
     x.reqs = [aReq] ∧ x.asking = none ∧ x.lost = false ∧ TagsSound s 0 ∧ (x.pieceBytes ⟨0, false, 0, 0, 64⟩).length = 64 ∧
     (∀ j < 64, (s.region (0 + j)).mapped = true) ∧ (∀ j < 64, ∀ st, (s.region (0 + j)).stack? = some st → (s.stack st).st ≠ .fenced)) ∧
    -- a fence whose engines are idle; a sample of an active engine
    (let f : StreamFence := ⟨0, 0, 0, 0⟩
     let s := devOf fun x => { x with str := { x.str with fence := [f] } }
     (s.core 0).str.fence = [f] ∧ (s.eng 0 4).reached f.pos4 f.scale4 = true ∧ (s.eng 0 5).reached f.pos5 f.scale5 = true) ∧
    ((engDev 5 active .none).eng 0 5).st = .active := by
  refine ⟨⟨by decide, by decide, by decide, by decide, by decide, by decide, by decide, ⟨by decide, by decide⟩⟩, by decide, fun d h => ?_,
    ⟨by decide, ⟨by decide, by decide⟩⟩, ⟨by decide, by decide, by decide, ⟨by decide, by decide, by decide⟩, by decide, by decide,
      fun j _ st _ => by fin_cases st <;> decide⟩, by decide, by decide⟩
  fin_cases h <;> exact ⟨by decide, ⟨by decide, by decide, by decide⟩, by decide, by decide, by decide, fun p hp => by
    simp only [aReq, List.mem_singleton] at hp
    subst hp
    exact ⟨by decide, sound (by decide) _ _, by decide⟩⟩

/-! ### Witnesses: memory stacks -/

theorem witness_StackUpkeep : (∀ st : StackId, dev.stackServes st = true) ∧
    -- a word still due, the last of its period too, and one already read
    ((dev.stack 0).scrubDue .dram 0 = true ∧ ((dev.stack 0).scrubbed (scrubKey .dram 0)).scrubDue .dram 0 = false ∧
     ({ dev.stack 0 with scrubWords := scrubTotal - 1 } : Stack).scrubWords + 1 = scrubTotal ∧ dev.mem.poison = [] ∧
     -- none read yet, and a word of row 1
     (dev.stack 0).scrubWords = 0 ∧ (bankRow (32 * 65536)).2 ≠ 0 ∧
     -- L2 holds the line or not
     dev.l2Has false 0 = false ∧ (dev.setMem { dev.mem with l2 := [⟨false, 0, true⟩] }).l2Has false 0 = true ∧
     poisonMajority 3 = true ∧ poisonMajority 1 = false ∧ (dev.placeOfInst (32 * dev.wordKey 0 .istore 0)).st = 0) ∧
    -- a row at act_thr and one below it
    ((⟨[(0, 5)], 0⟩ : ActTrack).count 0 < dev.scfg.actThr.toNat ∧
     dev.scfg.actThr.toNat ≤ (⟨[(0, dev.scfg.actThr.toNat)], 0⟩ : ActTrack).count 0) ∧
    dev.mem.latent = [] ∧ dev.mem.ilatent = [] ∧
    (∀ p ∈ [(StackSpace.dram, 0), (.sram, 0)], p.1 ≠ StackSpace.istore ∧ (dev.placeOf (32 * dev.wordKey 0 p.1 p.2)).isSome = true) ∧
    ((dev.setStack 0 { dev.stack 0 with copies := [⟨0, 0, 0⟩] }).stack 0).copies = ⟨0, 0, 0⟩ :: [] ∧
    (0 < Config.eyeLimit ∨ Config.eyeLimit ≤ 255) := ⟨by decide, by decide, by decide, by decide, by decide, by decide, by decide, by omega⟩

set_option maxRecDepth 8000 in
theorem witness_StacksTrainAndFence : dev.stackServes 0 = true ∧ dev.otherLost 0 = none ∧ dev.hubRuns = true ∧
    256 < ((dev.setStack 0 { dev.stack 0 with poisonTimes := List.replicate 257 dev.time }).stack 0).poisonRate dev.time ∧
    (dev.stack 0).poisonRate dev.time ≤ 256 ∧
    (let s := { dev with rst := { dev.rst with phase := .training } }
     s.rst.phase = .training ∧ (∀ i < 16, (lostMask 0 s.rst.ilvTaken).getLsbD i = false) ∧
     (∀ i < 16, (lostMask 0x8000 s.rst.ilvTaken).getLsbD i = decide (i = 15)) ∧
     (lostMask 0x8001 s.rst.ilvTaken).getLsbD 0 = true ∧ (lostMask 0x8001 s.rst.ilvTaken).getLsbD 15 = true) ∧
    ({ dev with rst := { dev.rst with phase := .initialising } } : State).rst.phase = .initialising := by decide

/-- Stack 0 with a ring of two commands at the start of its staging SRAM; the first command is made of the cells. -/
def ringDev (op : Byte) (cells : List (Nat × Byte)) : State :=
  let s := dev.setStack 0 { dev.stack 0 with ringSize := 2, ringTail := 1 }
  let k := leBytes 16 (capRoot 0).bits.toNat
  let caps := ((List.range 32).zip (k ++ k)).filter fun e => e.2 != 0
  { s with mem := { s.mem with
      data := (caps ++ [(32, op)] ++ cells).map fun (e : Nat × Byte) => (0x010000000000 + e.1, e.2),
      tags := [(0x010000000000 / 16, true), (0x010000000000 / 16 + 1, true)] } }

/-- One FP32 word added: source at 0x1000 and target at 0x2000 of the staging SRAM. -/
def addDev : State := ringDev 1 [(33, 1), (36, 1), (41, 0x20), (45, 1), (49, 0x10), (53, 1)]

/-- One record of four bytes gathered: index at 0x1000, source at 0x2000, destination at offset 0x3000. -/
def gatherDev : State := ringDev 2 [(36, 1), (41, 0x20), (45, 1), (49, 0x10), (53, 1), (57, 0x30), (60, 4)]

def headCmd (s : State) : EngCmd := (s.readCmd 0).2

theorem head_at {s : State} (hr : (s.readCmd 0).1 = s) (h : s.cmdWaits 0 = true ∧ (headCmd s).bad = false ∧ (headCmd s).rsv = 0 ∧ (headCmd s).irq < 2) :
    CmdAt s 0 (headCmd s) := ⟨h.1, Prod.ext hr rfl, h.2⟩

set_option maxRecDepth 20000 in
theorem witness_NearMemoryEngines :
    (let s := addDev
     let c := headCmd s
     CmdAt s 0 c ∧ c.op = 1 ∧ c.fmt = 1 ∧ c.a2 = 0 ∧ c.rlen = 0 ∧ c.count = 1 ∧
     c.ka.covers [permStore] c.a0 4 = true ∧ c.kb.covers [permLoad] c.a1 4 = true ∧ s.onStack 0 c.a0 4 = true ∧ inSram 0 c.a1 4 = true ∧
     SoundAt s (c.a1 / 32 * 32) 36 ∧ MayAdd s 0 c.a0 (saElems .fp32 (s.homeBytes c.a1 4) fun _ => false)) ∧
    (let s := gatherDev
     let c := headCmd s
     CmdAt s 0 c ∧ c.op = 2 ∧ c.rlen = 4 ∧ c.count = 1 ∧ c.kb.covers [permLoad] c.a1 4 = true ∧
     c.kb.covers [permStore] (sramBase 0 + c.a2) 4 = true ∧ inSram 0 (sramBase 0 + c.a2) 4 = true ∧ c.ka.covers [permLoad] c.a0 0 = true ∧
     s.gatherIndex c.a1 0 = 0 ∧ s.onStack 0 c.a0 4 = true ∧ c.a0 + 4 ≤ sramBase 0 + c.a2) ∧
    (let j : SaJob := ⟨0x010000002000, .fp32, [0, 0, 0, 0], 0, 0, 1, 5, 0⟩
     let s := dev.setStack 0 { dev.stack 0 with saQueue := [j] }
     s.stackServes 0 = true ∧ (s.stack 0).saQueue = j :: [] ∧ s.jobFirst j = true ∧ (s.chan j.chan).held = [] ∧ s.fab.loop = [] ∧
     MayAdd s 0 j.target j.elems) ∧
    (let s := dev.setStack 0 { dev.stack 0 with engEnd := some ⟨1, true⟩ }
     s.stackServes 0 = true ∧ (s.stack 0).engEnd = some ⟨1, true⟩ ∧ (s.region (s.cmdAddr 0 + 63)).stack? = some 0) := by
  have caches : ∀ (s : State), s.cores = dev.cores → ∀ (c : CoreId) (l : Nat), (s.core c).cache.holds l = false := by
    intro s h c l
    have : s.core c = dev.core c := by unfold State.core; rw [h]
    rw [this]; fin_cases c <;> rfl
  refine ⟨⟨head_at rfl (by decide), by decide, by decide, by decide, by decide, by decide, by decide, by decide, by decide, by decide,
      sound (by decide) _ _, ⟨by decide, by decide, ⟨sound (by decide) _ _, fun c l _ _ => caches addDev rfl c l⟩, by decide, by decide⟩⟩,
    ⟨head_at rfl (by decide), by decide⟩, ⟨by decide, by decide, by decide, by decide, by decide,
      ⟨by decide, by decide, ⟨sound (by decide) _ _, fun c l _ _ => caches _ rfl c l⟩, by decide, by decide⟩⟩, by decide⟩

/-! ### Witnesses: fabric -/

/-- A state whose sub-ports are UP with a MAC address. -/
def fabDev (g : Fabric → Fabric) : State :=
  { dev with fab := g { dev.fab with devId := pairOf 0, pfx := pairOf 0, subs := vmap dev.fab.subs fun x => { x with st := .up, link := true, mac := 0x11 } } }

def aToken : BitVec 128 := (0xC000000000000000 ||| ((permBit permLoad ||| permBit permStore).setWidth 64 <<< 40) : BitVec 64) ++ (0 : BitVec 64)

/-- Entry 0 of the fabric table: 64 KiB at the start of stack 0's staging SRAM. -/
def aEntry : FabricEntry := ⟨pairOf 0, pairOf (aToken.extractLsb' 64 64), pairOf 0x010000000000, pairOf 0x10000, pairOf 3, false⟩

/-- Channel 5 to device 1. -/
def aChan : Channel := { chanReset with peer := 1, st := .opened, creditLimit := 8 }

def withChan (k : Channel) (g : Fabric → Fabric) : State := fabDev fun f => g { f with chans := [(5, k)], table := [(0, aEntry)] }

def aPkt (typ : BitVec 4) (op : BitVec 8) : Packet :=
  ⟨1, typ, op, 5, true, true, false, false, 0, 0, 1, 0, 0, 8, 0x010000001000, 0, aToken, 0, [1, 2]⟩

def aFrame : Frame := ⟨0, 136, true, false, none, 0x33, 65536, 0, false, false, true⟩

/-- What receiving the frame leaves before the packet has its effect. -/
def arrived (s : State) (p : Packet) : State := ((s.poldoalIn aFrame p).1.hears p.src).echoCe aFrame.ce p

theorem packet_in {s : State} {p : Packet} {typ : BitVec 4} (h : s.fabricOn = true ∧ p.ptype = typ ∧ (s.poldoalIn aFrame p).2 = true ∧
    (arrived s p).fab.loop = []) : PacketIn s (arrived s p) aFrame p typ := ⟨h.1, h.2.1, h.2.2.1, rfl, h.2.2.2⟩

theorem channel_in {s : State} {p : Packet} {typ : BitVec 4} (h : (s.fabricOn = true ∧ p.ptype = typ ∧ (s.poldoalIn aFrame p).2 = true ∧
      (arrived s p).fab.loop = []) ∧ ((arrived s p).chan p.chan.val).takes p = true ∧
    ((arrived s p).chan p.chan.val).peer ≠ (arrived s p).fab.devId.val ∧
    ∀ e ∈ ((arrived s p).chan p.chan.val).sent, e.pkt.dst ≠ (arrived s p).fab.devId.val) : ChannelIn s (arrived s p) aFrame p typ :=
  { packet_in h.1 with takes := h.2.1, away := h.2.2.1, sentAway := h.2.2.2 }

theorem returns_sound {t : State} (h : sparseWf (fun _ => chanReset) t.fab.chans = true ∧ ∀ id ∈ [0x40, 0x41, 0x48, 0x49, 0x4A, 0x4B, 0x4C, 0x4D, 0x4E, 0x4F],
    (t.ledger id).st = .opened ∧ (t.ledger id).whole = true ∧ (t.ledger id).wroteOff = false ∧ (t.fab.chans.map fun e => e.2.sent.length + e.2.held.length).sum ≤ (t.ledger id).outstanding.val.toNat) :
    ReturnsSound t := by
  refine ⟨h.1, fun id hid => h.2 id ?_⟩
  rcases hid with rfl | rfl | ⟨h1, h2⟩
  · simp
  · simp
  · interval_cases id <;> simp

/-- A descriptor of operation op at the head of core 0's posting queue, its local capability in stack 0's staging SRAM, channel 5 and queue pair 5
ready. -/
def descDev (op len : Byte) (st : ChanState) : State :=
  let s := withChan { aChan with st := st } fun f => { f with qps := [(5, { qpReset with st := .rts, cfg := 3 })] }
  let x := s.core 0
  let t := s.setCore 0 { x with win := { x.win with pqSize := 16, pqTail := 1, ltBase := 0x010000000000, ltCount := 1 } }
  let caps := ((List.range 16).zip (leBytes 16 (capRoot 0).bits.toNat)).filter fun e => e.2 != 0
  let d := ([(0, op), (2, 5)] ++ (if len = 0 then [] else [(4, len)]) ++ [(9, (0x10 : Byte)), (13, 1), (14, 1), (15, 0x80), (17, 0x10), (21, 1), (25, 1)])
  { t with mem := { t.mem with data := (caps.map fun (e : Nat × Byte) => (0x010000000000 + e.1, e.2)) ++
      (d.map fun (e : Nat × Byte) => (0x018004000000 + e.1, e.2)), tags := [(0x010000000000 / 16, true)] } }

theorem posts {s : State} (h : s.fabricOn = true ∧ ((s.core 0).win.pqSize ≠ 0 ∧ (s.core 0).win.pqSize.toNat ≤ 128) ∧
      BitVec.ofNat 16 (s.core 0).win.accepted ≠ (s.core 0).win.pqTail)
    (hs : (∀ st : StackId, (s.stack st).st ≠ .fenced) ∧ s.mem.latent = [] ∧ s.mem.poison = []) : Posts s 0 (s.readDesc 0) :=
  ⟨h.1, h.2.1, h.2.2, rfl, sound hs _ _⟩

theorem witness_DescriptorsAreAccepted :
    (∀ e ∈ [((1 : Byte), (4 : Byte)), (2, 4), (3, 0), (4, 0), (5, 0), (6, 1), (7, 0), (8, 0)],
      let s := descDev e.1 e.2 .opened
      Posts s 0 (s.readDesc 0) ∧ (s.readDesc 0).op ∈ (poldoalRows 0).map (fun r => r.1) ∧ s.postStatus 0 (s.readDesc 0) = none) ∧
    (∀ e ∈ [((1 : Byte), (4 : Byte), ChanState.gone, (1 : Byte)), (1, 0, .opened, 8), (1, 4, .closed, 2)],
      let s := descDev e.1 e.2.1 e.2.2.1
      Posts s 0 (s.readDesc 0) ∧ s.postStatus 0 (s.readDesc 0) = some e.2.2.2 ∧ (s.chan 5).ops = []) ∧
    (∀ e ∈ [((0x10 : Byte), (4 : Byte)), (0x11, 4), (0x12, 4), (0x13, 0), (0x14, 0)],
      let s := descDev e.1 e.2 .opened
      Posts s 0 (s.readDesc 0) ∧ (s.readDesc 0).op ∈ (roceRows 0).map (fun r => r.1) ∧ s.postStatus 0 (s.readDesc 0) = none ∧ (s.qp 5).ops = [] ∧
      SoundAt s ((s.readDesc 0).laddr.toNat / 32 * 32) ((s.readDesc 0).len + 32) ∧ (s.qp 5).una = (s.qp 5).spsn ∧ (s.qp 5).rnrWait = false ∧
      s.subSends (s.qp 5).subOf = true ∧ Unpaused s (s.qp 5).subOf (s.qp 5).prio) ∧
    -- a queue pair that is not in RTS
    (let s := (descDev 0x11 4 .opened).setQp 5 qpReset
     Posts s 0 (s.readDesc 0) ∧ (s.postStatus 0 (s.readDesc 0)).isSome = true ∧ (s.qp 5).ops = []) ∧
    (dev.fabricOn = true ∧ BitVec.ofNat 16 (dev.core 0).win.accepted = (dev.core 0).win.pqTail ∧ dev.hubRuns = true ∧ (dev.core 0).cond ≠ .absent ∧
      (dev.core 0).win.pqTail = (dev.core 0).win.cqTail ∧ (dev.core 0).win.cqTail = (dev.core 0).win.cqHead) := by
  refine ⟨fun e h => ?_, fun e h => ?_, fun e h => ?_, ⟨posts (by decide) (by decide), by decide⟩, by decide⟩
  · fin_cases h <;> exact ⟨posts (by decide) (by decide), by decide⟩
  · fin_cases h <;> exact ⟨posts (by decide) (by decide), by decide⟩
  · fin_cases h <;> exact ⟨posts (by decide) (by decide), by decide, by decide, by decide, sound (by decide) _ _, by decide, by decide, by decide,
      by unfold Unpaused; decide⟩

/-- An operation of core 0 whose one packet has been sent. -/
def anOp (op : BitVec 8) (len : Nat) : PostOp :=
  ⟨some 0, ⟨op, false, 5, len, 0x8001010000001000, 0x010000002000, 0, 0, 9, aToken, 0, 0, true⟩, 1, 0, none, false, 0, none, [], []⟩

/-- Channel 5 with one REQ sent, of an operation that is all sent. -/
def sentDev (op : BitVec 8) (len : Nat) : State :=
  let s := withChan { aChan with nextPsn := 1, ops := [anOp op len], sent := [⟨0, { aPkt 1 op with src := 0, dst := 1 }, 0, none, 0, 0, false, false⟩] }
    fun f => { f with rtoUs := 1 }
  [0x40, 0x41, 0x48, 0x49, 0x4A, 0x4B, 0x4C, 0x4D, 0x4E, 0x4F].foldl (fun t id => t.setLedger id { t.ledger id with outstanding := pairOf 1 }) s

def plainChan : State := withChan aChan id

/-- A REQ of operation op with this aux and payload. -/
def reqPkt (op : BitVec 8) (aux : BitVec 32) (bs : List Byte) : Packet := { aPkt 1 op with aux := aux, payload := bs, fmt := 1 }

theorem in_order {t : State} {p : Packet} (h : p.psn = (t.chan p.chan.val).expect ∧ (t.chan p.chan.val).held = [] ∧
    (t.chan p.chan.val).failed = none ∧ (t.chan p.chan.val).credit ≠ 0 ∧
    (((t.ledger 0x41).canTake 1 = true ∧ (t.ledger 0x41).outstanding.val.toNat < 16384) ∧
      (t.ledger (0x48 + aFrame.sub.val / 8)).canTake 1 = true ∧ (t.ledger (0x48 + aFrame.sub.val / 8)).outstanding.val.toNat < 256) ∧
    t.reqStatus p = 0 ∧ t.jobsPending p.chan.val = false ∧ (t.fabricEntry (p.token.toNat % 16384)).sound = true) : InOrder t aFrame p :=
  ⟨h.1, h.2.1, h.2.2.1, h.2.2.2.1, ⟨h.2.2.2.2.1.1, h.2.2.2.2.1.2⟩, h.2.2.2.2.2.1, h.2.2.2.2.2.2.1, h.2.2.2.2.2.2.2⟩

/-- The staging SRAM of stack 0 takes what is written there. -/
theorem lands {t : State} {a n : Nat} (h : (∀ j < n, (t.region (a + j)).stack? = some 0) ∧ (t.stack 0).st ≠ .fenced) : Lands t a n :=
  fun j hj => ⟨0, h.1 j hj, h.2⟩

theorem witness_PacketsAreReceived :
    (∀ e ∈ [(1 : BitVec 4), 2, 3, 4, 5, 6, 7, 8], e ∈ (packetRows aFrame (aPkt 1 1)).map (fun r => r.1)) ∧
    plainChan.fabricOn = true ∧ plainChan.receives 0 = true ∧ { aFrame with fcsOk := false }.fcsOk = false ∧
    -- reserved types, and a packet whose checksum is wrong
    (∀ e ∈ [(0 : BitVec 4), 9, 15], (plainChan.poldoalIn aFrame (aPkt e 1)).2 = false) ∧
    (plainChan.poldoalIn { aFrame with crcOk := false } (aPkt 1 1)).2 = false ∧
    -- a packet of another epoch
    (∀ e ∈ [(1 : BitVec 4), 4, 8], let p := { aPkt e 1 with epoch := 7 }
      PacketIn plainChan (arrived plainChan p) aFrame p e ∧ ((arrived plainChan p).chan p.chan.val).takes p = false) ∧
    -- every operation but NOTIFY, next in order
    (∀ p ∈ [reqPkt 1 0 [1, 2], reqPkt 2 2 [], reqPkt 3 0 (leBytes 8 1), reqPkt 4 0 (leBytes 8 1), reqPkt 5 0 (leBytes 16 1), reqPkt 6 4 (leBytes 4 1),
        reqPkt 8 0 []],
      let t := arrived plainChan p
      ChannelIn plainChan t aFrame p 1 ∧ ReturnsSound t ∧ InOrder t aFrame p ∧ SoundAt t (p.offset.toNat / 32 * 32) (p.aux.toNat + 32) ∧
      Lands t p.offset.toNat 16 ∧ t.pickAny (fun _ => false) = some 1 ∧ Unpaused t 1 t.fab.prio) ∧
    -- a WRITE received before, and one refused
    (let p := { aPkt 1 1 with psn := 0xFFFFFFFF }
     ChannelIn plainChan (arrived plainChan p) aFrame p 1 ∧ precedes p.psn ((arrived plainChan p).chan 5).expect = true ∧
     ((arrived plainChan p).chan 5).refused = [] ∧ (arrived plainChan p).pickAny (fun _ => false) = some 1) ∧
    (let p := { aPkt 1 1 with offset := 0 }
     let t := arrived plainChan p
     ChannelIn plainChan t aFrame p 1 ∧ ReturnsSound t ∧ t.reqStatus p = 4 ∧ p.psn = (t.chan 5).expect ∧ p.first = true ∧ p.last = true ∧
     UnitFree t (aFrame.sub.val / 8) ∧ (t.fabricEntry (p.token.toNat % 16384)).sound = true) := by
  refine ⟨by decide, by decide, by decide, by decide, by decide, by decide, fun e h => ?_, fun p h => ?_, ⟨channel_in (by decide), by decide⟩,
    ⟨channel_in (by decide), returns_sound (by decide), by decide, by decide, by decide, by decide, ⟨by decide, by decide⟩, by decide⟩⟩
  · fin_cases h <;> exact ⟨packet_in (by decide), by decide⟩
  · fin_cases h <;> exact ⟨channel_in (by decide), returns_sound (by decide), in_order (by decide), sound (by decide) _ _, lands (by decide), by decide,
      by unfold Unpaused; decide⟩

/-- Entry 0 with a token for a NOTIFY, and the NOTIFY. -/
theorem witness_NotifyIsReceived :
    let w : BitVec 128 := (0xC000000000000000 ||| ((permBit permIo).setWidth 64 <<< 40) : BitVec 64) ++ (0 : BitVec 64)
    let s := withChan aChan fun f => { f with table := [(0, { aEntry with tokHi := pairOf (w.extractLsb' 64 64), base := pairOf 0 })] }
    let p := { reqPkt 7 0 [] with token := w, offset := 0x2003 }
    let t := arrived s p
    ChannelIn s t aFrame p 1 ∧ ReturnsSound t ∧ InOrder t aFrame p ∧ t.takesMessages (p.offset.toNat / 4096 % 128) = true ∧
    -- source 4,095, and target 65
    p.op = 7 ∧ (0x2FFF : Word).toNat % 4096 = 0xFFF ∧ 64 < (0x41003 : Word).toNat / 4096 % 128 :=
  ⟨channel_in (by decide), returns_sound (by decide), in_order (by decide), by decide⟩

theorem witness_RequestsAndAnswers :
    (let s := plainChan
     s.fabricOn = true ∧ (s.chan 5).st = .opened ∧ (s.chan 5).peer ≠ s.fab.devId.val ∧ s.fab.loop = [] ∧
     (s.chan 5).nextOp s.fab.payload.toNat = none ∧ (s.chan 5).held = [] ∧ (s.chan 5).sinceAck = 0) ∧
    (let o : PostOp := ⟨some 0, ⟨1, false, 5, 4, 0x8001010000001000, 0x010000002000, 0, 0, 9, aToken, 0, 0, true⟩, 0, 0, none, false, 0, none, [], []⟩
     let s := withChan { aChan with ops := [o], sinceAck := 1 } fun f => { f with payload := 4096 }
     (s.chan 5).nextOp s.fab.payload.toNat = some o ∧ s.maySend (s.chan 5) o = true ∧
     (∀ r ∈ o.desc.packetRanges s.fab.payload.toNat o.sent, SoundAt s (r.1 / 32 * 32) (r.2 + 32)) ∧
     s.pickSub (fun i => (0 : BitVec 64).getLsbD i) = some 1 ∧ UnitFree s 0 ∧ (s.chan 5).sinceAck ≠ 0 ∧ s.pickAny (fun _ => false) = some 1) ∧
    -- a REQ whose time has passed, and one whose time has not
    (let s := { sentDev 1 2 with time := 100 }
     ((s.chan 5).sent.find? fun x => x.psn == 0).isSome = true ∧ s.pickAny (fun i => i == 0) = some 1 ∧
     (∀ e ∈ (s.chan 5).sent, e.pkt.dst ≠ s.fab.devId.val ∧ e.sacked = false ∧ e.sentAt + 100 * s.fab.rtoUs.toNat * 2 ^ min e.retries 3 ≤ s.time)) ∧
    (let s := sentDev 1 2
     ∀ e ∈ (s.chan 5).sent, s.time < e.sentAt + 100 * s.fab.rtoUs.toNat * 2 ^ min e.retries 3) ∧
    -- an acknowledgement that releases the one REQ, one that names it as refused, and a NACK
    (let s := sentDev 1 2
     let p := { aPkt 3 0 with ack := 1, payload := [] }
     let bad := { p with payload := [0, 0, 0, 0, 4] }
     ReturnsSound (arrived s p) ∧ ChannelIn s (arrived s p) aFrame p 3 ∧ ReturnsSound (arrived s bad) ∧ ChannelIn s (arrived s bad) aFrame bad 3 ∧
     ChannelIn s (arrived s { aPkt 4 0 with ack := 1 }) aFrame { aPkt 4 0 with ack := 1 } 4 ∧
     -- with the echo of a CE mark
     (∀ e ∈ [(3 : BitVec 4), 4], let m := { aPkt e 0 with ack := 1, payload := [], ceEcho := true }
       ChannelIn s (arrived s m) aFrame m e ∧ ((arrived s m).peerOf m.src).halvedAt = none) ∧
     ((arrived s p).chan 5).ops = [anOp 1 2] ∧ Posted (arrived s p) 0 (anOp 1 2) ∧
     (anOp 1 2).sent = (anOp 1 2).desc.packets (arrived s p).fab.payload.toNat ∧ wantsResp (anOp 1 2).desc.op = false ∧
     ackRefusals p.payload = [] ∧ ackRefusals bad.payload = [((anOp 1 2).base, 4)] ∧ (∀ e ∈ ((arrived s p).chan 5).sent, e.psn = 0 ∧
       precedes e.psn p.ack = true)) ∧
    -- the RESP of a READ, of an atomic, and one that refuses
    (∀ e ∈ [((2 : BitVec 8), (0 : Byte)), (3, 0), (1, 4)],
     let s := sentDev e.1 2
     let p := { aPkt 2 e.1 with fmt := e.2 }
     let t := arrived s p
     ChannelIn s t aFrame p 2 ∧ ReturnsSound t ∧ (t.chan 5).ops = [anOp e.1 2] ∧ Posted t 0 (anOp e.1 2) ∧
     (t.chan 5).sent.length = 1 ∧ (∀ x ∈ (t.chan 5).sent, x.psn = p.ack ∧ (anOp e.1 2).owns x.psn = true ∧ x.psn = (anOp e.1 2).base) ∧
     (anOp e.1 2).desc.packets t.fab.payload.toNat = 1 ∧ p.payload.length = 2 ∧ p.pmap = 0 ∧ 2 ≤ t.fab.payload.toNat ∧
     Lands t (anOp e.1 2).desc.laddr.toNat 2) := by
  refine ⟨by decide, ⟨by decide, by decide, fun r _ => sound (by decide) _ _, by decide, ⟨by decide, by decide⟩, by decide⟩, by decide, by decide,
    ⟨returns_sound (by decide), channel_in (by decide), returns_sound (by decide), channel_in (by decide), channel_in (by decide),
      fun e h => by fin_cases h <;> exact ⟨channel_in (by decide), by decide⟩, by decide,
      ⟨by decide, by decide, by decide, by decide⟩, by decide⟩, fun e h => ?_⟩
  fin_cases h <;> exact ⟨channel_in (by decide), returns_sound (by decide), by decide, ⟨by decide, by decide, by decide, by decide⟩, by decide, by decide,
    by decide, by decide, by decide, by decide, lands (by decide)⟩

/-- Channel 5 to device 1 opened with the peer's half 8 and the own half 3. -/
def openChan : Channel := { aChan with ownHalf := 3, peerHalf := some 8, epoch := 0x30008 }

theorem witness_ChannelsOpenAndClose :
    (∀ st ∈ [ChanState.closed, .gone, .opened], let s := withChan { aChan with st := st } id
     s.hubRuns = true ∧ s.domainOn 92 = true ∧ (s.core 0).cond ≠ .absent ∧ s.fab.loop = [] ∧ (s.chan 5).peer ≠ s.fab.devId.val ∧ (s.chan 5).st = st ∧
     s.pickAny (fun _ => false) = some 1) ∧
    (let s := (withChan aChan id).setCore 0 { (withChan aChan id).core 0 with win := { ((withChan aChan id).core 0).win with chSel := 5 } }
     (s.core 0).win.chSel.toNat = 5) ∧
    (let s := withChan { aChan with st := .draining } id
     s.fabricOn = true ∧ (s.chan 5).st = .draining ∧ (s.chan 5).ops = [] ∧ ReturnsSound s) ∧
    -- HELLO of the peer: the channel opens; the same half under the same epoch and under another; a new half
    (∀ e ∈ [({ aChan with st := .opening }, (0 : BitVec 32), ChanState.opening, true), (openChan, 0x30008, .opened, true), (openChan, 0, .opened, true),
        ({ openChan with peerHalf := some 9 }, 0, .opened, false)],
      let s := withChan e.1 id
      let p := { aPkt 7 0 with epoch := e.2.1, aux := 8 }
      let t := arrived s p
      PacketIn s t aFrame p 7 ∧ ReturnsSound t ∧ (t.chan 5).peer = p.src ∧ p.src ≠ t.fab.devId.val ∧ t.pickAny (fun _ => false) = some 1 ∧
      (t.chan 5).st = e.2.2.1 ∧ (e.2.2.1 = .opened → decide ((t.chan 5).peerHalf = some (p.aux.setWidth 16)) = e.2.2.2)) ∧
    -- BYE, and a peer that does not answer in time or with no sub-port UP
    (ChannelIn plainChan (arrived plainChan (aPkt 8 0)) aFrame (aPkt 8 0) 8 ∧ ((arrived plainChan (aPkt 8 0)).chan 5).st = .opened ∧
      ReturnsSound (arrived plainChan (aPkt 8 0))) ∧
    (let s := { sentDev 1 2 with time := 2000000 }
     s.fabricOn = true ∧ (1 : BitVec 14) ≠ s.fab.devId.val ∧ 0 < s.inFlightTo 1 ∧
     (s.peerOf 1).heard + 100000 * s.fab.peerTimeout.toNat ≤ s.time ∧ ReturnsSound s) ∧
    (let s := { plainChan with time := 2000000 }
     s.fab.noUpSince = some 0 ∧ 0 + 100000 * s.fab.peerTimeout.toNat ≤ s.time ∧ ReturnsSound s) ∧
    (plainChan.time < (plainChan.peerOf 1).heard + 100000 * plainChan.fab.peerTimeout.toNat ∧
      (plainChan.mapFab fun f => { f with noUpSince := none }).fab.noUpSince = none) := by
  refine ⟨by decide, by decide, ⟨by decide, by decide, by decide, returns_sound (by decide)⟩, fun e h => ?_,
    ⟨channel_in (by decide), by decide, returns_sound (by decide)⟩, ⟨by decide, by decide, by decide, by decide, returns_sound (by decide)⟩,
    ⟨by decide, by decide, returns_sound (by decide)⟩, by decide⟩
  fin_cases h <;> exact ⟨packet_in (by decide), returns_sound (by decide), by decide⟩

set_option maxRecDepth 8000 in
theorem witness_SubportsAreProbed :
    (let s := withChan aChan fun f => { f with subs := vset f.subs 0 { vget f.subs 0 (SubPort.reset 0) with st := .down, probesOk := 7, probeOut := true } }
     s.fabricOn = true ∧ (1 : BitVec 14) ≠ s.fab.devId.val ∧ (s.sub 0).link = true ∧ (s.sub 0).mac ≠ 0 ∧ (s.sub 0).st = .down ∧
     (s.sub 0).probeOut = true ∧ PacketIn s (arrived s (aPkt 5 0)) aFrame (aPkt 5 0) 5 ∧ ((arrived s (aPkt 5 0)).sub 0).mac ≠ 0 ∧
     PacketIn s (arrived s (aPkt 6 0)) aFrame (aPkt 6 0) 6 ∧ ((arrived s (aPkt 6 0)).sub 0).probeOut = true ∧
     ((arrived s (aPkt 6 0)).sub 0).st = .down ∧ 7 ≤ ((arrived s (aPkt 6 0)).sub 0).probesOk) ∧
    -- probes of an UP sub-port while requests are not answered: due, and not due again yet; none without a link
    (let s := sentDev 1 2
     0 < s.inFlightTo 1 ∧ (s.peerOf 1).probedAt = none ∧ Unpaused s 0 s.fab.prio ∧ (s.sub 0).link = true ∧ (s.sub 0).mac ≠ 0 ∧ (s.sub 0).st = .up) ∧
    ((plainChan.sub 0).st = .up ∧ plainChan.inFlightTo 1 = 0) ∧
    -- failures: a lost link, a word count above the threshold and one that is not, unanswered probes
    (let s := withChan aChan fun f => { f with subs := vset f.subs 0 { vget f.subs 0 (SubPort.reset 0) with probeOut := true } }
     (s.sub 0).st = .up ∧ s.sentOn 0 = [] ∧ s.fab.loop = [] ∧ (s.sub 0).probeOut = true ∧ (vget s.fab.ports 0 ⟨0xFF, 0, 0x100⟩).fecThr.toNat = 256 ∧
     256 < (257 : BitVec 32).toNat ∧ (256 : BitVec 32).toNat ≤ 256) ∧
    -- a link lost while a REQ waits for its acknowledgement
    (let s := sentDev 1 2
     (s.sub 0).st = .up ∧ s.fab.loop = [] ∧ ∀ e ∈ s.fab.chans, ∀ q ∈ e.2.sent, q.pkt.dst ≠ s.fab.devId.val) ∧
    ((plainChan.sub 0).st ≠ .absent ∧ plainChan.domainOn 84 = true ∧
      plainChan.hubRuns = true ∧ (∀ j < 8, plainChan.sentOn (8 * 7 + j) = []) ∧ (plainChan.ledger 0x4F).st = .opened) ∧
    ((3 : BitVec 8).toNat < 4 ∨ (3 : BitVec 8) = 0xFF) := by
  refine ⟨⟨by decide, by decide, by decide, by decide, by decide, by decide, packet_in (by decide), by decide, packet_in (by decide), by decide⟩,
    ?_, by decide⟩
  unfold Unpaused
  decide

theorem unpaused {s : State} {k : Nat} (h : (s.sub k).paused = 0) (prio : BitVec 3) : Unpaused s k prio := by
  unfold Unpaused
  rw [h]
  simp

set_option maxRecDepth 8000 in
theorem witness_FlowControlAndTable :
    (let s := withChan aChan fun f => { f with subs := vset f.subs 0 { vget f.subs 0 (SubPort.reset 0) with pfcEn := 1, xoff := 2, ip4 := 9 } }
     (s.receives 0 = true ∧ aFrame.fcsOk = true ∧ s.fab.waiting = [] ∧ s.subSends 0 = true ∧ (s.sub 0).pfcEn.getLsbD 0 = true ∧
     (s.sub 0).xoff.getLsbD 0 = false ∧ (s.sub 0).xoff.getLsbD 1 = true ∧ 2048 ≤ s.sharedFree ∧ (s.frameIn aFrame).2 = true ∧
     ((s.frameIn aFrame).1.sub 0).mac ≠ 0 ∧ ((s.frameIn aFrame).1.sub 0).ip4 ≠ 0 ∧ ((s.frameIn aFrame).1.sub 0).st ≠ .absent ∧
     s.hubRuns = true ∧ tokenOk ({ s.fabricEntry 0 with noted := false }).token 0 = true ∧
     tokenOk ({ s.fabricEntry 1 with noted := false }).token 1 = false) ∧ Unpaused (s.frameIn aFrame).1 aFrame.sub.val Config.answerPrio) ∧
    -- a request in fragments
    (let f := { aFrame with fragOrExt := true }
     (plainChan.frameIn f).2 = true ∧ ((plainChan.frameIn f).1.sub 0).mac ≠ 0 ∧ f.fragOrExt = true ∧ NeighborKind.echo ≠ .arp) ∧
    -- one frame waits for the end of the pause of its priority
    (let w : OutFrame := ⟨0, 3, none, .pfc 0 3 true⟩
     let s := fabDev fun f => { f with waiting := [w] }
     s.fab.waiting = [w] ∧ w.sub = 0 ∧ w.prio.toNat = (3 : Fin 8).val) ∧
    -- a port beyond its reserve with little of the shared part free
    (let h : HeldReq := ⟨aPkt 1 1, 0, 0, (0, false)⟩
     let s := withChan { aChan with held := List.replicate 257 h } fun f => { f with subs := vset f.subs 0 { vget f.subs 0 (SubPort.reset 0) with pfcEn := 1 } }
     256 < s.heldOn 0) := by
  exact ⟨⟨by decide, unpaused (by decide) _⟩, by decide⟩

/-- Queue pair 5 with its context, and the table entry of its R_Keys, in stack 0's staging SRAM. -/
def qpDev (q : QueuePair) : State :=
  let s := withChan aChan fun f => { f with qps := [(5, { q with st := .rts, cfg := 3 })], qpTab := 0x010000000000 }
  { s with mem := { s.mem with data := [(0x010000000000 + 320 + 12, 3)] } }

/-- An operation of core 0 on queue pair 5, whose one packet has been sent. -/
def roceOp (op : Byte) : PostOp := ⟨some 0, ⟨op, false, 5, 4, 0x8001010000001000, 0x010000002000, 0, 0, 9, 0, 0, 0, true⟩, 1, 0, none, false, 0, none, [], []⟩

/-- A request of queue pair 5 by the R_Key of table entry 0. -/
def roceReq (op : RoceOp) (psn : BitVec 24) (va : Word) (n : Nat) : RoceReq :=
  ⟨5, psn, op, va, 0, w32 n, 0, 0, true, true, if op = .write ∨ op = .send then List.replicate n 1 else []⟩

def roceArrived (s : State) : State := (s.roceIn aFrame 5).1

theorem roce_in {s : State} (h : s.fabricOn = true ∧ (s.roceIn aFrame 5).2 = true) : RoceIn s (roceArrived s) aFrame 5 := ⟨h.1, Prod.ext rfl h.2⟩

theorem write_goes {t : State} {q : RoceReq} {r : RoceRx}
    (h : (if q.first = true then r = ⟨.write, q.va.toNat, q.len.toNat⟩ ∧ (t.qp q.qp.val).rx = none ∧ t.rkeyStatus q [permStore] q.len.toNat = 0
        else (t.qp q.qp.val).rx = some r ∧ r.op = .write) ∧
      (if q.last = true then q.payload.length = r.left ∧ r.left ≤ (t.qp q.qp.val).mtu
        else q.payload.length = (t.qp q.qp.val).mtu ∧ (t.qp q.qp.val).mtu < r.left)) : WriteGoes t q r := ⟨h.1, h.2⟩

theorem one_op {t : State} {o : PostOp} (h : (t.qp 5).ops = [o] ∧ o.owner = some 0 ∧ (t.core 0).win.pqSize.toNat ≤ 128 ∧
    (o.got = [] ∧ o.fail = none ∧ o.poisoned = false) ∧ o.ended = none) : OneOp t 5 0 o := ⟨h.1, h.2.1, h.2.2.1, h.2.2.2.1, h.2.2.2.2⟩

set_option maxRecDepth 8000 in
theorem witness_QueuePairsServe :
    (let s := qpDev qpReset
     s.hubRuns = true ∧ s.domainOn 92 = true ∧ (s.qp 5).ops = [] ∧ (s.stacksOf (s.contextAddr 5) 64).isSome = true ∧ SoundAt s (s.contextAddr 5) 64 ∧
     s.contextOk (s.homeBytes (s.contextAddr 5) 64) = true ∧ (∀ j < 64, (s.region (s.contextAddr 5 + j)).mapped = true)) ∧
    -- the queue pair receives requests of every operation; its ring has a free slot, or none
    (∀ x ∈ [{ qpReset with rqSize := 2, rqBase := 0x010000004000 }, { qpReset with rqSize := 2, rqBase := 0x010000004000, rqTail := 2 }],
      let s := qpDev x
      let t := roceArrived s
      RoceIn s t aFrame 5 ∧ (t.fabricEntry 0).sound = true ∧ (t.qp 5).rqSize ≠ 0 ∧ (t.qp 5).rx = none ∧ 2 ≤ (t.qp 5).mtu ∧ (t.qp 5).ops = [] ∧
      decide (((t.qp 5).rqTail - (t.qp 5).rqHead).toNat < (t.qp 5).rqSize.toNat) = decide (x.rqTail = 0) ∧ Lands t 0x010000004000 2 ∧
      -- a WRITE of one packet, and the first, middle and last packets of a longer one
      (let q := roceReq .write 0 0x010000001000 2
       WriteGoes t q ⟨.write, 0x010000001000, 2⟩ ∧ Lands t 0x010000001000 2 ∧ (q.psn - (t.qp 5).rpsn).toNat = 0) ∧
      (let q := { roceReq .write 0 0x010000001000 1024 with len := 3000, last := false }
       WriteGoes t q ⟨.write, 0x010000001000, 3000⟩ ∧ Lands t 0x010000001000 2) ∧
      -- READ and atomics
      (t.rkeyStatus (roceReq .read 0 0x010000001000 2) [permLoad] 2 = 0 ∧ SoundAt t (0x010000001000 / 32 * 32) 34) ∧
      (∀ op ∈ [RoceOp.fetchAdd, .cmpSwap], t.rkeyStatus (roceReq op 0 0x010000001000 8) [permLoad, permStore] 8 = 0) ∧ Lands t 0x010000001000 8 ∧
      -- a refused R_Key
      (let q := roceReq .write 0 0 2
       t.rkeyStatus q [permStore] q.len.toNat ≠ 0 ∧ (t.qp 5).sizeOk q q.len.toNat = true ∧ q.payload.length = q.len.toNat) ∧
      -- later numbers, and numbers served before
      (∀ e ∈ [((1 : BitVec 24), 0, 2 ^ 23), (0x7FFFFF, 0, 2 ^ 23), (0x800000, 2 ^ 23 - 1, 2 ^ 24)],
        e.2.1 < (e.1 - (t.qp 5).rpsn).toNat ∧ (e.1 - (t.qp 5).rpsn).toNat < e.2.2)) ∧
    (∀ q ∈ [{ roceReq .write 1 0 1024 with first := false, last := false }, { roceReq .write 1 0 2 with first := false }],
      let s := qpDev { qpReset with rpsn := 1, rx := some ⟨.write, 0x010000001400, if q.last then 2 else 2000⟩ }
      RoceIn s (roceArrived s) aFrame 5 ∧ WriteGoes (roceArrived s) q ⟨.write, 0x010000001400, if q.last then 2 else 2000⟩) ∧
    (let s := qpDev { qpReset with rpsn := 1, atomics := [(0, 77)] }
     RoceIn s (roceArrived s) aFrame 5 ∧ ((roceArrived s).qp 5).atomics.find? (fun e => e.1 == (0 : BitVec 24)) = some (0, 77)) := by
  refine ⟨⟨by decide, by decide, by decide, by decide, sound (by decide) _ _, by decide, by decide⟩, fun x h => ?_, fun q h => ?_,
    roce_in (by decide), by decide⟩
  · fin_cases h <;> exact ⟨roce_in (by decide), by decide, by decide, by decide, by decide, by decide, by decide, lands (by decide),
      ⟨write_goes (by decide), lands (by decide), by decide⟩, ⟨write_goes (by decide), lands (by decide)⟩,
      ⟨by decide, sound (by decide) _ _⟩, by decide, lands (by decide), by decide⟩
  · fin_cases h <;> exact ⟨roce_in (by decide), write_goes (by decide)⟩

theorem witness_QueuePairsRetry :
    -- answers: of every operation, with and without retries left
    (∀ op ∈ [(0x10 : Byte), 0x11, 0x12, 0x13, 0x14], ∀ n ∈ [0, 1],
      let s := qpDev { qpReset with ops := [roceOp op], retriesLeft := n, rnrLeft := n }
      let t := roceArrived s
      RoceIn s t aFrame 5 ∧ OneOp t 5 0 (roceOp op) ∧ (t.qp 5).covers (roceOp op) 0 = true ∧ (t.qp 5).lastOf (roceOp op) 0 = true ∧
      (t.qp 5).retriesLeft = n ∧ (t.qp 5).rnrLeft = n ∧ Lands t 0x010000002000 4) ∧
    -- the timer is over, with and without a retry left; it is not; an RNR wait
    (∀ e ∈ [(500, 1, false, true), (500, 0, false, true), (400, 1, false, false), (0, 1, true, false)],
      let s := { qpDev { qpReset with ops := [roceOp 0x11], retriesLeft := e.2.1, rnrWait := e.2.2.1 } with time := e.1 }
      s.fabricOn = true ∧ (s.qp 5).st = .rts ∧ OneOp s 5 0 (roceOp 0x11) ∧ (s.qp 5).rnrWait = e.2.2.1 ∧ (s.qp 5).retriesLeft = e.2.1 ∧
      decide (10 * (s.qp 5).sentAt + 4096 * 2 ^ ((s.qp 5).cfg.extractLsb' 10 5).toNat ≤ 10 * s.time) = e.2.2.2) ∧
    -- 55 µs after a CNP, before, and without one
    (∀ e ∈ [(some 0, 5500, true), (some 1, 5500, false), (none, 5500, false)],
      let s := { qpDev { qpReset with rateAt := e.1 } with time := e.2.1 }
      (s.qp 5).st = .rts ∧ (s.qp 5).rateAt = e.1 ∧ e.1.any (fun a => decide (a + 5500 ≤ s.time)) = e.2.2) := by
  refine ⟨fun op h n hn => ?_, fun e h => ?_, fun e h => by fin_cases h <;> decide⟩
  · fin_cases h <;> fin_cases hn <;> exact ⟨roce_in (by decide), one_op (by decide), by decide, by decide, by decide, by decide, lands (by decide)⟩
  · fin_cases h <;> exact ⟨by decide, by decide, one_op (by decide), by decide⟩

/-! ### Witnesses: dictionary -/

/-- k2 a root capability; in and out reach the dictionary. -/
def ioDev : State := devOf fun x => x.setK 2 (capRoot 0)

def ioT : State := fetched ioDev 8

/-- What the witness needs to know of an entry. -/
def entryShape (i s : Nat) : Option (Access × BitVec 16 × Bool) := (ioT.lookup i s).map fun e => (e.acc, e.rperm, e.owner.isNone)

theorem witness_CoresReachTheDictionary :
    Works ioDev 8 ∧ ((ioT.getK 0 2).usable ∧ (ioT.getK 0 2).has permIo = true ∧ (ioT.getK 0 2).has permFabric = true ∧ (ioT.getK 0 2).base ≤ 0 ∧
      0x1000000 ≤ (ioT.getK 0 2).top ∧ (ioT.core 0).str.fence = [] ∧ ioT.coreRuns 0 = true ∧ tailCore ⟨0x2400, 3, 0⟩ = none) ∧
    -- an entry that is not there, one read-only, one write-only, one written during a reset
    (ioT.lookup 0x2400 0xF0 = none ∧ (entryShape 0x6400 1).map (fun e => e.1) = some .ro ∧ (entryShape 0x2400 4).map (fun e => e.1) = some .wo ∧
      (entryShape 0xA000 9).map (fun e => e.1) = some .atReset) ∧
    -- a capability without SYSCFG neither reads the hub's threshold nor writes the notice severity
    (∃ e, ioT.lookup 0x2840 3 = some e ∧ (coreAccess 0 ((capRoot 0).setPerms (permBit permIo))).holds e.rperm = false) ∧
    (∃ e, ioT.lookup 0xA000 6 = some e ∧ (coreAccess 0 ((capRoot 0).setPerms (permBit permIo))).holds e.wperm = false) ∧
    -- entries read and written: one that takes 7 and not 8, one whose type does not take 2, one of 64 bytes
    (∃ e, ioT.lookup 0xA000 6 = some e ∧ (coreAccess 0 (capRoot 0)).holds e.rperm = true ∧ (coreAccess 0 (capRoot 0)).holds e.wperm = true ∧
      e.owner = none ∧ e.acc = .rw ∧ e.take = none ∧ e.critical = false ∧ e.check ioT = ioT ∧ e.typ.varies = false ∧
      e.typ.ofReg 8 = some 8 ∧ (e.write ioT 0xA000 0 8).isNone = true ∧ (e.write ioT 0xA000 0 7).map (fun u => u.coreRuns 0) = some true) ∧
    (∃ e, ioT.lookup 0x2850 2 = some e ∧ e.acc = .rw ∧ e.typ.ofReg 2 = none) ∧
    (∃ e, ioT.lookup 0x2901 1 = some e ∧ (coreAccess 0 (capRoot 0)).holds e.rperm = true ∧ e.owner = none ∧ e.acc = .rw ∧ e.take = none ∧
      e.critical = false ∧ e.check ioT = ioT ∧ e.typ.varies = true ∧ e.len ioT = 64) := by
  refine ⟨works (by decide), ⟨⟨by decide, by decide⟩, by decide⟩, by decide, ⟨_, rfl, by decide⟩, ⟨_, rfl, by decide⟩,
    ⟨_, rfl, by decide, by decide, rfl, rfl, rfl, rfl, rfl, by decide⟩, ⟨_, rfl, rfl, by decide⟩, ⟨_, rfl, by decide, rfl, rfl, rfl, rfl, rfl, by decide⟩⟩

/-- Posting queues: without a size, and with 16 slots. -/
theorem witness_PostingQueueOverflow : Works ioDev 8 ∧ ((ioT.core 0).cond ≠ .absent ∧ ioT.domainOn 92 = true ∧ (ioT.core 0).win.pqSize = 0 ∧
      ((capRoot 0).setPerms (permBit permIo)).has permFabric = false) ∧
    (let s := devOf fun x => { x.setK 2 (capRoot 0) with win := { x.win with pqSize := 16 } }
     Works s 8 ∧ ((fetched s 8).core 0).win.pqSize.toNat = 16 ∧ ((fetched s 8).core 0).win.pqTail = 0 ∧
       ((fetched s 8).core 0).win.cqHead = 0) ∧
    ((16 : BitVec 16) - 0).toNat + ((0 : BitVec 16) - 0).toNat = 16 ∧ ((17 : BitVec 16) - 0).toNat + ((0 : BitVec 16) - 0).toNat = 17 :=
  ⟨works (by decide), by decide, ⟨works (by decide), by decide⟩, by decide⟩

/-- A requester on the management port. -/
def aPeer : DapPeer := ⟨none, 1, 2, 3⟩

def aSession : Session := ⟨7, aPeer, none, 4, 0, false, 0, 0, none, 0, 0, 0⟩

/-- A session in slot 0 of the management port. -/
def sessDev (x : Session) : State := { dev with mgmt := { dev.mgmt with port := vset dev.mgmt.port 0 (some x), mac := 0x22 }, balls := { dev.balls with mgmtTx := true } }

theorem witness_RequestersWriteEntries :
    (dev.hubRuns = true ∧ dev.lookup 0x2400 0xF0 = none ∧ (sessDev aSession).sessionAt false 0 = some aSession ∧
      (((sessDev aSession).touchSession false 0).lookup 0x2400 0xF0).isNone = true) ∧
    -- of hub firmware: refused as read-only, by its type, by the entry, and taken
    (∃ e, dev.lookup 0x6400 1 = some e ∧ e.acc = .ro ∧ e.typ.varies = false) ∧ (∃ e, dev.lookup 0x2850 2 = some e ∧ e.acc = .rw ∧ e.typ.ofReg 2 = none) ∧
    (∃ e, dev.lookup 0xA000 6 = some e ∧ e.acc = .rw ∧ e.typ.varies = false ∧ e.typ.ofReg 8 = some 8 ∧ (e.write dev 0xA000 64 8).isNone = true ∧
      (e.write dev 0xA000 64 7).isSome = true) ∧
    -- of a session without and with SYSCFG
    (∃ e, ((sessDev aSession).touchSession false 0).lookup 0xA000 6 = some e ∧ e.acc = .rw ∧ e.typ.varies = false ∧
      ((sessDev aSession).sessionAccess aSession).holds e.wperm = true ∧ e.typ.ofReg 7 = some 7 ∧
      (e.write ((sessDev aSession).touchSession false 0) 0xA000 64 7).isSome = true) ∧
    (let x := { aSession with trust := some 0 }
     (sessDev x).sessionAt false 0 = some x ∧ ∃ e, ((sessDev x).touchSession false 0).lookup 0xA000 6 = some e ∧
      ((sessDev x).sessionAccess x).holds e.wperm = false) := by
  refine ⟨⟨by decide, by decide, rfl, by decide⟩, ⟨_, rfl, rfl, rfl⟩, ⟨_, rfl, rfl, by decide⟩, ⟨_, rfl, rfl, rfl, by decide⟩,
    ⟨_, rfl, rfl, rfl, by decide⟩, rfl, _, rfl, by decide⟩

theorem witness_OptionsAreCommitted : ((dev.core 0).cond ≠ .absent ∧ dev.domainOn 64 = true ∧ dev.rst.commit = none) ∧
    (∀ p ∈ [none, some 0, some 15], let k : Commit := ⟨p, false, []⟩
      let s := { dev with rst := { dev.rst with commit := some k } }
      s.rst.commit = some k ∧ k.waiting = false) ∧ dev.rst.commitAgain = false :=
  by decide

/-! ### Witnesses: training support, containment -/

/-- An extent table with one extent of 4 KiB from address 0 on; both targets name queue pair 5, which is in RTS and carries q's. -/
def extDev (q : QueuePair) (g : Training → Training) : State :=
  let tgt : SnapTarget := ⟨5, 0x10000, 7⟩
  { dev with mem := { dev.mem with data := [(0x010000000009, 0x10), (0x010000000010, 1)] },
             fab := { dev.fab with qps := [(5, { q with st := .rts, cfg := 3 })] },
             train := g { dev.train with extTable := Vector.replicate 2 0x010000000000, extCount := Vector.replicate 2 1, ckpt := tgt, eval := tgt } }

def anExtent : Extent := ⟨0, 4096, 1, 0, false⟩

/-- A job of buffer 0. -/
def aJob (restore ship eval : Bool) (phase : Fin 3) : DrainJob :=
  ⟨restore, 0, ship, false, eval, phase, [anExtent], 0, 1, 2, 3, 4, 5, 6, []⟩

def jobDev (q : QueuePair) (j : DrainJob) : State := extDev q fun t => { t with job := some j, snap := vset t.snap 0 .draining }

/-- The engine's WRITE of a record's header page, in four packets, all sent. -/
def engineOp : PostOp := ⟨none, engineDesc ⟨5, 0x10000, 7⟩ 0x11 0 4096, 1, 0, none, false, 0, none, List.replicate 4096 0, []⟩

def busyDev (j : DrainJob) : State := jobDev { qpReset with ops := [engineOp], spsn := 4 } j

set_option maxRecDepth 8000 in
theorem witness_TrainingSupport : dev.hubRuns = true ∧ (0 : Word) ≠ 1 ∧ dev.domainOn 93 = true ∧
    -- pairs that agree; a damaged step, marked and not
    (intact dev.train.step = true ∧ intact dev.train.dataPos = true ∧ intact dev.train.sps = true) ∧
    (∀ m : Bool, let s := { dev with train := { dev.train with step := ⟨1, 1⟩ }, cont := { dev.cont with crit := vset dev.cont.crit 2 m } }
      s.hubRuns = true ∧ intact s.train.step = false ∧ vget s.cont.crit 2 true = m) ∧
    (let s := { dev with cont := { dev.cont with stopped := true } }
     s.hubRuns = true ∧ s.domainOn 93 = true ∧ s.cont.stopped = true) ∧
    (∀ x ∈ [SnapState.free, .failed, .restoreFailed, .awaiting], let s := extDev qpReset fun t => { t with snap := Vector.replicate 2 x }
      s.hubRuns = true ∧ s.domainOn 93 = true ∧ s.cont.stopped = false ∧ s.train.job = none ∧ (s.extents 0).2 = some [anExtent] ∧ (s.extents 1).2 = some [anExtent] ∧
      s.train.evalHold[0] = false ∧ s.train.snap[0] = x ∧ s.train.snap[1] = x ∧ (s.qp s.train.ckpt.qn).st = .rts) ∧
    (jobDev qpReset (aJob false false false 0)).train.job ≠ none ∧
    (let s := extDev qpReset fun t => { t with snap := vset t.snap 1 .awaiting, await := vset t.await 1 (some (5, 6, 7)) }
     s.hubRuns = true ∧ s.train.snap[(1 : Fin 2)] = .awaiting ∧ (∀ a : Fin 2, a < 1 → s.train.snap[a] ≠ .awaiting) ∧
     s.train.await[(1 : Fin 2)] = some (5, 6, 7)) := by decide

/-- A record of one section of four bytes: its header and section table end with the valid word, zeros fill its first 4 KiB. -/
def aSection : List Byte := [1, 2, 3, 4]

def smallExtent : Extent := ⟨0x010000003000, 4, 1, 0, false⟩

def recordFront : List Byte :=
  let f := headerFields 0 0 1 { aJob false false false 0 with step := 0, dataPos := 0, sps := 1, stepBase := 0 } 1 4100
  let e := sectionEntry 4096 smallExtent (crc32c aSection)
  f ++ leBytes 4 (crc32c (f ++ e)).toNat ++ List.replicate 148 0 ++ validWord ++ e

def aFullRecord : List Byte := (recordFront ++ List.replicate 3808 0) ++ aSection

set_option maxRecDepth 8000 in
theorem full_section : (aFullRecord.drop 4096).take 4 = aSection := by
  have h : (recordFront ++ List.replicate 3808 0).length = 4096 := by
    rw [List.length_append, List.length_replicate, show recordFront.length = 288 by decide]
  have d : aFullRecord.drop 4096 = aSection := by
    rw [← h]
    exact List.drop_left
  rw [d]
  rfl

/-- A restore of the record in progress. -/
def restoreDev (emode : Bool) : State := jobDev qpReset { aJob true false false 0 with extents := [smallExtent], emode := emode }

set_option maxRecDepth 8000 in
theorem full_passes : restoreFails (restoreDev false).train [smallExtent] aFullRecord (recordSections [smallExtent] aFullRecord) = none := by
  have h : recordSections [smallExtent] aFullRecord = [aSection] := by
    show [(aFullRecord.drop 4096).take 4] = _
    rw [full_section]
  rw [h]
  decide +kernel

theorem engine_busy {s : State} {tgt : SnapTarget} {o : PostOp} (h : ((s.qp tgt.qn).st = .rts ∧ (s.qp tgt.qn).rnrWait = false) ∧ (s.qp tgt.qn).ops = [o] ∧
      (o.owner = none ∧ o.ended = none ∧ o.desc.op = 0x11) ∧
      (s.qp tgt.qn).spsn = o.base.setWidth 24 + BitVec.ofNat 24 (roceSpan (s.qp tgt.qn) 0x11 o.desc.len) ∧
      ((s.qp tgt.qn).spsn - (s.qp tgt.qn).una).toNat < 2 ^ 23 ∧ roceSpan (s.qp tgt.qn) 0x11 o.desc.len < 2 ^ 23) : EngineBusy s tgt o :=
  ⟨h.1, h.2.1, h.2.2.1, h.2.2.2.1, h.2.2.2.2⟩

set_option maxRecDepth 8000 in
theorem witness_DrainEngine :
    (let s := jobDev qpReset (aJob false false false 0)
     let x := s.qp (s.jobTarget (aJob false false false 0)).qn
     DrainIn s (aJob false false false 0) 0 ∧ (s.settleAll [anExtent]).poisonedSection [anExtent] = none ∧ x.st = .rts ∧ x.ops = [] ∧ x.rnrWait = false ∧
     x.una = x.spsn ∧ roceSpan x 0x11 (min (2 ^ 30) (recordLength [anExtent])) < 2 ^ 23) ∧
    (∀ j ∈ [aJob false false false 1, aJob false false false 2, aJob false true true 2, aJob false true false 2],
      DrainIn (busyDev j) j j.phase ∧ EngineBusy (busyDev j) ((busyDev j).jobTarget j) engineOp) ∧
    -- a connection that is up and carries the engine's operation, and one that is lost
    (∀ n : Fin 3, let s := busyDev (aJob false false false n)
      DrainIn s (aJob false false false n) n ∧ (s.qp 5).st = .rts ∧ (∀ o ∈ (s.qp 5).ops, o.owner = none)) ∧
    (∀ n : Fin 3, let s := (jobDev qpReset (aJob false false false n)).setQp 5 qpReset
      DrainIn s (aJob false false false n) n ∧ (s.qp 5).st ≠ .rts) ∧
    -- restores: no valid word; a record that passes every check, with and without emode
    (∀ e : Bool, let s := restoreDev e
      s.train.job = some { aJob true false false 0 with extents := [smallExtent], emode := e } ∧
      ([] : List Byte).length ≠ recordLength [smallExtent] ∧ s.rst.phase = .ready ∧
      (∀ o ∈ (s.qp s.train.ckpt.qn).ops, o.owner = none) ∧ (s.qp s.train.ckpt.qn).st = .rts ∧ s.badExtent smallExtent.src smallExtent.len = false ∧
      s.train.skew (BitVec.ofNat 32 (fieldNat aFullRecord 28 4)) = 0 ∧ Lands s smallExtent.src 4) ∧
    fieldNat [] 248 4 ≠ 0x4C415644 := by
  refine ⟨⟨⟨rfl, rfl, rfl, rfl⟩, by decide⟩, fun j h => ?_, fun n => ⟨⟨rfl, rfl, rfl, rfl⟩, rfl, fun o ho => by
      rw [List.mem_singleton.mp ho]; rfl⟩, fun n => ⟨⟨rfl, rfl, rfl, rfl⟩, QpState.noConfusion⟩,
    fun e => ?_, by decide⟩
  · fin_cases h <;> exact ⟨⟨rfl, rfl, rfl, rfl⟩, engine_busy (by decide +kernel)⟩
  · cases e <;> exact ⟨rfl, by decide, by decide, by decide, by decide, by decide, by decide, lands (by decide)⟩

/-- The watchdog fences after 2 µs, and core 0 has been idle for n ticks. -/
def wdDev (n : Nat) : State :=
  let s := devOf fun x => { x with wdTicks := n }
  { s with cont := { s.cont with wdWarn := 1, wdFence := 2 } }

/-- Core 0's tag pool was fenced 100 µs ago with n units out. -/
def writeoffDev (n : Word) : State :=
  { dev with time := 10000, cont := { dev.cont with
      ledgers := [(0, { ledgerReset 0 with issued := pairOf n, outstanding := pairOf n, fencedAt := some 0 })] } }

/-- A pool at reset passes its checks. -/
theorem reset_sound (id : Nat) : (ledgerReset id).fails ((poolSize id).getD 0) = none := by
  have h : ((poolSize id).getD 0) < 2 ^ 64 := by
    unfold poolSize
    split_ifs <;> decide
  unfold Ledger.fails ledgerReset
  generalize (poolSize id).getD 0 = n at h
  have hn : (w64 n).toNat = n := Nat.mod_eq_of_lt h
  simp [Ledger.whole, intact, pairOf, hn]

/-- Only the ledger of pool 5 fails its sum; an entry of the fabric table and an option word are in use. -/
def sumDev : State :=
  { dev with cont := { dev.cont with ledgers := [(5, { ledgerReset 5 with issued := pairOf 1 })] }, fab := { dev.fab with table := [(0, aEntry)] },
             rst := { dev.rst with words := [(127, pairOf 1)] } }

theorem sum_others (id : Nat) (h : id ≠ 5) : (sumDev.ledger id).fails ((poolSize id).getD 0) = none := by
  have : sumDev.ledger id = ledgerReset id := by simp [State.ledger, sumDev, sparseGet, h]
  rw [this]; exact reset_sound id

/-- Item 9 in queue 0, held by core 0. -/
def itemDev : State :=
  let s := devOf fun x => { (x.setK 2 (capRoot 0)).setG 1 9 with items := [(0, 9)] }
  (s.setQueue 0 { s.queue 0 with items := [7, 8], pendingCount := 1, irq := 5 }).setLedger 0x78 { s.ledger 0x78 with outstanding := pairOf 1 }

/-- Pool id was fenced 100 µs ago; a counter of its ledger is damaged. -/
def damagedPool (id : Nat) : State :=
  { dev with time := 10000, cont := { dev.cont with ledgers := [(id, { ledgerReset id with outstanding := ⟨1, 1⟩, fencedAt := some 0 })] } }

theorem witness_FencesAndLedgers : dev.hubRuns = true ∧ (dev.core 63).cond ≠ .fenced ∧ (dev.core 63).cond ≠ .absent ∧
    -- a core that holds an item; cores that are fenced and absent already
    (itemDev.hubRuns = true ∧ (itemDev.core 0).cond = .running ∧ ClaimsSound itemDev 0 ∧ (itemDev.core 0).items = [(0, 9)]) ∧
    (∀ x ∈ [CoreCond.fenced, .absent], let s := dev.setCore 1 { dev.core 1 with cond := x }
      s.hubRuns = true ∧ (s.core 1).cond = x) ∧
    ((wdDev 0).core 0).wdTicks < 100 * (wdDev 0).cont.wdFence.toNat ∧ (dev.ledger 0).fencedAt = none ∧
    (∀ p ∈ [0, 0x3F, 0x70, 0x7C], let l := (damagedPool p).ledger p
      l.fencedAt = some 0 ∧ 0 + 10000 ≤ (damagedPool p).time ∧ l.whole = false ∧ l.st ≠ .afterFault) ∧
    (let s := wdDev 200; s.coreRuns 0 = true ∧ s.cont.wdFence ≠ 0 ∧ 100 * s.cont.wdFence.toNat ≤ (s.core 0).wdTicks) ∧
    (∀ n ∈ [99, 100], let s := wdDev n
      s.coreRuns 0 = true ∧ s.cont.wdFence ≠ 0 ∧ (s.core 0).wdWarned = false ∧ (s.core 0).wdTicks = n ∧ 100 * s.cont.wdWarn.toNat = 100) ∧
    (∀ n ∈ [0, 3], let s := writeoffDev (w64 n)
      (s.ledger 0).fencedAt = some 0 ∧ (s.ledger 0).whole = true ∧ 0 + 10000 ≤ s.time ∧ { s with time := 9999 }.time < 0 + 10000 ∧ (s.ledger 0).issued.val - (s.ledger 0).returned.val = (s.ledger 0).outstanding.val) ∧
    (dev.rst.phase = .ready ∧ (∀ p ∈ dev.criticals, p.2 = true) ∧ dev.fab.table = [] ∧ dev.rst.words = [] ∧ dev.rst.wordErr = []) ∧
    (∀ id ∈ poolIds, (dev.ledger id).fails ((poolSize id).getD 0) = none) ∧
    (∀ id ∈ poolIds, id ≠ 5 → (sumDev.ledger id).fails ((poolSize id).getD 0) = none) ∧
    ((sumDev.ledger 5).st = .opened ∧ (sumDev.ledger 5).fails 192 = some 2 ∧ (sumDev.core 5).fenceable = true ∧ (sumDev.core 5).items = [] ∧
     sumDev.rst.phase = .ready ∧ (∀ p ∈ sumDev.criticals, p.2 = true) ∧ (∀ e ∈ sumDev.fab.table, (sumDev.fabricEntry e.1).sound = true) ∧
     ∀ n ∈ sumDev.rst.words.map (fun e => e.1) ++ sumDev.rst.wordErr.map (fun e => e.1), sumDev.wordDamaged n = false) ∧
    (∀ n ∈ [14, 15], let s := { dev with cont := { dev.cont with linkReplays := Vector.replicate 10 n } }
      ∀ link : Fin 10, s.cont.linkReplays[link] = n) :=
  ⟨by decide, by decide, by decide, ⟨by decide, by decide, by unfold ClaimsSound; decide, by decide⟩, by decide, by decide, by decide, by decide,
    by decide, by decide, by decide, by decide, fun id _ => reset_sound id, fun id _ h => sum_others id h, by decide,
    by decide⟩

/-- Nothing can be claimed from empty queues, nor by a core that holds 16 items; where queue 0 is empty the next in order gives. -/
theorem witness_ClaimsFail :
    (∀ j : Fin 5, (dev.queue j).items = []) ∧ 16 ≤ ((devOf fun x => { x with items := List.replicate 16 (0, 9) }).core 0).items.length ∧
    (let t := dev.setQueue 4 { dev.queue 4 with items := [7] }
     (t.queue 4).items = 7 :: [] ∧ (t.queue 4).fenced = false ∧ (t.ledger (0x78 + 4)).canTake 1 = true ∧ (∀ j ∈ [(0 : Fin 5)], (t.queue j).items = []) ∧
     [(0 / 16), 4, (0 / 16 + 1) % 4, (0 / 16 + 2) % 4, (0 / 16 + 3) % 4] = ([(0 : Fin 5)] ++ 4 :: [1, 2, 3]).map (fun j : Fin 5 => j.val)) := by
  decide

theorem witness_DispatchQueues : dev.hubRuns = true ∧ (dev.queue 4).fenced = false ∧ (dev.queue 4).items.length < 4096 ∧
    (0 : Word) ≠ BitVec.allOnes 64 ∧
    Works itemDev 8 ∧ (let t := fetched itemDev 8
      (t.getK 0 2).usable ∧ (t.getK 0 2).has permIo = true ∧ (t.getK 0 2).base ≤ 0x12B00 + 1 ∧ 0x12B00 + 3 ≤ (t.getK 0 2).top ∧
      (t.core 0).str.fence = [] ∧ (t.core 0).items.length < 16 ∧ (t.queue 0).items = 7 :: [8] ∧ (t.queue 0).fenced = false ∧
      (t.queue 0).items ≠ [] ∧ (t.ledger 0x78).canTake 1 = true ∧ [(0 / 16), 4, (0 / 16 + 1) % 4, (0 / 16 + 2) % 4, (0 / 16 + 3) % 4] = (([] : List (Fin 5)) ++ 0 :: [4, 1, 2, 3]).map (fun j : Fin 5 => j.val) ∧ t.getG 0 1 = 9 ∧ (t.core 0).items.find? (fun e => e.2 == 9) = some (0, 9) ∧
      t.domainOn 64 = true ∧ (t.ledger 0x78).st = .opened ∧ (t.ledger 0x78).outstanding.val ≠ 0 ∧ (t.queue 0).pendingCount = 1 ∧
      (t.queue 0).irq.toNat < 0xFFF) := by
  refine ⟨by decide, by decide, by decide, by decide, works (by decide), ⟨by decide, by decide⟩, by decide⟩

def aRecord : Rec := ⟨4, 0x0202, 1, 2, 3, 4⟩

/-- A ring of 128 slots with the record at every slot a shows. -/
def recDev (sev : BitVec 3) (slots : List Nat) (newest : BitVec 32) : State :=
  { dev with recd := { dev.recd with size := 12, noticeSev := 4, noticeMask := 1, newest := newest, queue := [(aRecord, 9)], inFlight := [aRecord],
                                      ring := slots.map fun i => (i, recSlot { aRecord with sev := sev } 5 0) } }

set_option maxRecDepth 8000 in
theorem witness_RecorderKeepsRecords :
    (∀ n ∈ [63, 64], let s := (recDev 4 [] 0xFFFFFFFF)
      let s := { s with recd := { s.recd with queue := List.replicate n (aRecord, 9) } }
      s.recd.inFlight = aRecord :: [] ∧ s.rst.phase ≠ .porHeld ∧ s.recd.queue.length = n ∧ (s.ledger 0x70).canTake 1 = true ∧
      s.recd.noticeSev ≤ aRecord.sev ∧ s.recd.noticeMask.getLsbD 0 = true ∧ s.coreRuns 0 = true) ∧
    -- a record accepted in this tick, and in an earlier one
    (∀ n ∈ [5, 4], let s := { dev with time := 5, recd := { dev.recd with lastAccept := some n } }
      s.recd.lastAccept = some n ∧ decide (s.time ≤ n) = decide (n = 5)) ∧
    (∀ e ∈ [((4 : BitVec 3), ([] : List Nat), (0xFFFFFFFF : BitVec 32), false, (some 0 : Option Nat)), (7, List.range 128, 0xFFFFFFFF, false, none),
        (4, [0], 0, true, some 0)],
      let s := recDev e.1 e.2.1 e.2.2.1
      let s := s.setLedger 0x70 { s.ledger 0x70 with outstanding := pairOf 1 }
      s.recd.queue = (aRecord, 9) :: [] ∧ (s.ledger 0x70).st = .opened ∧ (s.ledger 0x70).outstanding.val ≠ 0 ∧
      s.recd.coalesces aRecord = e.2.2.2.1 ∧ s.recd.findSlot aRecord.sev = e.2.2.2.2) ∧
    (dev.hubRuns = true ∧ dev.recd.size.toNat ≤ 20 ∧ 0 < dev.recd.slots ∧ dev.recd.slots ≤ 0xFFFFFFFF ∧ (dev.core 0).cond ≠ .absent ∧ dev.domainOn 95 = true ∧
      (dev.ledger 0x70).whole = true ∧ (dev.ledger 0x70).wroteOff = false ∧ dev.recd.queue.length ≤ (dev.ledger 0x70).outstanding.val.toNat) := by
  refine ⟨fun n h => ?_, by decide, fun e h => ?_, by decide⟩
  · fin_cases h <;> exact ⟨rfl, by decide⟩
  · fin_cases h <;> exact ⟨rfl, by decide⟩

/-! ### Witnesses: recorder's black box, interrupts, resets, boot -/

def boxDev (f : BlackBox → BlackBox) : State := { dev with box := f dev.box, rowan := { dev.rowan with lock := 1 } }

/-- A box whose other half holds a saved box of sequence number 4. -/
def savedHalf : BoxHalf := ⟨leBytes 4 0x584F4242 ++ leBytes 4 4 ++ List.replicate 248 0, []⟩

set_option maxRecDepth 8000 in
theorem witness_BlackBoxEvents :
    (let s := boxDev fun b => { b with addr := 0x40000, regions := [(4, Vector.replicate 2 savedHalf)] }
     s.rst.phase = .ready ∧ s.rowan.lock.getLsbD 0 = true ∧ s.box.addr ≠ 0xFFFFFFFF ∧ s.box.erasing = false ∧ s.box.readied = false ∧
     s.box.programming = false ∧ s.rst.commit = none) ∧
    (boxDev fun b => { b with erasing := true }).box.erasing = true ∧
    (let s := boxDev fun b => { b with armed := true }; s.rst.phase ≠ .porHeld ∧ s.balls.pwrFail = false ∧ s.box.armed = true) ∧
    (∀ n ∈ [65, 64, 1], let s := boxDev fun b => { b with programming := true, pagesLeft := n, snapTime := 9 }
      s.box.programming = true ∧ s.box.pagesLeft = n ∧ (n = 65 ∨ (1 ≤ n ∧ n < 65)) ∧ s.box.snapTime < 2 ^ 64 ∧ s.box.snapshot.length ≤ 512) := by decide

/-- Messages of core 0's unit 3 on their way. -/
def msgsDev (xs : List DoorMsg) : State := { dev with int := { dev.int with inFlight := xs } }

/-- Sources at core 0: the flags pend, with priority 1 each; core 0 can claim. -/
def intDev (flags : Sparse Bool) : State :=
  let s := devOf fun x => x.setK 2 (capRoot 0)
  { s with int := { s.int with prio := [(5, 1), (7, 1)], blocks := Vector.replicate 65 ⟨flags, [], 0⟩ } }

theorem int_deliverable {flags : Sparse Bool} {m : Nat} (hb : (fetched (intDev flags) 8).targetBlock 0 = ⟨flags, [], 0⟩)
    (h : (fetched (intDev flags) 8).deliverable 0 m = true) : flagGet flags m = true := by
  unfold State.deliverable at h
  rw [hb] at h
  simp only [Bool.and_eq_true] at h
  exact h.1.1

theorem witness_InterruptMessages :
    -- a message with another of its unit to another target before it, to targets that take messages and to a fenced core
    (∀ v ∈ [5, 64 * 4096 + 4094], let m : DoorMsg := ⟨3, BitVec.ofNat 19 v⟩
     let pre : List DoorMsg := [⟨3, 0x1005⟩]
     let s := msgsDev (pre ++ [m])
     s.rst.phase = .ready ∧ s.int.inFlight = pre ++ m :: [] ∧ (∀ y ∈ pre, y.msg ≠ m.msg ∧ (y.unit = m.unit → y.target ≠ m.target)) ∧
     s.takesMessages (v / 4096) = true ∧ (s.setCore 0 { s.core 0 with cond := .fenced }).takesMessages 0 = false) ∧
    -- an earlier message of the same unit to the same target
    (let m : DoorMsg := ⟨3, 5⟩
     let pre : List DoorMsg := [⟨3, 6⟩]
     let s := msgsDev (pre ++ [m])
     s.int.inFlight = pre ++ m :: [] ∧ (∃ y ∈ pre, y.unit = m.unit ∧ y.target = m.target) ∧ m ∉ pre ∧ ∀ y ∈ pre ++ [], y.msg = m.msg → y = m) ∧
    (∀ p ∈ [Phase.porHeld, .quiescing, .sysHeld], ({ dev with rst := { dev.rst with phase := p } } : State).rst.phase = p) ∧
    (dev.hubRuns = true ∧ (intDev [(5, true)]).bestSource 64 = some 5) ∧
    (let s := (intDev []).setTarget 64 ⟨[], [(5, true)], 0⟩; s.hubRuns = true ∧ flagGet (s.targetBlock 64).inService 5 = true) := by decide

set_option maxRecDepth 8000 in
/-- A claim of the lower of two sources of one priority, and one with none. -/
theorem witness_ClaimTakesTheBest : Works (intDev [(5, true), (7, true)]) 8 ∧ Works (intDev []) 8 ∧
    (let t := fetched (intDev [(5, true), (7, true)]) 8
     (t.getK 0 2).usable ∧ ((t.getK 0 2).has permIo = true ∧ (t.getK 0 2).base ≤ 0x12C00 + 1 ∧ 0x12C00 + 2 ≤ (t.getK 0 2).top ∧
     (t.core 0).str.fence = [] ∧ sparseWf (fun _ => false) (t.targetBlock 0).pending = true ∧ t.deliverable 0 5 = true) ∧
     ∀ m, m ≠ 5 → t.deliverable 0 m = true → t.srcPrio m < t.srcPrio 5 ∨ (t.srcPrio m = t.srcPrio 5 ∧ 5 < m)) ∧
    ∀ m, (fetched (intDev []) 8).deliverable 0 m = false := by
  refine ⟨works (by decide), works (by decide), ⟨⟨by decide, by decide⟩, by decide, fun m hm h => ?_⟩, fun m => ?_⟩
  · have h := int_deliverable (by decide) h
    have h7 : m = 7 := by
      by_contra h7
      simp [flagGet, sparseGet, hm, h7] at h
    subst h7
    decide
  · by_contra h
    have := int_deliverable (by decide) (Bool.not_eq_false _ ▸ h)
    simp [flagGet, sparseGet] at this

/-- The device in another phase of its reset. -/
def phaseDev (p : Phase) (g : CoreState → CoreState) : State := let s := devOf g; { s with rst := { s.rst with phase := p } }

set_option maxRecDepth 8000 in
theorem witness_ResetsAndGlitches :
    (dev.rowan.fuse = none ∧ dev.rst.commit = none) ∧
    (∀ p ∈ [Phase.porHeld, .sysHeld], let s := phaseDev p fun x => { x with ownFault := false }
      s.rst.phase = p ∧ (s.core 0).ownFault = false) ∧
    (let s := (phaseDev .sysHeld id).setCore 3 { (phaseDev .sysHeld id).core 3 with ownFault := true }
     s.rst.phase = .sysHeld ∧ (s.core 3).ownFault = true ∧ (s.core 3).cond ≠ .absent ∧
     (∀ a : CoreId, a < 3 → a.val / 16 = 0 → (s.core a).ownFault = false) ∧ vget s.spares 0 none = none ∧ (0xE : BitVec 4).getLsbD 0 = false ∧
     (1 : BitVec 4).getLsbD 0 = true) ∧
    (dev.rst.phase = .ready ∧ dev.hubRuns = true ∧ dev.rst.phase ≠ .porHeld) ∧
    -- every phase in which a request merges, waits or starts the loading again
    (∀ p ∈ [Phase.porHeld, .sysHeld, .quiescing, .loading, .optHold], ({ dev with rst := { dev.rst with phase := p } } : State).rst.phase = p) ∧
    -- a pulse on RST_SYS_N, which is low and which is not
    (∀ low ∈ [true, false], let s := { dev with rst := { dev.rst with rstSysLow := low } }
      (if s.rst.rstSysLow then none else some 1) = if low then none else some 1) ∧
    (∀ low ∈ [true, false], let s := { dev with rst := { dev.rst with rstSysLow := low } }
      s.rst.phase ≠ .porHeld ∧ s.rst.rstSysLow = low) ∧
    (let s := phaseDev .quiescing id
     let s := { s with recd := { s.recd with inFlight := [] } }
     s.rst.phase = .quiescing ∧ s.recd.inFlight = [] ∧ s.recd.queue = [] ∧ (∀ i : Fin 4, s.mgmt.vlan[i] = none) ∧ s.rowan.fuse = none) := by
  decide

theorem witness_CoreResetAndOptions :
    (dev.coreOn 0 = true ∧ dev.hubRuns = true ∧ (dev.core 0).cond = .running) ∧
    -- with an item and a stream; held, fenced, and with its domain off
    (let s := itemDev.setCore 0 (tokened (itemDev.core 0))
     s.coreOn 0 = true ∧ s.hubRuns = true ∧ (s.core 0).cond = .running ∧ (s.core 0).items ≠ [] ∧ (s.eng 0 0).st = .active) ∧
    (∀ x ∈ [CoreCond.held, .fenced], let s := dev.setCore 0 { dev.core 0 with cond := x }
      s.hubRuns = true ∧ (s.core 0).cond = x) ∧
    (let s := { dev with pow := { dev.pow with domains := vset dev.pow.domains 0 ⟨.off, true, false, 0, 0⟩ } }
     s.hubRuns = true ∧ (s.domain 0).phase ≠ .on) ∧
    (let s := dev.setCore 0 { dev.core 0 with cond := .resetting }
     s.coreOn 0 = true ∧ s.hubRuns = true ∧ (s.ledger 0).whole = true ∧ s.rst.phase = .ready ∧ (s.core 0).cond = .resetting ∧ ∀ e : Fin 6, let y := (s.core 0).str.eng[e]
       y.st = .idle ∧ y.queue = [] ∧ y.recs = [] ∧ y.reqs = [] ∧ y.partData = [] ∧ y.partScale = []) ∧
    (∀ hold ∈ [true, false], let s := { dev with rst := { dev.rst with phase := .loading, refclk := true, optHold := hold } }
      s.rst.phase = .loading ∧ s.rst.refclk = true ∧ s.box.programming = false ∧ s.rst.optHold = hold) ∧
    -- without REFCLK, and while the flash is programmed
    (∀ p ∈ [(false, false), (true, true)],
      let s := { dev with rst := { dev.rst with phase := .loading, refclk := p.1 }, box := { dev.box with programming := p.2 } }
      s.rst.phase = .loading ∧ (s.rst.refclk = false ∨ s.box.programming = true)) ∧
    (let s := sessDev aSession
     let s := { s with rst := { s.rst with phase := .optHold } }
     s.rst.phase = .optHold ∧ s.sessionAt false 0 = some aSession ∧ (s.sessionPerms aSession).getLsbD permSyscfg = true) :=
  ⟨by decide, by decide, by decide, by decide, by decide, by decide, by decide, by decide, rfl, by decide⟩

/-! #### An image that passes in BLANK -/

theorem leNat_leBytes (n v : Nat) : leNat (leBytes n v) = v % 256 ^ n := by
  induction n generalizing v with
  | zero => simp [leBytes, leNat, Nat.mod_one]
  | succ n ih =>
    simp only [leBytes, leNat, ih, BitVec.toNat_ofNat]
    have h : v % 256 ^ (n + 1) = v % 256 + 256 * (v / 256 % 256 ^ n) := by rw [Nat.pow_succ', Nat.mod_mul]
    rw [h]

theorem leBytes_length (n v : Nat) : (leBytes n v).length = n := by
  induction n generalizing v with
  | zero => rfl
  | succ n ih => simp [leBytes, ih]

theorem fieldNat_at {p q x : List Byte} {o n : Nat} (hp : p.length = o) (hx : x.length = n) : fieldNat (p ++ (x ++ q)) o n = leNat x := by
  subst hp hx
  simp [fieldNat, sliceBytes]

/-- An image: type, version number 3, body length and digest. -/
def imageOf (typ len : Byte) (d : BitVec 512) (body : List Byte) : FlashImage :=
  ⟨true, [0x49, 0x47, 0x4D, 0x31, 1, 0, typ, 0, 3, 0, 0, 0, len] ++ List.replicate 19 0 ++ (leBytes 64 d.toNat ++ List.replicate 416 0), body⟩

/-- One without a body, that passes. -/
def image (typ : Byte) : FlashImage := imageOf typ 0 (Config.sha512 []) []

/-- A body of 64 bytes. -/
def aBody : List Byte := List.replicate 64 7

/-- One whose digest is not its body's. -/
def badImage (typ : Byte) : FlashImage := imageOf typ 64 (~~~Config.sha512 aBody) aBody

set_option exponentiation.threshold 600 in
theorem digest_of_image (typ len : Byte) (d : BitVec 512) (body : List Byte) : fieldDigest (imageOf typ len d body).header 32 = d := by
  show BitVec.ofNat 512 (fieldNat _ 32 64) = _
  rw [show fieldNat (imageOf typ len d body).header 32 64 = _ from fieldNat_at rfl (leBytes_length _ _), leNat_leBytes]
  have h : d.toNat < 256 ^ 64 := lt_of_lt_of_eq d.isLt (by norm_num)
  rw [Nat.mod_eq_of_lt h, BitVec.ofNat_toNat, BitVec.setWidth_eq]

theorem image_passes {s : State} {k : ImageKind} {typ : Byte} (hl : s.rowan.lifecycle = .blank)
    (hk : headerOk k (istoreEnd s.scfg.ilvActive) (image typ).header = true) (hn : headerLen (image typ).header = 0) :
    s.verifyImage k (image typ) = none := by
  have hd : fieldDigest (image typ).header 32 = Config.sha512 [] := digest_of_image ..
  have hb : sliceBytes (image typ).body 0 0 = [] := rfl
  simp [State.verifyImage, hk, hn, hl, hd, hb, show (image typ).readOk = true from rfl]

theorem badImage_fails {s : State} {k : ImageKind} {typ : Byte} (hl : s.rowan.lifecycle = .blank)
    (hk : headerOk k (istoreEnd s.scfg.ilvActive) (badImage typ).header = true) (hn : headerLen (badImage typ).header = 64) :
    s.verifyImage k (badImage typ) = some 5 := by
  have hd : fieldDigest (badImage typ).header 32 = ~~~Config.sha512 aBody := digest_of_image ..
  have hb : sliceBytes (badImage typ).body 0 64 = aBody := rfl
  have hx : Config.sha512 aBody ≠ ~~~Config.sha512 aBody := fun h => by
    have := congrArg (fun x : BitVec 512 => x.getLsbD 0) h
    simp at this
  simp [State.verifyImage, hk, hn, hl, hd, hb, hx, show (badImage typ).readOk = true from rfl]

def bootDev (stage lc : Nat) : State := { dev with rowan := { dev.rowan with stage := BitVec.ofNat 3 stage, lcBits := BitVec.ofNat 2 lc } }

set_option maxRecDepth 8000 in
set_option exponentiation.threshold 600 in
theorem witness_BootChain :
    ((bootDev 0 0).bootable = true ∧ (bootDev 0 0).rowan.stage = 0 ∧ (bootDev 0 0).verifyImage stage1Image (image 1) = none) ∧
    ((bootDev 1 0).rst.phase = .ready ∧ (bootDev 1 0).rowan.stage = 1 ∧ (bootDev 1 0).verifyImage hubImage (image 2) = none) ∧
    ((bootDev 2 0).rowan.stage = 2 ∧ (bootDev 2 0).rowan.coreReady = false ∧ (bootDev 2 0).verifyImage coreImage (image 3) = none ∧
      ∀ st : StackId, ((bootDev 2 0).stack st).st ≠ .fenced) ∧
    ((bootDev 0 1).bootable = true ∧ (bootDev 0 1).rowan.lcBits = 1 ∧ (bootDev 0 1).rowan.keySlot (image 1).header = none) ∧
    (bootDev 0 0).verifyImage stage1Image (badImage 1) = some 5 ∧
    ((bootDev 7 0).rowan.stage = 7 ∧ (bootDev 7 0).rowan.lastReject = 0 ∧ (bootDev 7 0).verifyImage stage1Image (image 1) = none) ∧
    (let s := { dev with rowan := { dev.rowan with coreReady := true } }
     let s := s.setCore 5 { s.core 5 with cond := .held }
     s.rst.phase = .ready ∧ s.rowan.coreReady = true ∧ s.rowan.stage = 2 ∧ (s.core 5).cond = .held ∧ s.coreOn 5 = true) :=
  ⟨⟨by decide, by decide, image_passes rfl rfl rfl⟩, ⟨by decide, by decide, image_passes rfl rfl rfl⟩, ⟨by decide, by decide, image_passes rfl rfl rfl, by decide⟩,
    by decide, badImage_fails rfl rfl rfl, ⟨by decide, by decide, image_passes rfl rfl rfl⟩, by decide⟩

/-! ### Witnesses: fuses, power, the dictionary access protocol -/

/-- Rowan with other fuses; option word 127 locks debug where asked. -/
def rowanDev (lock : Bool) (f : Rowan → Rowan) : State :=
  { dev with rowan := f dev.rowan, rst := { dev.rst with words := [(127, pairOf (if lock then 1 else 0))] } }

set_option maxRecDepth 8000 in
set_option exponentiation.threshold 600 in
theorem witness_FusesAndAttestation :
    (let s := rowanDev true fun r => { r with lcBits := 1 }
     (s.rowan.lcBits = 1 ∧ (s.optionWord 127).getLsbD 0 = true)) ∧
    (∀ n ∈ [0, 1], let s := rowanDev false fun r => { r with lcBits := BitVec.ofNat 2 n }
      ¬(s.rowan.lcBits = 1 ∧ (s.optionWord 127).getLsbD 0 = true) ∧ s.rowan.lcBits.getLsbD 1 = false ∧ s.rowan.lcBits = BitVec.ofNat 2 n ∧
      s.rowan.keys[(0 : Fin 4)] = 0) ∧
    (let s := rowanDev false fun r => { r with keys := Vector.replicate 4 7 }
     s.rowan.lcBits = 0 ∧ s.rowan.keys[(2 : Fin 4)] ≠ 0 ∧ s.rowan.revoked.getLsbD 2 = false ∧ s.hubRuns = true ∧
     s.rowan.bootKey ≠ some 1 ∧ (2 : Fin 4) ≠ 1) ∧
    -- every slot blank or revoked; the device decommissioned; debug closed with PD95 off
    (∀ r ∈ [(0 : BitVec 512), 7], let s := rowanDev false fun x => { x with keys := Vector.replicate 4 r, revoked := if r = 0 then 0 else 0xF }
     s.rowan.lcBits = 0 ∧ ∀ k : Fin 4, s.rowan.keys[k] = 0 ∨ s.rowan.revoked.getLsbD k.val = true) ∧
    (rowanDev false fun r => { r with lcBits := 3 }).rowan.lcBits.getLsbD 1 = true ∧
    (let s := { dev with pow := { dev.pow with domains := vset dev.pow.domains 95 ⟨.off, false, false, 0, 0⟩ } }
     s.domainOn 95 = false) ∧
    -- debug instructions: locked, and open
    (dev.domainOn 95 = true ∧ (1 : BitVec 8) ≠ 0 ∧ (rowanDev true fun r => { r with lcBits := 1 }).debugLocked = true) ∧
    (∀ op ∈ [0x20, 0x3F], 0x20 ≤ (BitVec.ofNat 8 op).toNat ∧ (BitVec.ofNat 8 op).toNat < 0x40 ∧ dev.domainOn 95 = true ∧ dev.debugLocked = false) ∧
    (let s := rowanDev false fun r => { r with svn := 2, runSvn := Vector.replicate 3 5 }
     s.hubRuns = true ∧ s.rowan.fuse = none ∧ s.rowan.svn < (5 : BitVec 8).toNat ∧ (5 : BitVec 8).toNat ≤ s.rowan.lowestSvn ∧
     (5 : BitVec 8).toNat ≤ 128 ∧ (1 : BitVec 8).toNat < s.rowan.svn ∧ s.rowan.lowestSvn < (6 : BitVec 8).toNat) ∧
    (rowanDev false fun r => { r with fuse := some ⟨2, 5⟩ }).rowan.fuse = some ⟨2, 5⟩ ∧
    ((0 : BitVec 8) ≠ 6 ∧ (0 : BitVec 8) ≠ 7 ∧ dev.hubRuns = true ∧ dev.rowan.lcBits.getLsbD 1 = false ∧ dev.rowan.mgmtWin.qState ≠ 1 ∧
     dev.rowan.signing = none ∧ dev.rowan.quotes = [] ∧ dev.mgmt.hs = none) ∧
    (let s := rowanDev false fun r => { r with signing := some (some 63, [1, 2]) }
     s.rowan.signing = some (some 63, [1, 2]) ∧ s.rowan.quotes = []) := by
  refine ⟨by decide, fun n h => by fin_cases h <;> exact ⟨by decide, by decide, by decide, rfl⟩, ⟨by decide, fun h => ?_, by decide⟩,
    fun r h => ?_, by decide⟩
  · exact absurd (show (7 : BitVec 512) = 0 from h) (by simp)
  · simp only [List.mem_cons, List.not_mem_nil, or_false] at h
    rcases h with rfl | rfl
    · exact ⟨rfl, fun k => .inl (by fin_cases k <;> rfl)⟩
    · exact ⟨rfl, fun k => .inr (by fin_cases k <;> rfl)⟩

/-- Every domain in one phase. -/
def pdDev (p : PdPhase) (want : Bool) : State := { dev with pow := { dev.pow with domains := Vector.replicate 96 ⟨p, want, false, 0, 0⟩ } }

/-- The clock part of core 0's state. -/
def clockDev (f : CorePower → CorePower) : State := devOf fun x => { x with pow := f x.pow }

set_option maxRecDepth 8000 in
theorem witness_PowerDomainsAndClocks :
    (∀ p ∈ [PdPhase.off, .on, .shutting], let s := pdDev p false
      s.hubRuns = true ∧ ∀ d ∈ [(0 : Fin 96), 63, 68, 83, 92], s.lockedOff d.val = false ∧ s.unitLost d.val = false ∧ ¬(84 ≤ d.val ∧ d.val < 92) ∧
        (s.domain d.val).phase = p) ∧
    (∀ d ∈ [(84 : Fin 96), 91], 84 ≤ d.val ∧ d.val < 92) ∧
    -- the domain of a core that is fenced while it is ON
    (let s := dev.setCore 0 { dev.core 0 with cond := .fenced }
     (s.core 0).cond = .fenced ∧ (s.domain 0).phase = .on) ∧
    -- the first waiting domain of a core slot and of a stack slot, all waiting, or the ones before off and lost
    (∀ p ∈ [(0, false), (68, true)], let s := pdDev .waiting true
     p.1 ∈ slotDomains 0 p.2 ∧ (s.domain p.1).phase = .waiting ∧ s.unitLost p.1 = false ∧
     ∀ e ∈ slotDomains 0 p.2, ¬((s.domain e).phase = .ramping ∧ s.time < (s.domain e).ramp + (if p.2 then 2500 else 1200)) ∧
       (e < p.1 → (s.domain e).phase ≠ .waiting ∨ s.unitLost e = true)) ∧
    -- another still ramps; one ramped long enough ago
    (∀ p ∈ [(0, false, 1200), (68, true, 2500)], let s := pdDev .ramping true
     p.1 ∈ slotDomains 0 p.2.1 ∧ (s.domain p.1).phase = .ramping ∧ s.time < (s.domain p.1).ramp + p.2.2 ∧
     ¬{ s with time := p.2.2 }.time < (s.domain p.1).ramp + p.2.2) ∧
    (let s := pdDev .ramping true; (s.domain 0).phase = .ramping ∧ (s.domain 0).want = true ∧ (s.core 0).cond = .running) ∧
    ((itemDev.domain 0).phase = .on ∧ itemDev.unitLost 0 = false ∧ itemDev.hubRuns = true ∧ (itemDev.core 0).items ≠ []) ∧
    (let s := pdDev .shutting false
     (s.domain 0).phase = .shutting ∧ (s.domain 0).want = false ∧ (s.domain 0).locked = false ∧ s.unitLost 0 = false ∧
     ∀ e : Fin 6, let y := (s.core 0).str.eng[e]
       y.st = .idle ∧ y.queue = [] ∧ y.recs = [] ∧ y.reqs = [] ∧ y.partData = [] ∧ y.partScale = []) ∧
    ((pdDev .shutting false).ledger 0).whole = true ∧
    -- a core that runs slower than it may, and frequencies at the ends of the range
    (let s := clockDev fun y => { y with fNow := 0 }
     let x := s.core 0
     let limits := [x.pow.fSet.toNat, s.fFuse 0 - 25 * x.pow.derate.toNat, s.pow.fCap.toNat, x.pow.fTherm.toNat,
       (vget s.pow.dieCeil ((0 : CoreId).val / 16) 2000).toNat]
     x.pow.fNow.toNat < max 400 (limits.foldl min 2000)) ∧
    (∀ v ∈ [400, 2000], (dev.core 0).cond ≠ .absent ∧ 400 ≤ (BitVec.ofNat 16 v).toNat ∧ (BitVec.ofNat 16 v).toNat ≤ 2000 ∧ (BitVec.ofNat 16 v).toNat % 25 = 0) ∧
    (∀ v ∈ [399, 2001, 401], (BitVec.ofNat 16 v).toNat < 400 ∨ 2000 < (BitVec.ofNat 16 v).toNat ∨ (BitVec.ofNat 16 v).toNat % 25 ≠ 0) ∧
    (dev.coreOn 0 = true ∧ (dev.core 0).pow.droop = false ∧ (dev.core 0).pow.derate ≠ 0xFF) := by
  refine ⟨by decide, by decide, by decide, by decide, by decide, by decide, by decide, by decide, by decide,
    lt_of_lt_of_le (by decide) (le_max_left _ _), by decide⟩

/-- A rail's need is at most 850 mV. -/
theorem rail_fits (s : State) (c : CoreId) (f : Nat) : s.railNeed c f < 2 ^ 16 := by
  have step : ∀ (l : List Nat) (a : Nat), a ≤ 850 → (∀ x ∈ l, x ≤ 850) → l.foldl max a ≤ 850 := by
    intro l
    induction l with
    | nil => exact fun a ha _ => ha
    | cons x l ih =>
      intro a ha h
      exact ih _ (max_le ha (h x (by simp))) fun y hy => h y (by simp [hy])
  refine lt_of_le_of_lt (step _ 0 (by omega) fun x hx => ?_) (by norm_num : 850 < 2 ^ 16)
  obtain ⟨a, -, rfl⟩ := List.mem_map.mp hx
  have rail : ∀ d g, Config.railMv d g ≤ 850 := fun d g => by
    have := (Config.railStep d g).isLt
    unfold Config.railMv
    omega
  split
  · exact rail _ _
  · omega

/-- Core 0 runs slower than it may: its frequency, what a voltage read returns where it may rise, and a rise that was given up. -/
theorem witness_FrequencyRises : let s := clockDev fun y => { y with fNow := 0 }
    let x := s.core 0
    let limits := [x.pow.fSet.toNat, s.fFuse 0 - 25 * x.pow.derate.toNat, s.pow.fCap.toNat, x.pow.fTherm.toNat, (vget s.pow.dieCeil 0 2000).toNat]
    let f := max 400 (limits.foldl min 2000)
    let need := s.railNeed 0 f
    x.pow.fNow.toNat < f ∧ x.pow.noRise.toNat ≠ f ∧
    -- a read near the target, and one that is not, 200 µs after it was written
    (need ≤ need + 5 ∧ need ≤ need + 5) ∧ ¬(need + 6 ≤ need + 5 ∧ need ≤ need + 6 + 5) ∧
    (let u := { s with time := 20000, pow := { s.pow with rails := vset s.pow.rails 0 ⟨need, 0, 0⟩ } }
     (u.rail 0).target = need ∧ (BitVec.ofNat 16 need).toNat = need ∧ (u.rail 0).written + 20000 ≤ u.time) ∧
    (let u := clockDev fun y => { y with fNow := 0, noRise := BitVec.ofNat 16 400 }
     (u.core 0).pow.fNow.toNat < 400 ∧ (u.core 0).pow.noRise.toNat = 400) ∧
    -- one that may not rise
    (let u := clockDev fun y => { y with fNow := 2000, fSet := 400 }
     max 400 (min (u.core 0).pow.fSet.toNat 2000) ≤ (u.core 0).pow.fNow.toNat) := by
  refine ⟨lt_of_lt_of_le (by decide) (le_max_left _ _), ?_, by omega, by omega, ⟨rfl, Nat.mod_eq_of_lt (rail_fits _ _ _), by decide⟩, by decide, by decide⟩
  exact fun h => absurd (h.trans_ge (le_max_left _ _)) (by decide)

theorem witness_ThermalAndCapping :
    (∀ temp ∈ [10 * (dev.pow.tThrottle.toNat : Int), 1149], 10 * (dev.pow.tThrottle.toNat : Int) ≤ temp ∧ temp < 1150) ∧
    (let s := clockDev fun y => { y with coolSamples := 9 }
     (0 : Int) < 10 * s.pow.tThrottle.toNat - 30 ∧ (s.core 0).pow.coolSamples = 9) ∧
    ((1150 : Int) ≤ 1150 ∧ dev.balls.thermtrip = false) ∧
    -- the ball driven, and the stop lifted by a system reset
    (let s := { dev with balls := { dev.balls with thermtrip := true } }
     s.balls.thermtrip = true ∧ s.cont.stopped = false) ∧
    -- a mean below the cap for the tenth interval, and an interval above it before
    (let s := { dev with pow := { dev.pow with lowFor := 9, samples := [], cap := pairOf 1000 } }
     let w : BitVec 16 := 0
     100 * ((((w :: s.pow.samples).take 10).map BitVec.toNat).sum / ((w :: s.pow.samples).take 10).length) < 97 * s.pow.cap.val.toNat ∧
     s.pow.lowFor = 9 ∧ s.pow.failHold = false ∧ s.pow.hubHot = false) ∧
    dev.pow.lowFor < 9 ∧
    (dev.pow.cap.val.toNat < (0xFFFF : BitVec 16).toNat ∧ dev.pow.failHold = false ∧ dev.hubRuns = true ∧ (dev.core 0).cond ≠ .absent ∧
     dev.rst.refclk = true ∧ dev.rst.phase = .ready) ∧
    ({ dev with rst := { dev.rst with words := [(138, pairOf 900)] } } : State).wordDamaged 138 = false ∧
    (∀ v ∈ [900, 2600], 900 ≤ (BitVec.ofNat 16 v).toNat ∧ (BitVec.ofNat 16 v).toNat ≤ 2600) ∧
    ({ dev with pow := { dev.pow with failHold := true } } : State).pow.failHold = true ∧
    ({ dev with balls := { dev.balls with pwrFail := true } } : State).balls.pwrFail = true := by decide

/-- A handshake in another stage, of a peer on the management port. -/
def aHs (st : HsStage) : Handshake := ⟨aPeer, st, 0, none, true, [], [], 7, 0⟩

def hsDev (st : HsStage) (t : Nat) : State := { sessDev aSession with mgmt := { (sessDev aSession).mgmt with hs := some (aHs st) }, time := t }

def helloMsg : DapMsg := ⟨1, 1, 1, 298, 0, 0, List.replicate 298 0, none⟩
def confirmMsg : DapMsg := ⟨1, 3, 0, 132, 7, 0, List.replicate 132 0, none⟩

/-- A request of a session, with its tag. -/
def ask (typ : BitVec 4) (seq : Word) (body : List Byte) : DapMsg :=
  let m : DapMsg := ⟨1, typ, 0, BitVec.ofNat 16 body.length, 7, seq, body, none⟩
  { m with tag := some (dapTag aSession.keyIn m) }

/-- READ and WRITE of step, BLOCK_READ of stk_state, CLOSE. -/
def requests : List (DapMsg × Nat) :=
  [(ask 5 5 [0, 0x24, 3, 0, 0, 0, 4, 0], 5), (ask 6 5 [0, 0x24, 3, 0, 0, 0, 4, 0, 9, 0, 0, 0], 6), (ask 7 5 [0, 0x64, 1, 0, 16, 0, 0, 0], 7), (ask 10 5 [], 10)]

/-- A datagram to the port's link-local address, from port 3 of host 2. -/
def viaPort : DapFrom := .onPort (sessDev aSession).mgmt.linkLocal 2 0xDAC0 3

/-- A frame tagged with VLAN 7, to the address of sub-port 0. -/
def tagged : Frame := { aFrame with vid := some 7 }

def viaVlan : DapFrom := .onVlan tagged 0xDAC0 3

/-- A session in slot 0 of the management VLAN, which is VLAN 7; the sub-ports are in VLAN 5. -/
def vlanDev (x : Session) : State :=
  let s := fabDev fun f => { f with subs := vmap f.subs fun k => { k with vid := 5 } }
  { s with mgmt := { s.mgmt with vid := pairOf 7, vlan := vset s.mgmt.vlan 0 (some x) } }

/-- What the frame leaves before its message has its effect. -/
def vlanT : State := ((vlanDev aSession).dapArrive viaVlan).1

theorem on_port {s : State} {m : DapMsg} {typ : Nat} (h : (s.dapArrive viaPort).2 = true) (hm : dapWellFormed m typ = true) :
    Arrives s s viaPort m typ := ⟨Prod.ext rfl h, hm⟩

theorem on_vlan {m : DapMsg} {typ : Nat} (hm : dapWellFormed m typ = true) : Arrives (vlanDev aSession) vlanT viaVlan m typ :=
  ⟨Prod.ext rfl (by decide), hm⟩

theorem in_session {m : DapMsg} (h : m.session = 7 ∧ m.seq = 5 ∧ m.tag = some (dapTag aSession.keyIn m)) :
    InSession (sessDev aSession) false 0 aSession m ∧ InSession vlanT true 0 aSession m := by
  have hf : aSession.lastSeq < m.seq := by rw [h.2.1]; decide
  refine ⟨⟨?_, rfl, h.2.2, hf⟩, ⟨?_, rfl, h.2.2, hf⟩⟩ <;> rw [h.1] <;> decide

/-- The same session by a trust entry that may do nothing. -/
def poorDev : State := sessDev { aSession with trust := some 0 }

set_option maxRecDepth 8000 in
theorem witness_HandshakesAreHeld :
    (Arrives (sessDev aSession) (sessDev aSession) viaPort helloMsg 1 ∧ (sessDev aSession).rowan.lcBits.getLsbD 1 = false ∧
     (sessDev aSession).judgeHello (dapVlan viaPort) helloMsg.body = .ok none ∧ (sessDev aSession).mgmt.hs = none) ∧
    (Arrives (vlanDev aSession) vlanT viaVlan helloMsg 1 ∧ vlanT.mgmt.hs = none) ∧
    ((hsDev .signing 0).mgmt.hs = some (aHs .signing) ∧ (aHs .signing).ahead = 0 ∧ (hsDev .signing 0).rowan.signing = none ∧
     CanSend (hsDev .signing 0) (aHs .signing).peer) ∧
    (Arrives (hsDev (.challenged 5) 100000005) (hsDev (.challenged 5) 100000005) viaPort confirmMsg 3 ∧
     (hsDev (.challenged 5) 100000005).mgmt.hs = some (aHs (.challenged 5)) ∧ (aHs (.challenged 5)).peer.vlan = dapVlan viaPort ∧
     (aHs (.challenged 5)).id = confirmMsg.session ∧ 100000005 ≤ 5 + 100000000 ∧ (hsDev (.challenged 5) 100000005).mgmt.hsWait = []) ∧
    ((hsDev (.checking []) 0).mgmt.hs = some (aHs (.checking [])) ∧ (hsDev (.checking []) 0).rowan.signing = none ∧
     (hsDev (.checking []) 0).rowan.quotes = [] ∧ (hsDev (.checking []) 0).mgmt.hsWait = [] ∧ (hsDev (.checking []) 0).trustHolds none = true ∧
     (hsDev (.checking []) 0).freeSlot (aHs (.checking [])).peer.vlan = some 1 ∧ (hsDev (.checking []) 0).trustHolds (some 0) = false) := by
  refine ⟨⟨on_port (by decide) (by decide), by decide, by rfl, by rfl⟩, ⟨on_vlan (by decide), by decide⟩, ⟨rfl, by decide, by decide, ?_⟩,
    ⟨on_port (by decide) (by decide), rfl, by decide⟩, ⟨rfl, by decide⟩⟩
  exact show (hsDev .signing 0).mgmt.mac ≠ 0 by decide

set_option maxRecDepth 8000 in
theorem witness_DictionaryAccessProtocol :
    (CanSend (sessDev aSession) (dapPeer viaPort) ∧ CanSend vlanT (dapPeer viaVlan)) ∧
    (∀ e ∈ requests, (InSession (sessDev aSession) false 0 aSession e.1 ∧ Arrives (sessDev aSession) (sessDev aSession) viaPort e.1 e.2) ∧
      InSession vlanT true 0 aSession e.1 ∧ Arrives (vlanDev aSession) vlanT viaVlan e.1 e.2) ∧
    (∀ e ∈ requests, e.2 < 7 → Asks e.1 0x2400 3 0 4) ∧ (∀ e ∈ requests, e.2 = 7 → Asks e.1 0x6400 1 16 0) ∧
    (∀ e ∈ requests, e.1.flags.getLsbD 0 = false) ∧ intact (sessDev aSession).train.step = true ∧ (∀ p ∈ (sessDev aSession).criticals, p.2 = true) ∧
    ((sessDev aSession).sessionPerms aSession).getLsbD permSyscfg = true ∧ (poorDev.sessionPerms { aSession with trust := some 0 }).getLsbD permSyscfg = false ∧
    -- a message without a right tag, an older one, one seen before
    (ask 6 5 [0, 0x24, 3, 0, 0, 0, 4, 0, 9, 0, 0, 0]).tag.isSome = true ∧ (sessDev aSession).sessionSlot false 7 = some 0 ∧
    (ask 6 3 []).tag = some (dapTag aSession.keyIn (ask 6 3 [])) ∧ (ask 6 3 []).seq < aSession.lastSeq ∧ (ask 6 4 []).seq = aSession.lastSeq ∧
    ({ aSession with stored := some confirmMsg }).stored = some confirmMsg ∧
    -- a certificate request; an idle session, and one that is not
    Arrives (sessDev aSession) (sessDev aSession) viaPort ⟨1, 11, 0, 4, 0, 0, [0, 0, 0, 0], none⟩ 11 ∧ NeighborKind.echo ≠ NeighborKind.arp ∧
    (sessDev aSession).balls.mgmtTx = true ∧ (sessDev aSession).mgmt.mac ≠ 0 ∧
    aSession.lastAt + (sessDev aSession).mgmt.dapIdle.toNat * 100000000 ≤ 0xFFFF * 100000000 ∧
    dev.time < aSession.lastAt + (sessDev aSession).mgmt.dapIdle.toNat * 100000000 := by
  refine ⟨⟨?_, ?_⟩, fun e he => ?_, fun e he h => ?_, fun e he h => ?_, fun e he => ?_, by decide, by decide, by decide, by decide, rfl, by decide,
    rfl, by decide, by decide, rfl, on_port (by decide) (by decide), by decide⟩
  · exact show (sessDev aSession).mgmt.mac ≠ 0 by decide
  · exact show vlanT.subSends 0 = true ∧ (vlanT.sub 0).paused.getLsbD 7 = false by decide
  · fin_cases he <;> exact ⟨⟨(in_session ⟨rfl, rfl, rfl⟩).1, on_port (by decide) rfl⟩, (in_session ⟨rfl, rfl, rfl⟩).2, on_vlan rfl⟩
  · fin_cases he <;> first | exact ⟨rfl, rfl, rfl, rfl⟩ | exact absurd h (by decide)
  · fin_cases he <;> first | exact ⟨rfl, rfl, rfl, rfl⟩ | exact absurd h (by decide)
  · fin_cases he <;> rfl

/-- Where DAP does not listen: before the port's transmitter works, without a MAC, at another address and port; in an untagged or
a damaged frame, in a frame of another VLAN, with the management VLAN off. -/
theorem witness_OtherDatagrams :
    dev.balls.mgmtTx = false ∧ ({ dev.mgmt with mac := 0 } : Mgmt).mac = 0 ∧ (sessDev aSession).mgmt.owns 5 = false ∧ (80 : BitVec 16) ≠ (sessDev aSession).mgmt.dapPort ∧
    dev.mgmt.vid.val.toNat = 0xFFFF ∧ aFrame.vid.map BitVec.toNat ≠ some (vlanDev aSession).mgmt.vid.val.toNat ∧
    ({ tagged with vid := some 5 }).vid.map BitVec.toNat ≠ some (vlanDev aSession).mgmt.vid.val.toNat ∧
    ({ tagged with fcsOk := false }).fcsOk = false := ⟨by decide, by decide, by decide, by decide, by decide, by decide, by decide, by decide⟩

/-! ### Ill-formed commands, one for each check -/

def longFrame : Frame := { aFrame with len := 65536 }

theorem test_frames_fit : (Instr.reqReceive longFrame (aPkt 1 0)).wellFormed = false ∧ (Instr.pauseFrameReceive longFrame).wellFormed = false ∧
    (Instr.reqReceive aFrame (aPkt 1 0)).wellFormed = true := ⟨rfl, rfl, rfl⟩

/-- A payload of 4,097 bytes is refused in a packet and in a RoCEv2 request. -/
theorem test_payloads_fit (p : Packet) (q : RoceReq) (hp : p.payload.length = 4097) (hq : q.payload.length = 4097) :
    (Instr.reqReceive aFrame p).wellFormed = false ∧ (Instr.roceRequestReceive aFrame q).wellFormed = false := by
  simp [Instr.wellFormed, packetOk, hp, hq]

theorem test_checked_column_fits (c : CoreId) (e : Option ArrayFault) : (Instr.quinceRowCheck c 2048 e).wellFormed = false := rfl

theorem test_scrubbed_word_fits (st : StackId) : (Instr.patrolScrubRead st .istore 2097152 none).wellFormed = false := rfl

theorem test_refreshed_row_fits (st : StackId) (n : Fin 1024) : (Instr.targetedRefresh st n 32768).wellFormed = false := rfl

theorem test_pool_fits : (Instr.fenceWriteoff 0x7D).wellFormed = false := rfl

theorem test_image_fits : (Instr.recover ⟨true, [], []⟩).wellFormed = false ∧
    ∀ h b : List Byte, 0x100000 < b.length + 512 → (Instr.recover ⟨true, h, b⟩).wellFormed = false := by
  refine ⟨rfl, fun h b hb => ?_⟩
  simp [Instr.wellFormed, imageOk]
  omega

theorem test_datagram_fits (m : DapMsg) (h : 65536 ≤ m.body.length) : (Instr.dapRead viaPort m).wellFormed = false := by
  simp [Instr.wellFormed, datagramOk, h]

/-! ### Decoding: words written out field by field from chapters 3 to 9 -/

/-- A word from its fields as (width, value), the highest first. -/
def word (fs : List (Nat × Nat)) : BitVec 64 := BitVec.ofNat 64 (fs.foldl (fun a f => a * 2 ^ f.1 + f.2) 0)

/-- R59's example: add g3, g4, g5. -/
theorem test_decode_example : decodeLanhibin 0 0x000A4181 = some (.add 0 3 4 5) ∧ decodeTableWord 32 0x000A4181 = some (.add 0 3 4 5) := by decide

theorem test_decode_registers :
    decodeLanhibin 7 (word [(5, 0x19), (5, 4), (5, 3), (5, 2), (5, 1), (7, 0x01)]) = some (.sel 7 1 2 3 4) ∧
    decodeLanhibin 0 (word [(5, 0x17), (5, 0), (5, 3), (5, 2), (5, 1), (7, 0x01)]) = some (.rem 0 1 2 3) ∧
    decodeLanhibin 0 (word [(5, 5), (5, 0), (5, 31), (5, 30), (5, 29), (7, 0x09)]) = some (.bfextsr 0 29 30 31) ∧
    decodeLanhibin 0 (word [(12, 0xFFF), (3, 7), (5, 2), (5, 1), (7, 0x11)]) = some (.roli 0 1 2 0xFFF) ∧
    decodeLanhibin 0 (word [(2, 0), (6, 12), (6, 8), (1, 1), (5, 2), (5, 1), (7, 0x15)]) = some (.bfexts 0 1 2 8 12) := by decide

theorem test_decode_transfers :
    decodeLanhibin 0 (word [(12, 0x801), (3, 3), (5, 6), (5, 5), (7, 0x19)]) = some (.bge 0 5 6 0x801) ∧
    decodeLanhibin 0 (word [(20, 0x80001), (5, 1), (7, 0x1B)]) = some (.jal 0 1 0x80001) ∧
    decodeLanhibin 0 (word [(12, 8), (3, 0), (5, 2), (5, 1), (7, 0x13)]) = some (.jalr 0 1 2 8) ∧
    decodeLanhibin 0 (word [(9, 5), (10, 100), (1, 1), (5, 0), (7, 0x1D)]) = some (.loop 0 true 0 100 5) ∧
    decodeLanhibin 0 (word [(9, 1), (6, 9), (5, 2), (5, 0), (7, 0x1F)]) = some (.mtc 0 9 2) := by decide

theorem test_decode_memory :
    decodeLanhibin 0 (word [(13, 0x1FF8), (3, 6), (4, 9), (5, 1), (7, 0x03)]) = some (.ld 0 6 1 9 0x1FF8) ∧
    decodeLanhibin 0 (word [(13, 16), (3, 0), (4, 9), (5, 8), (7, 0x27)]) = some (.sc 0 8 9 16) ∧
    decodeLanhibin 0 (word [(6, 1), (5, 4), (5, 3), (4, 2), (5, 0), (7, 0x21)]) = some (.ioOut 0 2 (.reg 3) 4) ∧
    decodeLanhibin 0 (word [(32, 0x00240003), (11, 2), (4, 2), (5, 0), (5, 1), (7, 0x40)]) = some (.ioIn 0 1 2 (.imm 0x00240003)) ∧
    decodeLanhibin 0 (word [(2, 3), (4, 7), (4, 6), (5, 3), (5, 2), (5, 1), (7, 0x25)]) = some (.rmov 0 3 1 2 3 6 7 none) := by decide

theorem test_decode_capabilities :
    decodeLanhibin 0 (word [(7, 4), (5, 9), (4, 0), (4, 3), (5, 2), (7, 0x2B)]) = some (.knarrow 0 2 3 9) ∧
    decodeLanhibin 0 (word [(7, 0x13), (5, 9), (4, 1), (4, 2), (5, 0), (7, 0x2B)]) = some (.mtsg 0 18 9) ∧
    decodeLanhibin 0 (word [(7, 0x1C), (25, 0x2B)]) = some (.xret 0) := by decide

theorem test_decode_vectors :
    decodeLanhibin 0 (word [(8, 0x41), (1, 0), (5, 3), (3, 2), (2, 1), (3, 4), (2, 3), (1, 1), (1, 0), (3, 5), (4, 6), (4, 7), (5, 8), (5, 9), (5, 10), (5, 11), (7, 0x50)]) =
      some (.vc 0 3 2 1 ⟨0x41, 4, 3, true, false, 5, 6, 7, 8, 9, 10, 11⟩) ∧
    decodeLanhibin 0 (word [(8, 0), (11, 0x503), (3, 0), (2, 0), (2, 0), (3, 0), (8, 0), (5, 1), (5, 2), (5, 3), (5, 4), (7, 0x50)]) =
      some (.mandn 0 ⟨0, 0, 0, false, false, 0, 0, 0, 1, 2, 3, 4⟩) ∧
    decodeLanhibin 0 (word [(16, 0xFFF0), (6, 0), (1, 1), (2, 2), (2, 1), (2, 3), (1, 0), (1, 1), (3, 4), (4, 5), (5, 6), (5, 7), (4, 8), (5, 9), (7, 0x52)]) =
      some (.vsts 0 ⟨0xFFF0, true, 2, 3, false, true, 4, 5, 6, 7, 8, 9⟩ none) ∧
    decodeLanhibin 0 (word [(8, 0x41), (11, 1), (3, 2), (16, 0), (5, 3), (5, 4), (4, 5), (5, 0), (7, 0x59)]) = some (.txOptim 0 ⟨0x41, 2, 3, 4, 5⟩ none) := by
  decide

theorem test_decode_tiles_and_streams :
    decodeLanhibin 0 (word [(3, 0), (1, 0), (5, 9), (1, 0), (1, 0), (1, 1), (5, 4), (5, 4), (10, 512), (10, 512), (11, 0), (4, 0), (7, 0x61)]) =
      some (.qmma 0 9 false false false true 4 4 512 512 0 0) ∧
    decodeLanhibin 0 (word [(4, 0), (16, 0x8000), (5, 1), (5, 2), (12, 0x800), (11, 3), (4, 5), (7, 0x63)]) = some (.tld 0 0x8000 1 2 0x800 3 5) ∧
    decodeLanhibin 0 (word [(3, 4), (24, 0), (2, 3), (9, 0), (5, 9), (8, 0), (3, 5), (3, 0), (7, 0x68)]) = some (.sstat 0 9 5 3) := by decide

/-- R57, R59: opcode 0, unassigned opcodes and function codes, and reserved fields that are not 0 spell nothing. -/
theorem test_decode_refuses : ([word [(32, 0)], word [(25, 0), (7, 0x05)], word [(5, 0x1A), (20, 0), (7, 0x01)], word [(5, 0), (5, 1), (15, 0), (7, 0x01)],
    word [(2, 2), (23, 0), (7, 0x15)], word [(12, 0), (3, 6), (10, 0), (7, 0x19)], word [(9, 4), (16, 0), (7, 0x1F)], word [(11, 1), (53, 0x51)] <<< 31,
    word [(7, 0x19), (18, 0), (7, 0x2B)], word [(3, 5), (54, 0), (7, 0x68)], word [(57, 0), (7, 0x67)]] : List (BitVec 64)).all
      (fun w => (decodeLanhibin 0 w).isNone) = true := by decide

/-! ### Worked examples of the spec -/

theorem test_reset_queue_empty : State.reset.pending = [] := by decide

/-- Chapter 3: bfext, bfexts and bfins. -/
theorem test_bit_fields : fieldU 0xABCDEF 8 12 = 0xBCD ∧ fieldS 0xABCDEF 8 12 = 0xFFFFFFFFFFFFFBCD ∧ fieldIns 0 0xFF 60 8 = 0xF000000000000000 := by decide

/-- Chapter 4: exact bounds of a 6 MiB buffer. -/
theorem test_narrow_exact : ((capRoot 0x100000000).narrow 0x600000 true).map (fun k => (k.exp, k.bm, k.lm, k.base, k.top, k.cursor)) =
    some (6, 0, 0x18000, 0x100000000, 0x100600000, 0x100000000) := by decide

/-- Chapter 10: one address under both maps. -/
theorem test_address_maps : map16 0x001234567000 = (0, 0x123456000) ∧ map15 3 0x001234567000 = (11, 0x136B06000) ∧
    bankRow 0x123456000 = (0x1B4, 2330) ∧ bankRow 0x136B06000 = (0x3BB, 2485) := by decide

/-- Chapter 2: 3.0, 0.01 and -0.0004 in an FP8-E4M3 block of scale 2^-7. -/
theorem test_block_elements : ([(0x40400000, 0x7C, 0), (0x3C23D70A, 0x3A, 1), (0xB9D1B717, 0x95, 1)] : List (Nat × Nat × BitVec 6)).all (fun e =>
    encodeElem .e4m3 ((decodeFloat .fp32 e.1).scaled 7) .rne ⟨false, false⟩ false 0 == e.2) = true := by decide

/-- Chapter 14: of sources 200 (priority 3) and 1,500 (priority 8), the claim takes 1,500. -/
theorem test_claim_takes_priority :
    (let s := { dev with int := { dev.int with prio := [(200, 3), (1500, 8)], blocks := Vector.replicate 65 ⟨[(200, true), (1500, true)], [], 0⟩ } }
     s.bestSource 9 = some 1500) := by decide

end Sys2Proof.Tests
end

section
/-!
PROOF. R60: what the integer operations give, each written as its rule says it.
-/
namespace Sys2Proof.Machine

/-! ### Operand forms -/

theorem shamt_eq_mod (b : Word) : shamt b = b.toNat % 64 := by simp [shamt]

theorem posOf_eq_mod (b : Word) : posOf b = b.toNat % 64 := by simp [posOf]

theorem lenOf_eq_mod (b : Word) : lenOf b = b.toNat / 256 % 64 := by simp [lenOf, Nat.shiftRight_eq_div_pow]

theorem sext_eq_ofInt {w : Nat} (v : BitVec w) : sext v = BitVec.ofInt 64 v.toInt := rfl

/-! ### Sums, comparisons, minimum and maximum -/

theorem toNat_sub_add (a b : Word) : ((a - b).toNat + b.toNat) % 2 ^ 64 = a.toNat := by
  rw [← BitVec.toNat_add, BitVec.sub_add_cancel]

theorem bitWord_decide (p : Prop) [Decidable p] : bitWord (decide p) = if p then 1 else 0 := by
  simp [bitWord]

theorem toInt_min_word (a b : Word) : (if a.slt b then a else b).toInt = min a.toInt b.toInt := by
  rw [apply_ite BitVec.toInt]
  simp only [BitVec.slt_iff_toInt_lt]
  split <;> omega

theorem toInt_max_word (a b : Word) : (if a.slt b then b else a).toInt = max a.toInt b.toInt := by
  rw [apply_ite BitVec.toInt]
  simp only [BitVec.slt_iff_toInt_lt]
  split <;> omega

theorem toNat_min_word (a b : Word) : (if a.ult b then a else b).toNat = min a.toNat b.toNat := by
  rw [apply_ite BitVec.toNat]
  simp only [BitVec.ult_iff_lt, BitVec.lt_def]
  split <;> omega

theorem toNat_max_word (a b : Word) : (if a.ult b then b else a).toNat = max a.toNat b.toNat := by
  rw [apply_ite BitVec.toNat]
  simp only [BitVec.ult_iff_lt, BitVec.lt_def]
  split <;> omega

/-! ### Shifts and rotations -/

theorem toNat_shl_word (a : Word) (n : Nat) : (a <<< n).toNat = a.toNat * 2 ^ n % 2 ^ 64 := by
  rw [BitVec.toNat_shiftLeft, Nat.shiftLeft_eq]

theorem toNat_shr_word (a : Word) (n : Nat) : (a >>> n).toNat = a.toNat / 2 ^ n := by
  rw [BitVec.toNat_ushiftRight, Nat.shiftRight_eq_div_pow]

theorem toInt_sar_word (a : Word) (n : Nat) : (a.sshiftRight n).toInt = a.toInt / 2 ^ n := by
  rw [BitVec.toInt_sshiftRight, Int.shiftRight_eq_div_pow]
  push_cast
  rfl

/-- Bit j goes n places up, past bit 63 to the low end. -/
theorem getLsbD_rotateLeft_word (a : Word) {n j : Nat} (hn : n < 64) (hj : j < 64) :
    (a.rotateLeft n).getLsbD ((j + n) % 64) = a.getLsbD j := by
  rw [BitVec.getLsbD_rotateLeft, Nat.mod_eq_of_lt hn]
  by_cases hwrap : j + n < 64
  · have hge : ¬ j + n < n := by omega
    simp [Nat.mod_eq_of_lt hwrap, hge, hwrap]
  · have hlow : (j + n) % 64 = j + n - 64 := by omega
    have hlt : j + n - 64 < n := by omega
    have hsrc : 64 - n + (j + n - 64) = j := by omega
    simp [hlow, hlt, hsrc]

/-- Bit j comes from n places up, past bit 63 from the low end. -/
theorem getLsbD_rotateRight_word (a : Word) {n j : Nat} (hn : n < 64) (hj : j < 64) :
    (a.rotateRight n).getLsbD j = a.getLsbD ((j + n) % 64) := by
  rw [BitVec.getLsbD_rotateRight, Nat.mod_eq_of_lt hn]
  by_cases hwrap : j < 64 - n
  · have hlow : (j + n) % 64 = n + j := by omega
    simp [hwrap, hlow]
  · have hlow : (j + n) % 64 = j - (64 - n) := by omega
    simp [hwrap, hj, hlow]

/-! ### Shifts and rotations by a register (R60) -/

theorem shamt_lt (b : Word) : shamt b < 64 := BitVec.isLt _

theorem toNat_sll (a b : Word) : (a <<< shamt b).toNat = a.toNat * 2 ^ (b.toNat % 64) % 2 ^ 64 := by
  rw [toNat_shl_word, shamt_eq_mod]

theorem toNat_srl (a b : Word) : (a >>> shamt b).toNat = a.toNat / 2 ^ (b.toNat % 64) := by
  rw [toNat_shr_word, shamt_eq_mod]

theorem toInt_sra (a b : Word) : (a.sshiftRight (shamt b)).toInt = a.toInt / 2 ^ (b.toNat % 64) := by
  rw [toInt_sar_word, shamt_eq_mod]

theorem getLsbD_rol (a b : Word) {j : Nat} (hj : j < 64) :
    (a.rotateLeft (shamt b)).getLsbD ((j + b.toNat % 64) % 64) = a.getLsbD j := by
  rw [← shamt_eq_mod, getLsbD_rotateLeft_word a (shamt_lt b) hj]

theorem getLsbD_ror (a b : Word) {j : Nat} (hj : j < 64) :
    (a.rotateRight (shamt b)).getLsbD j = a.getLsbD ((j + b.toNat % 64) % 64) := by
  rw [← shamt_eq_mod, getLsbD_rotateRight_word a (shamt_lt b) hj]

/-! ### High halves of products -/

theorem toInt_highWord {p : Int} (hlo : -2 ^ 127 ≤ p) (hhi : p < 2 ^ 127) : (highWord p).toInt = p / 2 ^ 64 := by
  apply BitVec.toInt_ofInt_eq_self (by decide) <;> omega

theorem toInt_highWord_signed (a b : Word) : (highWord (a.toInt * b.toInt)).toInt = a.toInt * b.toInt / 2 ^ 64 := by
  have hlo := BitVec.le_toInt_mul_toInt (x := a) (y := b)
  have hhi := BitVec.toInt_mul_toInt_le (x := a) (y := b)
  exact toInt_highWord (by omega) (by omega)

theorem toInt_highWord_mixed (a b : Word) :
    (highWord (a.toInt * (b.toNat : Int))).toInt = a.toInt * (b.toNat : Int) / 2 ^ 64 := by
  have hlo : -2 ^ 63 ≤ a.toInt := BitVec.le_toInt a
  have hhi : a.toInt < 2 ^ 63 := BitVec.toInt_lt
  have hb : (b.toNat : Int) < 2 ^ 64 := by exact_mod_cast b.isLt
  have hb0 : (0 : Int) ≤ b.toNat := Int.natCast_nonneg _
  apply toInt_highWord <;> nlinarith

theorem toNat_highWord_unsigned (a b : Word) :
    (highWord ((a.toNat : Int) * (b.toNat : Int))).toNat = a.toNat * b.toNat / 2 ^ 64 := by
  have hlt : a.toNat * b.toNat < 2 ^ 64 * 2 ^ 64 := Nat.mul_lt_mul'' a.isLt b.isLt
  have hq : ((a.toNat : Int) * (b.toNat : Int)) / 2 ^ 64 = ((a.toNat * b.toNat / 2 ^ 64 : Nat) : Int) := by push_cast; rfl
  rw [highWord, hq, BitVec.ofInt_natCast, BitVec.toNat_ofNat]
  exact Nat.mod_eq_of_lt (by omega)

/-! ### Quotients and remainders (R61) -/

theorem divS_of_ne_zero (a : Word) {b : Word} (hb : b ≠ 0) : divS a b = a.sdiv b := by
  apply BitVec.eq_of_toInt_eq
  rw [divS, if_neg hb, BitVec.toInt_ofInt, BitVec.toInt_sdiv]

/-- The corners of R61: a zero divisor, and the one quotient that does not fit. -/
theorem divS_value (a b : Word) :
    if b = 0 then divS a b = BitVec.allOnes 64
    else if a = BitVec.intMin 64 ∧ b.toInt = -1 then divS a b = BitVec.intMin 64
    else (divS a b).toInt = a.toInt.tdiv b.toInt := by
  split
  next hb => simp [divS, hb]
  next hb =>
    have hm1 : b.toInt = -1 ↔ b = -1#64 := by rw [← BitVec.toInt_inj]; rfl
    rw [divS_of_ne_zero a hb]
    split
    next hover =>
      obtain ⟨rfl, hb1⟩ := hover
      rw [hm1.mp hb1, BitVec.intMin_sdiv_neg_one]
    next hfits =>
      rw [hm1, not_and_or] at hfits
      exact BitVec.toInt_sdiv_of_ne_or_ne a b hfits

theorem divU_value (a b : Word) :
    if b = 0 then divU a b = BitVec.allOnes 64 else (divU a b).toNat = a.toNat / b.toNat := by
  split
  next hb => simp [divU, hb]
  next hb =>
    rw [divU, if_neg hb, BitVec.toNat_ofNat]
    exact Nat.mod_eq_of_lt (Nat.lt_of_le_of_lt (Nat.div_le_self _ _) a.isLt)

theorem remS_value (a b : Word) : if b = 0 then remS a b = a else (remS a b).toInt = a.toInt.tmod b.toInt := by
  split
  next hb => simp [remS, hb]
  next hb => rw [remS, if_neg hb, ← BitVec.toInt_srem, BitVec.ofInt_toInt]

theorem remU_value (a b : Word) : if b = 0 then remU a b = a else (remU a b).toNat = a.toNat % b.toNat := by
  split
  next hb => simp [remU, hb]
  next hb =>
    rw [remU, if_neg hb, BitVec.toNat_ofNat]
    exact Nat.mod_eq_of_lt (Nat.lt_of_le_of_lt (Nat.mod_le _ _) a.isLt)

/-! ### Immediates of 32 bits -/

theorem toNat_lih (w : BitVec 32) (a : Word) : (w ++ a.setWidth 32).toNat = w.toNat * 2 ^ 32 + a.toNat % 2 ^ 32 := by
  rw [BitVec.toNat_append, ← Nat.shiftLeft_add_eq_or_of_lt (BitVec.isLt _), Nat.shiftLeft_eq, BitVec.toNat_setWidth]

end Sys2Proof.Machine
end

section
/-!
PROOF. R62 and R63: bit fields bit by bit, counts of zeros, and the bytes of bperm.
-/
namespace Sys2Proof.Machine

/-! ### Bit fields (R62) -/

theorem getLsbD_onesBelow (n j : Nat) : (onesBelow n).getLsbD j = (decide (j < 64) && decide (j < n)) := by
  rw [onesBelow, BitVec.getLsbD_ofNat, Nat.testBit_two_pow_sub_one]

theorem getLsbD_fieldU (a : Word) (p n : Nat) {j : Nat} (hj : j < 64) : (fieldU a p n).getLsbD j = fieldBit a p n j false := by
  rw [fieldU, BitVec.getLsbD_and, BitVec.getLsbD_ushiftRight, getLsbD_onesBelow, fieldBit]
  by_cases hn : n = 0
  · simp [hn]
  by_cases hjn : j < n
  · by_cases hin : p + j < 64
    · simp [hn, hj, hjn, hin]
    · simp [hn, hjn, hin, BitVec.getLsbD_of_ge a (p + j) (by omega)]
  · simp [hn, hjn]

/-- Bits of a right shift that copies bit 63. -/
theorem getLsbD_sshiftRight_word (a : Word) (p j : Nat) (hj : j < 64) :
    (a.sshiftRight p).getLsbD j = if p + j < 64 then a.getLsbD (p + j) else a.getLsbD 63 := by
  rw [BitVec.getLsbD_sshiftRight, BitVec.msb_eq_getLsbD_last]
  simp [Nat.not_le.mpr hj]

theorem getLsbD_fieldS (a : Word) (p : Nat) {n j : Nat} (hn64 : n < 64) (hj : j < 64) :
    (fieldS a p n).getLsbD j = fieldBit a p n j true := by
  by_cases hn : n = 0
  · simp [fieldS, fieldBit, hn]
  have hup (i : Nat) (hi : i < 64) (hlow : 64 - n ≤ i) :
      (a.sshiftRight p <<< (64 - n)).getLsbD i = (a.sshiftRight p).getLsbD (i - (64 - n)) := by
    rw [BitVec.getLsbD_shiftLeft]
    simp [hi, Nat.not_lt.mpr hlow]
  rw [fieldS, if_neg hn, getLsbD_sshiftRight_word _ _ _ hj, fieldBit, if_neg hn]
  by_cases hjn : j < n
  · have hsrc : 64 - n + j - (64 - n) = j := by omega
    rw [if_pos (by omega), hup _ (by omega) (by omega), hsrc, getLsbD_sshiftRight_word _ _ _ hj, if_pos hjn, Bool.true_and]
  · have hsrc : p + (63 - (64 - n)) = p + n - 1 := by omega
    rw [if_neg (by omega), hup _ (by omega) (by omega), getLsbD_sshiftRight_word _ _ _ (by omega), hsrc, if_neg hjn, Bool.true_and]

theorem getLsbD_fieldIns (a b : Word) (p n : Nat) {j : Nat} (hj : j < 64) :
    (fieldIns a b p n).getLsbD j = if p ≤ j ∧ j < p + n then b.getLsbD (j - p) else a.getLsbD j := by
  have hmask : (onesBelow n <<< p).getLsbD j = decide (p ≤ j ∧ j < p + n) := by
    rw [BitVec.getLsbD_shiftLeft, getLsbD_onesBelow]
    grind
  simp only [fieldIns, BitVec.getLsbD_or, BitVec.getLsbD_and, BitVec.getLsbD_not, hmask, BitVec.getLsbD_shiftLeft, hj]
  by_cases hin : p ≤ j ∧ j < p + n
  · simp [hin]
  · simp [hin]

/-! ### Bit fields whose position and length stand in a register (R62) -/

theorem getLsbD_bfextr (a b : Word) {j : Nat} (hj : j < 64) : (fieldU a (posOf b) (lenOf b)).getLsbD j =
    fieldBit a (b.toNat % 64) (b.toNat / 256 % 64) j false := by
  rw [getLsbD_fieldU _ _ _ hj, posOf_eq_mod, lenOf_eq_mod]

theorem getLsbD_bfextsr (a b : Word) {j : Nat} (hj : j < 64) : (fieldS a (posOf b) (lenOf b)).getLsbD j =
    fieldBit a (b.toNat % 64) (b.toNat / 256 % 64) j true := by
  rw [getLsbD_fieldS _ _ (BitVec.isLt _) hj, posOf_eq_mod, lenOf_eq_mod]

theorem getLsbD_bfinsr (d a b : Word) {j : Nat} (hj : j < 64) : (fieldIns d a (posOf b) (lenOf b)).getLsbD j =
    if b.toNat % 64 ≤ j ∧ j < b.toNat % 64 + b.toNat / 256 % 64 then a.getLsbD (j - b.toNat % 64) else d.getLsbD j := by
  rw [getLsbD_fieldIns _ _ _ _ hj, posOf_eq_mod, lenOf_eq_mod]

/-! ### Counts of zeros (R63) -/

/-- A count of zeros reads back from the word that holds it. -/
theorem toNat_w64_of_le {n : Nat} (h : n ≤ 64) : (w64 n).toNat = n := by
  rw [w64, BitVec.toNat_ofNat]
  exact Nat.mod_eq_of_lt (by omega)

theorem leadingZeros_le (a : Word) (n : Nat) : leadingZeros a n ≤ n := by
  induction n with
  | zero => simp [leadingZeros]
  | succ n ih => rw [leadingZeros]; split <;> omega

theorem leadingZeros_clear (a : Word) (n j : Nat) (h : j < leadingZeros a n) : a.getLsbD (n - 1 - j) = false := by
  induction n generalizing j with
  | zero => simp [leadingZeros] at h
  | succ n ih =>
    rw [leadingZeros] at h
    split at h
    next => omega
    next hbit =>
      cases j with
      | zero => simpa using hbit
      | succ j => rw [show n + 1 - 1 - (j + 1) = n - 1 - j by omega]; exact ih j (by omega)

theorem leadingZeros_stops (a : Word) (n : Nat) (h : leadingZeros a n < n) : a.getLsbD (n - 1 - leadingZeros a n) = true := by
  induction n with
  | zero => omega
  | succ n ih =>
    rw [leadingZeros] at h ⊢
    split at h
    next hbit => simp [hbit]
    next hbit =>
      rw [if_neg hbit, show n + 1 - 1 - (leadingZeros a n + 1) = n - 1 - leadingZeros a n by omega]
      exact ih (by omega)

theorem trailingZeros_le (a : Word) (n i : Nat) : trailingZeros a n i ≤ n := by
  induction n generalizing i with
  | zero => simp [trailingZeros]
  | succ n ih => have := ih (i + 1); rw [trailingZeros]; split <;> omega

theorem trailingZeros_clear (a : Word) (n i j : Nat) (h : j < trailingZeros a n i) : a.getLsbD (i + j) = false := by
  induction n generalizing i j with
  | zero => simp [trailingZeros] at h
  | succ n ih =>
    rw [trailingZeros] at h
    split at h
    next => omega
    next hbit =>
      cases j with
      | zero => simpa using hbit
      | succ j => rw [show i + (j + 1) = i + 1 + j by omega]; exact ih (i + 1) j (by omega)

theorem trailingZeros_stops (a : Word) (n i : Nat) (h : trailingZeros a n i < n) :
    a.getLsbD (i + trailingZeros a n i) = true := by
  induction n generalizing i with
  | zero => omega
  | succ n ih =>
    rw [trailingZeros] at h ⊢
    split at h
    next hbit => simp [hbit]
    next hbit =>
      rw [if_neg hbit, show i + (trailingZeros a n (i + 1) + 1) = i + 1 + trailingZeros a n (i + 1) by omega]
      exact ih (i + 1) (by omega)

theorem clz_value (a : Word) : let v := w64 (leadingZeros a 64)
    v.toNat ≤ 64 ∧ (∀ j < v.toNat, a.getLsbD (63 - j) = false) ∧ (v.toNat < 64 → a.getLsbD (63 - v.toNat) = true) := by
  intro v
  rw [show v.toNat = leadingZeros a 64 from toNat_w64_of_le (leadingZeros_le a 64)]
  exact ⟨leadingZeros_le a 64, leadingZeros_clear a 64, leadingZeros_stops a 64⟩

theorem ctz_value (a : Word) : let v := w64 (trailingZeros a 64 0)
    v.toNat ≤ 64 ∧ (∀ j < v.toNat, a.getLsbD j = false) ∧ (v.toNat < 64 → a.getLsbD v.toNat = true) := by
  intro v
  rw [show v.toNat = trailingZeros a 64 0 from toNat_w64_of_le (trailingZeros_le a 64 0)]
  refine ⟨trailingZeros_le a 64 0, fun j hj => ?_, fun hlt => ?_⟩
  · simpa using trailingZeros_clear a 64 0 j hj
  · simpa using trailingZeros_stops a 64 0 hlt

/-! ### Bytes (R63) -/

theorem leNat_byte (bs : List Byte) (j : Nat) (h : j < bs.length) : leNat bs / 2 ^ (8 * j) % 2 ^ 8 = bs[j].toNat := by
  induction bs generalizing j with
  | nil => simp at h
  | cons b bs ih =>
    have hb := b.isLt
    cases j with
    | zero => simp only [leNat, List.getElem_cons_zero]; omega
    | succ j =>
      have hhead : leNat (b :: bs) / 2 ^ 8 = leNat bs := by rw [leNat]; omega
      rw [show 8 * (j + 1) = 8 + 8 * j by omega, Nat.pow_add, ← Nat.div_div_eq_div_mul, hhead, List.getElem_cons_succ]
      exact ih j _

/-- Byte j of a word put together from bytes. -/
theorem extractLsb'_w64_leNat (bs : List Byte) (j : Nat) (h : j < bs.length) (h8 : j < 8) :
    (w64 (leNat bs)).extractLsb' (8 * j) 8 = bs[j] := by
  apply BitVec.eq_of_toNat_eq
  rw [← leNat_byte bs j h, BitVec.extractLsb'_toNat, w64, BitVec.toNat_ofNat, Nat.shiftRight_eq_div_pow]
  have hsplit : 2 ^ 64 = 2 ^ (8 * j) * 2 ^ (64 - 8 * j) := by rw [← Nat.pow_add]; congr 1; omega
  have hdvd : 2 ^ 8 ∣ 2 ^ (64 - 8 * j) := Nat.pow_dvd_pow 2 (by omega)
  rw [hsplit, Nat.mod_mul_right_div_self, Nat.mod_mod_of_dvd _ hdvd]

/-- Byte q of {hi, lo}. -/
theorem byte_append (lo hi : Word) (q : Nat) :
    ((hi ++ lo : BitVec 128) >>> (8 * q)).setWidth 8 =
      if q < 8 then lo.extractLsb' (8 * q) 8 else hi.extractLsb' (8 * (q - 8)) 8 := by
  apply BitVec.eq_of_getLsbD_eq
  intro i hi8
  rw [BitVec.getLsbD_setWidth, BitVec.getLsbD_ushiftRight, BitVec.getLsbD_append]
  by_cases hq : q < 8
  · rw [if_pos hq, if_pos (by omega), BitVec.getLsbD_extractLsb']
  · rw [if_neg hq, if_neg (by omega), BitVec.getLsbD_extractLsb', show 8 * q + i - 64 = 8 * (q - 8) + i by omega]

theorem extractLsb'_permBytes (lo hi k : Word) (j : Nat) (hj : j < 8) :
    (permBytes lo hi k).extractLsb' (8 * j) 8 = permByte lo hi (k.extractLsb' (8 * j) 8) := by
  rw [permBytes, extractLsb'_w64_leNat _ j (by simpa using hj) hj]
  simp

theorem bperm_value (lo hi k : Word) : ∀ j < 8, let q := (k.extractLsb' (8 * j) 4).toNat
    (permBytes lo hi k).extractLsb' (8 * j) 8 = if k.getLsbD (8 * j + 7) then 0
      else if q < 8 then lo.extractLsb' (8 * q) 8 else hi.extractLsb' (8 * (q - 8)) 8 := by
  intro j hj q
  have hsel : ((k.extractLsb' (8 * j) 8).extractLsb' 0 4).toNat = q := by
    refine congrArg BitVec.toNat (BitVec.eq_of_getLsbD_eq fun i hi => ?_)
    simp [hi, show i < 8 by omega]
  rw [extractLsb'_permBytes lo hi k j hj, permByte, hsel, byte_append, BitVec.getLsbD_extractLsb']
  simp

end Sys2Proof.Machine
end

section
/-!
PROOF. O8: every row of the table of integer, bit-field and byte instructions writes its value and steps over itself.
-/
namespace Sys2Proof.Machine

/-- What O8 says of one row of the table: the instruction, its length, and what its value is. -/
def AluRowHolds (s t : State) (c : CoreId) (rd : GReg) (e : Instr × Nat × (Word → Prop)) : Prop :=
  Issues s c e.2.1 t → Plain t c →
    ∃ v : Word, e.2.2 v ∧ exec e.1 s = .next (t.setCore c (((t.core c).setG rd v).advanced e.2.1))

section
variable {s t : State} {c : CoreId} {rd : GReg} {P : Word → Prop} {i : Instr}

/-- An instruction whose body, on the state after the fetch, writes rd with a value as the rule has it. -/
theorem aluRowHolds_of_issue {len : Nat} {body : State → Effect} {v : Word} (hx : exec i s = s.issue c len body)
    (hb : body t = t.doneG c rd v) (hv : P v) : AluRowHolds s t c rd (i, len, P) := by
  intro hi hp
  refine ⟨v, hv, ?_⟩
  rw [hx, issue_of_issues hi, hb, finish_doneG hp]

theorem aluRowHolds_of_intRR {a b : GReg} (f : Word → Word → Word) (hx : exec i s = intRR c rd a b f s)
    (hv : P (f (t.getG c a) (t.getG c b))) : AluRowHolds s t c rd (i, 4, P) :=
  aluRowHolds_of_issue hx rfl hv

theorem aluRowHolds_of_intRI {a : GReg} {m : BitVec 12} (f : Word → Word → Word) (hx : exec i s = intRI c rd a m f s)
    (hv : P (f (t.getG c a) (sext m))) : AluRowHolds s t c rd (i, 4, P) :=
  aluRowHolds_of_issue hx rfl hv

theorem aluRowHolds_of_intR {a : GReg} (f : Word → Word) (hx : exec i s = intR c rd a f s)
    (hv : P (f (t.getG c a))) : AluRowHolds s t c rd (i, 4, P) :=
  aluRowHolds_of_issue hx rfl hv

/-- A shift whose reserved field is 0 shifts by imm12[5:0] (R57, R60). -/
theorem aluRowHolds_of_intShift {a : GReg} {sh : BitVec 6} (f : Word → Nat → Word)
    (hx : exec i s = intShift c rd a (sh.setWidth 12) f s) (hv : P (f (t.getG c a) sh.toNat)) :
    AluRowHolds s t c rd (i, 4, P) := by
  have hres : (sh.setWidth 12).extractLsb' 6 6 = 0 := by
    apply BitVec.eq_of_getLsbD_eq
    intro j hj
    simp
  have hamt : (sh.setWidth 12).extractLsb' 0 6 = sh := by
    apply BitVec.eq_of_getLsbD_eq
    intro j hj
    simp [hj, show j < 12 by omega]
  refine aluRowHolds_of_issue hx ?_ hv
  rw [if_neg (not_not.mpr hres), hamt]

end

/-- A shift whose reserved field is not 0 is ILLEGAL (R57, R60). -/
theorem intShift_reserved {s t : State} {c : CoreId} (rd a : GReg) {m : BitVec 12} (f : Word → Nat → Word)
    (hi : Issues s c 4 t) (hm : m.extractLsb' 6 6 ≠ 0) :
    intShift c rd a m f s = .next (t.takeCause c (cILLEGAL (t.pc c)) (t.pc c)) := by
  rw [intShift, issue_of_issues hi, if_pos hm, finish_trap 4 _ rfl]

/-- R60 to R63 row by row: the operation the model runs, and the lemma that says its value is the rule's. -/
theorem aluRowHolds_of_mem_aluTable (c : CoreId) (rd a b k : GReg) (m : BitVec 12) (sh p n : BitVec 6) (w : BitVec 32)
    (s t : State) : ∀ e ∈ aluTable (t.getG c) c rd a b k m sh p n w, AluRowHolds s t c rd e := by
  simp only [aluTable, List.forall_mem_cons, List.not_mem_nil, false_imp_iff, implies_true, and_true]
  refine ⟨?add, ?sub, ?and, ?or, ?xor, ?andn, ?sll, ?srl, ?sra, ?rol, ?ror, ?slt, ?sltu, ?min, ?max, ?minu, ?maxu,
    ?mul, ?mulh, ?mulhu, ?mulhsu, ?div, ?divu, ?rem, ?remu, ?sel, ?addi, ?andi, ?ori, ?xori, ?slli, ?srli, ?srai, ?roli,
    ?clz, ?ctz, ?bperm, ?bfext, ?bfexts, ?bfins, ?bfextr, ?bfextsr, ?bfinsr, ?li, ?lih⟩
  case add => exact aluRowHolds_of_intRR (fun x y => x + y) rfl (BitVec.toNat_add _ _)
  case sub => exact aluRowHolds_of_intRR (fun x y => x - y) rfl (toNat_sub_add _ _)
  case and => exact aluRowHolds_of_intRR (fun x y => x &&& y) rfl fun _ _ => BitVec.getLsbD_and
  case or => exact aluRowHolds_of_intRR (fun x y => x ||| y) rfl fun _ _ => BitVec.getLsbD_or
  case xor => exact aluRowHolds_of_intRR (fun x y => x ^^^ y) rfl fun _ _ => BitVec.getLsbD_xor
  case andn => exact aluRowHolds_of_intRR (fun x y => x &&& ~~~y) rfl fun j hj => by simp [hj]
  case sll => exact aluRowHolds_of_intRR (fun x y => x <<< shamt y) rfl (toNat_sll _ _)
  case srl => exact aluRowHolds_of_intRR (fun x y => x >>> shamt y) rfl (toNat_srl _ _)
  case sra => exact aluRowHolds_of_intRR (fun x y => x.sshiftRight (shamt y)) rfl (toInt_sra _ _)
  case rol => exact aluRowHolds_of_intRR (fun x y => x.rotateLeft (shamt y)) rfl fun j hj => getLsbD_rol _ _ hj
  case ror => exact aluRowHolds_of_intRR (fun x y => x.rotateRight (shamt y)) rfl fun j hj => getLsbD_ror _ _ hj
  case slt => exact aluRowHolds_of_intRR (fun x y => bitWord (x.slt y)) rfl (bitWord_decide _)
  case sltu => exact aluRowHolds_of_intRR (fun x y => bitWord (x.ult y)) rfl (bitWord_decide _)
  case min => exact aluRowHolds_of_intRR (fun x y => if x.slt y then x else y) rfl (toInt_min_word _ _)
  case max => exact aluRowHolds_of_intRR (fun x y => if x.slt y then y else x) rfl (toInt_max_word _ _)
  case minu => exact aluRowHolds_of_intRR (fun x y => if x.ult y then x else y) rfl (toNat_min_word _ _)
  case maxu => exact aluRowHolds_of_intRR (fun x y => if x.ult y then y else x) rfl (toNat_max_word _ _)
  case mul => exact aluRowHolds_of_intRR (fun x y => x * y) rfl (BitVec.toNat_mul _ _)
  case mulh => exact aluRowHolds_of_intRR (fun x y => highWord (x.toInt * y.toInt)) rfl (toInt_highWord_signed _ _)
  case mulhu => exact aluRowHolds_of_intRR (fun x y => highWord (x.toNat * y.toNat)) rfl (toNat_highWord_unsigned _ _)
  case mulhsu => exact aluRowHolds_of_intRR (fun x y => highWord (x.toInt * y.toNat)) rfl (toInt_highWord_mixed _ _)
  case div => exact aluRowHolds_of_intRR divS rfl (divS_value _ _)
  case divu => exact aluRowHolds_of_intRR divU rfl (divU_value _ _)
  case rem => exact aluRowHolds_of_intRR remS rfl (remS_value _ _)
  case remu => exact aluRowHolds_of_intRR remU rfl (remU_value _ _)
  case sel => exact aluRowHolds_of_issue rfl rfl (ite_not _ _ _)
  case addi => exact aluRowHolds_of_intRI (fun x y => x + y) rfl (BitVec.toNat_add _ _)
  case andi => exact aluRowHolds_of_intRI (fun x y => x &&& y) rfl fun _ _ => BitVec.getLsbD_and
  case ori => exact aluRowHolds_of_intRI (fun x y => x ||| y) rfl fun _ _ => BitVec.getLsbD_or
  case xori => exact aluRowHolds_of_intRI (fun x y => x ^^^ y) rfl fun _ _ => BitVec.getLsbD_xor
  case slli => exact aluRowHolds_of_intShift (fun x y => x <<< y) rfl (toNat_shl_word _ _)
  case srli => exact aluRowHolds_of_intShift (fun x y => x >>> y) rfl (toNat_shr_word _ _)
  case srai => exact aluRowHolds_of_intShift (fun x y => x.sshiftRight y) rfl (toInt_sar_word _ _)
  case roli => exact aluRowHolds_of_intShift (fun x y => x.rotateLeft y) rfl fun j hj => getLsbD_rotateLeft_word _ sh.isLt hj
  case clz => exact aluRowHolds_of_intR (fun x => w64 (leadingZeros x 64)) rfl (clz_value _)
  case ctz => exact aluRowHolds_of_intR (fun x => w64 (trailingZeros x 64 0)) rfl (ctz_value _)
  case bperm => exact aluRowHolds_of_issue rfl rfl (bperm_value _ _ _)
  case bfext => exact aluRowHolds_of_intR (fun x => fieldU x p.toNat n.toNat) rfl fun j hj => getLsbD_fieldU _ _ _ hj
  case bfexts => exact aluRowHolds_of_intR (fun x => fieldS x p.toNat n.toNat) rfl fun j hj => getLsbD_fieldS _ _ n.isLt hj
  case bfins => exact aluRowHolds_of_issue rfl rfl fun j hj => getLsbD_fieldIns _ _ _ _ hj
  case bfextr => exact aluRowHolds_of_intRR (fun x y => fieldU x (posOf y) (lenOf y)) rfl fun j hj => getLsbD_bfextr _ _ hj
  case bfextsr => exact aluRowHolds_of_intRR (fun x y => fieldS x (posOf y) (lenOf y)) rfl fun j hj => getLsbD_bfextsr _ _ hj
  case bfinsr => exact aluRowHolds_of_issue rfl rfl fun j hj => getLsbD_bfinsr _ _ _ hj
  case li => exact aluRowHolds_of_issue rfl rfl (sext_eq_ofInt w)
  case lih => exact aluRowHolds_of_issue rfl rfl (toNat_lih w _)

/-- Settles O8: each row of the table holds, and a shift with its reserved field set traps. -/
theorem integerInstructions : Obligations.IntegerInstructions := by
  refine ⟨aluRowHolds_of_mem_aluTable, fun c rd rs1 imm12 s t hi hm => ?_⟩
  have htrap (f : Word → Nat → Word) := intShift_reserved rd rs1 f hi hm
  simp only [List.forall_mem_cons, List.not_mem_nil, false_imp_iff, implies_true, and_true]
  exact ⟨htrap _, htrap _, htrap _, htrap _⟩

end Sys2Proof.Machine
end

section
/-!
SUPPORT. What announcing an accepted record changes: the notices of cores, the sessions' counts and the frames sent
(R371, R443, R466). Everything else is as it was.
-/
namespace Sys2Proof.Machine

/-- t is s after announcements: beside the fabric, the management sessions and free values, only the cores' notices differ,
and an ERROR_NOTICE that was pending is. -/
structure Announced (s t : State) : Prop where
  rest : t = { s with cores := t.cores, fab := t.fab, mgmt := t.mgmt, free := t.free }
  core : ∀ c : CoreId, t.core c = { s.core c with notice := (t.core c).notice }
  error : ∀ c : CoreId, (s.core c).notice.error = true → (t.core c).notice.error = true

namespace Announced

variable {s t u : State}

theorem refl (s : State) : Announced s s := ⟨rfl, fun _ => rfl, fun _ h => h⟩

theorem trans (h : Announced s t) (h' : Announced t u) : Announced s u where
  rest := h'.rest.trans (by rw [h.rest])
  core c := (h'.core c).trans (by rw [h.core c])
  error c he := h'.error c (h.error c he)

theorem ite {p : Prop} [Decidable p] (ht : Announced s t) (hu : Announced s u) : Announced s (if p then t else u) := by
  split
  · exact ht
  · exact hu

/-- Only the fabric, the sessions and the free values differ. -/
theorem of_rest (h : t = { s with fab := t.fab, mgmt := t.mgmt, free := t.free }) : Announced s t := by
  have hcores : t.cores = s.cores := by rw [h]
  have hcore : ∀ c, t.core c = s.core c := fun c => by rw [State.core, hcores, State.core]
  refine ⟨?_, fun c => by rw [hcore], fun c he => by rw [hcore]; exact he⟩
  rw [hcores]
  exact h

theorem recd (h : Announced s t) : t.recd = s.recd := by rw [h.rest]
theorem mem (h : Announced s t) : t.mem = s.mem := by rw [h.rest]
theorem cont (h : Announced s t) : t.cont = s.cont := by rw [h.rest]
theorem time (h : Announced s t) : t.time = s.time := by rw [h.rest]
theorem pow (h : Announced s t) : t.pow = s.pow := by rw [h.rest]
theorem rst (h : Announced s t) : t.rst = s.rst := by rw [h.rest]

theorem g (h : Announced s t) (c : CoreId) : (t.core c).g = (s.core c).g := by rw [h.core c]
theorem pcc (h : Announced s t) (c : CoreId) : (t.core c).pcc = (s.core c).pcc := by rw [h.core c]
theorem cond (h : Announced s t) (c : CoreId) : (t.core c).cond = (s.core c).cond := by rw [h.core c]

theorem ledger (h : Announced s t) (id : Nat) : t.ledger id = s.ledger id := by rw [State.ledger, h.cont, State.ledger]

theorem coreRuns (h : Announced s t) (c : CoreId) : t.coreRuns c = s.coreRuns c := by
  rw [State.coreRuns, h.cond, h.pow, h.rst, State.coreRuns]

/-- A notice at one core that takes back no ERROR_NOTICE. -/
theorem mapCore (s : State) (c : CoreId) {f : Notices → Notices} (hf : ∀ n : Notices, n.error = true → (f n).error = true) :
    Announced s (s.mapCore c fun x => { x with notice := f x.notice }) := by
  refine ⟨rfl, fun d => ?_, fun d he => ?_⟩ <;> by_cases h : d = c
  · subst h; rw [State.core_mapCore_self]
  · rw [State.core_mapCore_ne _ _ h]
  · subst h; rw [State.core_mapCore_self]; exact hf _ he
  · rwa [State.core_mapCore_ne _ _ h]

end Announced

/-! ### ERROR_NOTICE (R371) -/

/-- ERROR_NOTICE at one core, where the mask names it and it is neither fenced nor gated: a step of `errorNotice`. -/
def State.errorNoticeAt (s : State) (c : CoreId) : State :=
  if s.recd.noticeMask.getLsbD c.val && decide ((s.core c).cond ≠ .fenced ∧ (s.core c).cond ≠ .absent ∧
      (vget s.pow.domains c.val ⟨.off, false, false, 0, 0⟩).phase = .on) then
    s.mapCore c fun x => { x with notice := { x.notice with error := true } }
  else s

theorem State.errorNotice_eq_foldl (s : State) : s.errorNotice = (List.finRange 64).foldl State.errorNoticeAt s := rfl

theorem State.errorNoticeAt_announced (s : State) (c : CoreId) : Announced s (s.errorNoticeAt c) :=
  Announced.ite (Announced.mapCore s c (f := fun n => { n with error := true }) fun _ _ => rfl) (Announced.refl s)

theorem State.errorNoticeFold_announced (l : List CoreId) (s : State) : Announced s (l.foldl State.errorNoticeAt s) :=
  State.foldl_keeps (P := Announced s) (fun t c h => h.trans (t.errorNoticeAt_announced c)) l (Announced.refl s)

theorem State.errorNotice_announced (s : State) : Announced s s.errorNotice := by
  rw [State.errorNotice_eq_foldl]
  exact s.errorNoticeFold_announced _

theorem State.errorNoticeAt_error {s : State} {c : CoreId} (hmask : s.recd.noticeMask.getLsbD c.val = true)
    (hruns : s.coreRuns c = true) : ((s.errorNoticeAt c).core c).notice.error = true := by
  obtain ⟨hcond, hon, -⟩ := of_decide_eq_true hruns
  simp [State.errorNoticeAt, hmask, hcond, hon]

/-- Each core of the list that the mask names and that runs gets its notice, and keeps it. -/
theorem State.errorNoticeFold_error {c : CoreId} (l : List CoreId) (hc : c ∈ l) :
    ∀ {s : State}, s.recd.noticeMask.getLsbD c.val = true → s.coreRuns c = true →
      ((l.foldl State.errorNoticeAt s).core c).notice.error = true := by
  induction l with
  | nil => simp at hc
  | cons d l ih =>
    intro s hmask hruns
    have hstep := s.errorNoticeAt_announced d
    rcases List.mem_cons.mp hc with rfl | hin
    · exact (State.errorNoticeFold_announced l _).error c (State.errorNoticeAt_error hmask hruns)
    · exact ih hin (hstep.recd ▸ hmask) (hstep.coreRuns c ▸ hruns)

theorem State.errorNotice_error {s : State} {c : CoreId} (hmask : s.recd.noticeMask.getLsbD c.val = true)
    (hruns : s.coreRuns c = true) : (s.errorNotice.core c).notice.error = true := by
  rw [State.errorNotice_eq_foldl]
  exact State.errorNoticeFold_error _ (List.mem_finRange c) hmask hruns

/-! ### POWER_NOTICE (R443) and NOTIFY (R466) -/

theorem State.powerNotice_announced (s : State) : Announced s s.powerNotice := by
  refine State.foldl_keeps (P := Announced s) (fun t c h => h.trans ?_) _ (Announced.refl s)
  exact Announced.ite (Announced.mapCore t c (f := fun n => { n with power := true }) fun _ he => he) (Announced.refl t)

theorem State.putOut_announced (s : State) (f : OutFrame) : Announced s (s.putOut f) := by
  refine Announced.of_rest ?_
  unfold State.putOut
  cases f.len <;> rfl

theorem State.transmit_announced (s : State) (f : OutFrame) : Announced s (s.transmit f) :=
  Announced.ite (Announced.of_rest rfl) (s.putOut_announced f)

theorem State.sendDap_announced (s : State) (p : DapPeer) (m : DapMsg) : Announced s (s.sendDap p m) := by
  unfold State.sendDap
  split
  · exact Announced.ite (Announced.refl s) (Announced.of_rest rfl)
  · exact Announced.ite (s.transmit_announced _) (Announced.refl s)

theorem State.setSession_announced (s : State) (vlan : Bool) (i : Fin 4) (x : Option Session) :
    Announced s (s.setSession vlan i x) := Announced.of_rest rfl

theorem State.notifyOne_announced (s : State) (vlan : Bool) (i : Fin 4) (body : List Byte) :
    Announced s (s.notifyOne vlan i body) := by
  unfold State.notifyOne
  split
  · exact Announced.refl s
  · refine Announced.ite (Announced.refl s) (Announced.ite (Announced.of_rest rfl) ?_)
    exact (s.setSession_announced vlan i _).trans (State.sendDap_announced _ _ _)

theorem State.notifyAll_announced (s : State) (body : List Byte) : Announced s (s.notifyAll body) := by
  refine State.foldl_keeps (P := Announced s) (fun t v h => ?_) _ (Announced.refl s)
  exact State.foldl_keeps (P := Announced s) (fun u i h' => h'.trans (u.notifyOne_announced v i body)) _ h

/-! ### What follows an accepted record -/

/-- After ERROR_NOTICE, where it is due, come POWER_NOTICE and NOTIFY. -/
theorem State.afterAccept_announced_errorNotice (s : State) (r : Rec) (time : Nat) :
    Announced (if s.recd.noticeSev ≤ r.sev then s.errorNotice else s) (s.afterAccept r time) := by
  have hpower : ∀ t : State, Announced t (if r.code.toNat / 256 = 7 ∧ 3 ≤ r.sev then t.powerNotice else t) :=
    fun t => Announced.ite t.powerNotice_announced (Announced.refl t)
  exact Announced.ite ((hpower _).trans (State.notifyAll_announced _ _)) (hpower _)

theorem State.afterAccept_announced (s : State) (r : Rec) (time : Nat) : Announced s (s.afterAccept r time) :=
  (Announced.ite s.errorNotice_announced (Announced.refl s)).trans (s.afterAccept_announced_errorNotice r time)

theorem State.afterAccept_error {s : State} {r : Rec} {c : CoreId} (time : Nat) (hsev : s.recd.noticeSev ≤ r.sev)
    (hmask : s.recd.noticeMask.getLsbD c.val = true) (hruns : s.coreRuns c = true) :
    ((s.afterAccept r time).core c).notice.error = true := by
  have h := s.afterAccept_announced_errorNotice r time
  rw [if_pos hsev] at h
  exact h.error c (State.errorNotice_error hmask hruns)

end Sys2Proof.Machine
end

section
/-!
SUPPORT. The recorder's acceptance queue as a pool (R364, R375): what a unit taken or given back changes, and the words of a
slot (R374).
-/
namespace Sys2Proof.Machine

/-! ### Ledgers -/

@[simp] theorem State.ledger_setLedger_self (s : State) (id : Nat) (l : Ledger) : (s.setLedger id l).ledger id = l := by
  simp [State.ledger, State.setLedger, sparseGet_set]

theorem Ledger.whole_of_canTake {l : Ledger} {n : Nat} (h : l.canTake n = true) : l.whole = true := by
  simp only [Ledger.canTake, Bool.and_eq_true] at h
  exact h.2

theorem Ledger.outstanding_intact {l : Ledger} (h : l.whole = true) : intact l.outstanding = true := by
  simp only [Ledger.whole, Bool.and_eq_true] at h
  obtain ⟨⟨⟨-, hout⟩, -⟩, -⟩ := h
  exact hout

theorem Ledger.outstanding_take {l : Ledger} (h : l.whole = true) (n : Nat) :
    (l.take n).outstanding.val = l.outstanding.val + w64 n := by
  simp [Ledger.take, pairMap, Ledger.outstanding_intact h, pairOf]

/-- Units that are outstanding come back to a pool that is whole and not written off. -/
theorem State.poolGive_of_whole {s : State} {id n : Nat} (hwhole : (s.ledger id).whole = true)
    (hwritten : (s.ledger id).wroteOff = false) (hle : n ≤ (s.ledger id).outstanding.val.toNat) :
    s.poolGive id n = s.setLedger id ((s.ledger id).give n) := by
  simp [State.poolGive, State.poolReturn, Ledger.writtenOffNow, hwhole, hwritten, Nat.not_lt.mpr hle]

/-- A return to a pool changes its ledger and may report it, whatever it finds. -/
theorem State.poolReturn_rest (s : State) (id n : Nat) : let t := (s.poolReturn id n).1
    t = { s with cont := t.cont, recd := { s.recd with inFlight := t.recd.inFlight } } := by
  unfold State.poolReturn
  dsimp only
  split_ifs <;> rfl

/-- Units that come back to the acceptance queue, which fences no unit, change its ledger and may report it. -/
theorem State.poolGive_recorder_rest (s : State) (n : Nat) : let t := s.poolGive 0x70 n
    t = { s with cont := t.cont, recd := { s.recd with inFlight := t.recd.inFlight } } := by
  have hret := s.poolReturn_rest 0x70 n
  unfold State.poolGive
  generalize s.poolReturn 0x70 n = r at hret
  obtain ⟨t, found⟩ := r
  cases found with
  | none => exact hret
  | some check =>
    have hfail : t.failPool 0x70 check = t.closeFault 0x70 check 5 := by simp [State.failPool]
    simp only [hfail]
    rw [show t = _ from hret]
    rfl

/-! ### Slots -/

/-- Only the ring counts. -/
theorem Recorder.slot_congr {x y : Recorder} (h : x.ring = y.ring) (i : Nat) : x.slot i = y.slot i := by
  rw [Recorder.slot, h, Recorder.slot]

/-- Only the ring changes. -/
theorem Recorder.setSlot_eq (x : Recorder) (i : Nat) (w : RecSlot) :
    x.setSlot i w = { x with ring := (x.setSlot i w).ring } := rfl

theorem Recorder.setSlot_ring_congr {x y : Recorder} (h : x.ring = y.ring) (i : Nat) (w : RecSlot) :
    (x.setSlot i w).ring = (y.setSlot i w).ring := by
  rw [Recorder.setSlot, h, Recorder.setSlot]

theorem Recorder.slot_setSlot_self (x : Recorder) (i : Nat) (w : RecSlot) : (x.setSlot i w).slot i = w := by
  simp [Recorder.slot, Recorder.setSlot, sparseGet_set]

section
variable (r : Rec) (time repeats : Nat)

theorem recSlot_word_source : RecSlot.word (recSlot r time repeats) 1 = r.source := rfl

theorem recSlot_word_p0 : RecSlot.word (recSlot r time repeats) 4 = r.p0 := rfl

/-- Word 0 as R374 lays it out: no field runs into the next. -/
theorem recSlot_word_zero : (RecSlot.word (recSlot r time repeats) 0).toNat =
    r.code.toNat * 65536 + r.code.toNat / 256 % 32 * 2048 + r.sev.toNat * 256 + 0xA5 := by
  have hcode := r.code.isLt
  have hsev := r.sev.isLt
  show (w32 _).toNat = _
  rw [w32, BitVec.toNat_ofNat, Nat.mod_eq_of_lt (by omega)]

theorem recSlot_word_seven {time repeats : Nat} (h : repeats < 65536) : (RecSlot.word (recSlot r time repeats) 7).toNat =
    (65535 - (RecSlot.word (recSlot r time repeats) 0).toNat % 65536) * 65536 + repeats := by
  show (w32 _).toNat = _
  rw [w32, BitVec.toNat_ofNat]
  exact Nat.mod_eq_of_lt (by omega)

theorem recSlot_code : (RecSlot.word (recSlot r time repeats) 0).toNat / 65536 = r.code.toNat := by
  have hsev := r.sev.isLt
  rw [recSlot_word_zero]
  omega

theorem recSlot_sev : RecSlot.sev (recSlot r time repeats) = r.sev.toNat := by
  have hsev := r.sev.isLt
  rw [RecSlot.sev, recSlot_word_zero]
  omega

theorem recSlot_valid {repeats : Nat} (h : repeats < 65536) : RecSlot.valid (recSlot r time repeats) = true := by
  have hmark : (RecSlot.word (recSlot r time repeats) 0).toNat % 256 = 0xA5 := by
    rw [recSlot_word_zero]
    omega
  have hcheck : (RecSlot.word (recSlot r time repeats) 7).toNat / 65536 =
      65535 - (RecSlot.word (recSlot r time repeats) 0).toNat % 65536 := by
    rw [recSlot_word_seven r h]
    omega
  simp [RecSlot.valid, hmark, hcheck]

theorem recSlot_time {time : Nat} (h : time < 2 ^ 64) : RecSlot.time (recSlot r time repeats) = time := by
  show (w32 time).toNat + 2 ^ 32 * (w32 (time / 2 ^ 32)).toNat = time
  rw [w32, w32, BitVec.toNat_ofNat, BitVec.toNat_ofNat]
  omega

end

/-- Counting one more repeat. -/
theorem RecSlot.repeats_succ {w : RecSlot} (h : RecSlot.repeats w < 0xFFFF) :
    RecSlot.repeats (w.set 7 (RecSlot.word w 7 + 1)) = RecSlot.repeats w + 1 := by
  have hword : RecSlot.word (w.set 7 (RecSlot.word w 7 + 1)) 7 = RecSlot.word w 7 + 1 := by simp [RecSlot.word, vget]
  rw [RecSlot.repeats] at h
  rw [RecSlot.repeats, RecSlot.repeats, hword, BitVec.toNat_add]
  have hone : (1 : BitVec 32).toNat = 1 := rfl
  rw [hone]
  omega

end Sys2Proof.Machine
end

section
/-!
PROOF. R371, R374 to R376: what accepting a record and writing it to the ring do.
-/
namespace Sys2Proof.Machine

/-! ### Acceptance (R375) -/

section
variable {s : State} {r : Rec} {rs : List Rec}

/-- A record was accepted in this tick already: the next one waits. -/
theorem execRecordAccept_waits {l : Nat} (hfly : s.recd.inFlight = r :: rs) (hlast : s.recd.lastAccept = some l)
    (hle : s.time ≤ l) : execRecordAccept s = .next s := by
  have hbusy : s.freeTick ≠ s.time := by
    simp only [State.freeTick, hlast]
    omega
  simp [execRecordAccept, hfly, hbusy]

/-- The first record accepted since reset, or one in a later tick than the last. -/
theorem execRecordAccept_accepts (hfly : s.recd.inFlight = r :: rs) (hphase : s.rst.phase ≠ .porHeld)
    (hfree : ∀ l, s.recd.lastAccept = some l → l < s.time) :
    execRecordAccept s = .next ({ s with recd := { s.recd with inFlight := rs } }.acceptRec r) := by
  have htick : s.freeTick = s.time := by
    unfold State.freeTick
    split
    next => rfl
    next l hlast =>
      have := hfree l hlast
      omega
  simp [execRecordAccept, hfly, htick, State.recorderRuns, hphase]

end

/-- The state in which an accepted record is announced: it is queued with the tick, and holds a unit of the pool. -/
def State.queued (s : State) (r : Rec) : State :=
  let t := s.poolTake 0x70 1
  { t with recd := { t.recd with queue := s.recd.queue ++ [(r, s.time)], lastAccept := some s.time } }

section
variable {s : State} (r : Rec)

theorem State.acceptRec_full (h : 64 ≤ s.recd.queue.length ∨ (s.ledger 0x70).canTake 1 = false) :
    s.acceptRec r = { s with recd := { s.recd with drop := s.recd.drop + 1 } } := by
  rw [State.acceptRec, if_pos h]

theorem State.acceptRec_room (hlen : s.recd.queue.length < 64) (htake : (s.ledger 0x70).canTake 1 = true) :
    s.acceptRec r = (s.queued r).afterAccept r s.time := by
  rw [State.acceptRec, if_neg (by simp [htake, hlen])]
  rfl

theorem State.queued_outstanding (htake : (s.ledger 0x70).canTake 1 = true) :
    ((s.queued r).ledger 0x70).outstanding.val = (s.ledger 0x70).outstanding.val + 1 := by
  have hledger : (s.queued r).ledger 0x70 = (s.ledger 0x70).take 1 := s.ledger_setLedger_self 0x70 _
  rw [hledger, Ledger.outstanding_take (Ledger.whole_of_canTake htake)]
  rfl

end

/-! ### The ring (R376) -/

section
variable (x : Recorder) (r : Rec) (time : Nat)

theorem Recorder.put_coalesces (h : x.coalesces r = true) : x.put r time = { x with
    ring := (x.setSlot x.newest.toNat ((x.slot x.newest.toNat).set 7 (RecSlot.word (x.slot x.newest.toNat) 7 + 1))).ring } := by
  rw [Recorder.put, if_pos h, Recorder.setSlot_eq]

theorem Recorder.put_found {i : Nat} (h : x.coalesces r = false) (hslot : x.findSlot r.sev = some i) : x.put r time =
    { x with ring := (x.setSlot i (recSlot r time 0)).ring, newest := w32 i, next := (i + 1) % x.slots,
             written := x.written + 1 } := by
  have hput : x.put r time =
      { x.setSlot i (recSlot r time 0) with newest := w32 i, next := (i + 1) % x.slots, written := x.written + 1 } := by
    simp [Recorder.put, h, hslot]
  rw [hput, Recorder.setSlot_eq]

theorem Recorder.put_none (h : x.coalesces r = false) (hslot : x.findSlot r.sev = none) :
    x.put r time = { x with drop := x.drop + 1 } := by
  simp [Recorder.put, h, hslot]

/-- A record coalesces only with one that can count it. -/
theorem Recorder.repeats_lt_of_coalesces {x : Recorder} {r : Rec} (h : x.coalesces r = true) :
    RecSlot.repeats (x.slot x.newest.toNat) < 0xFFFF := by
  simp only [Recorder.coalesces, Bool.and_eq_true, decide_eq_true_eq] at h
  obtain ⟨-, hrep⟩ := h
  exact hrep

end

/-- The oldest record of the queue goes to the ring; its unit's return changes nothing else of the recorder but what is on its
way to it. -/
theorem State.writeRec_cons {s : State} {r : Rec} {t : Nat} {q : List (Rec × Nat)} (h : s.recd.queue = (r, t) :: q) :
    s.writeRec.cores = s.cores ∧ s.writeRec.mem = s.mem ∧ s.writeRec.recd =
      { ({ s.recd with queue := q } : Recorder).put r t with inFlight := s.writeRec.recd.inFlight } := by
  have hwrite : s.writeRec = ({ s with recd := ({ s.recd with queue := q } : Recorder).put r t }).poolGive 0x70 1 := by
    simp [State.writeRec, h]
  rw [hwrite]
  have hrest := State.poolGive_recorder_rest { s with recd := ({ s.recd with queue := q } : Recorder).put r t } 1
  refine ⟨?_, ?_, ?_⟩ <;> rw [hrest]

end Sys2Proof.Machine
end

section
/-!
PROOF. R377, R379, R446, R452: hub firmware's writes of the recorder's entries.
-/
namespace Sys2Proof.Machine

/-! ### Writes by hub firmware -/

theorem hubAccess_holds (mask : BitVec 16) : hubAccess.holds mask = true := by simp [Asker.holds, hubAccess]

/-- Hub firmware reaches an entry of a fixed-width type that can be written: what the entry makes of the value counts (R452). -/
theorem dictOut_hub {s : State} {t : IoTarget} {v : Word} {e : Entry} {n : Nat} (hindex : t.index.toNat < 0xF000)
    (hlook : s.lookup t.index.toNat t.sub.toNat = some e) (hacc : e.acc = .rw) (hfixed : e.typ.varies = false)
    (hoff : t.off = 0) (hreg : e.typ.ofReg v = some n) : s.dictOut hubAccess t v =
      (e.write s t.index.toNat 64 n).elim (.range, s) fun u => (.ok, u) := by
  have hadmit : s.admitWrite hubAccess t.index.toNat t.sub.toNat = .ok e := by
    simp [State.admitWrite, Nat.not_le.mpr hindex, hlook, hubAccess_holds, hacc]
  simp only [State.dictOut, hadmit, Entry.offOk, hfixed, hoff, hreg]
  cases h : e.write s t.index.toNat 64 n <;> simp [hubAccess, h]

theorem request_hub {s : State} (h : s.hubRuns = true) (index sub off : Nat) (v : Word) :
    s.request .hub index sub off v = .next (s.dictOut hubAccess ⟨BitVec.ofNat 16 index, BitVec.ofNat 8 sub, off⟩ v).2 := by
  simp [State.request, h]

/-- An entry that no uncore keeps is written where its own command takes the value (R453). -/
theorem Entry.write_of_not_uncore {e : Entry} (h : e.uncore = false) (s : State) (index who n : Nat) :
    e.write s index who n = e.put (e.check s) who n := by
  unfold Entry.write
  split
  · simp [h]
  · rfl

/-! ### Where the entries stand (R449) -/

/-- Offset off of core c's block leads back to both. -/
theorem blockOf_blockIndex (c : CoreId) {off : Nat} (h : off ≤ 0x10) : blockOf (blockIndex c off) = some (c, off) := by
  have hc := c.isLt
  have hdiv : (0x0120 + 0x3C * c.val + off - 0x0120) / 0x3C = c.val := by omega
  have hmod : (0x0120 + 0x3C * c.val + off - 0x0120) % 0x3C = off := by omega
  rw [blockOf, blockIndex, if_pos (by omega), hdiv, hmod]
  simp [Fin.ofNat, Nat.mod_eq_of_lt hc]

/-- The index of a recorder window: the shared one, or the one of a core's block. -/
theorem winIndex_lt (win : Option CoreId) : winIndex win 0x0A 0xA001 < 0xF000 := by
  cases win with
  | none => decide
  | some c =>
    have hc := c.isLt
    rw [winIndex, blockIndex]
    omega

theorem lookup_recWindow {s : State} {win : Option CoreId} (h : ∀ c, win = some c → (s.core c).cond ≠ .absent) (sub : Nat) :
    s.lookup (winIndex win 0x0A 0xA001) sub = recWindowEntry win sub := by
  cases win with
  | none => rfl
  | some c =>
    have hb := blockOf_blockIndex c (off := 0x0A) (by decide)
    simp [State.lookup, State.entryGone, plainEntry, winIndex, hb, h c rfl, blockEntry]

/-- A value of 32 bits in a word. -/
theorem toNat_word_of_lt {n : Nat} (h : n < 2 ^ 32) : (BitVec.ofNat 64 n).toNat = n := by
  rw [BitVec.toNat_ofNat]
  exact Nat.mod_eq_of_lt (by omega)

/-! ### rec_sel (R377) and rec_size (R379) -/

/-- A write of rec_sel by hub firmware answers what the command makes of it. -/
theorem dictOut_recSel {s : State} {win : Option CoreId} (h : ∀ c, win = some c → (s.core c).cond ≠ .absent) {n : Nat}
    (hn : n < 2 ^ 32) :
    s.dictOut hubAccess ⟨BitVec.ofNat 16 (winIndex win 0x0A 0xA001), 1, 0⟩ (BitVec.ofNat 64 n) =
      (s.recSelCmd win (BitVec.ofNat 64 n)).elim (.range, s) fun u => (.ok, u) := by
  have hlt := winIndex_lt win
  have hindex : (BitVec.ofNat 16 (winIndex win 0x0A 0xA001)).toNat = winIndex win 0x0A 0xA001 := by
    rw [BitVec.toNat_ofNat]
    exact Nat.mod_eq_of_lt (by omega)
  have hreg : EType.u32.ofReg (BitVec.ofNat 64 n) = some n := by
    simp only [EType.ofReg, EType.width, toNat_word_of_lt hn]
    exact if_pos hn
  rw [dictOut_hub (by rw [hindex]; exact hlt) (by rw [hindex]; exact lookup_recWindow h 1) rfl rfl rfl hreg,
    Entry.write_of_not_uncore rfl]
  rfl

section
variable {s : State} {win : Option CoreId} {n : Nat}

/-- Hub firmware's write of rec_sel leads where the command leads, and to no change where that refuses it. -/
theorem execRecSelWrite_hub (hrun : s.hubRuns = true) (h : ∀ c, win = some c → (s.core c).cond ≠ .absent)
    (hn : n < 2 ^ 32) :
    execRecSelWrite .hub win (BitVec.ofNat 64 n) s = .next ((s.recSelCmd win (BitVec.ofNat 64 n)).getD s) := by
  rw [execRecSelWrite, request_hub hrun, show BitVec.ofNat 8 1 = 1 from rfl, dictOut_recSel h hn]
  cases s.recSelCmd win (BitVec.ofNat 64 n) <;> rfl

theorem recSelCmd_outside (hn : n < 2 ^ 32) (hout : s.recd.slots ≤ n) : s.recSelCmd win (BitVec.ofNat 64 n) = none := by
  rw [State.recSelCmd, toNat_word_of_lt hn, if_neg (Nat.not_lt.mpr hout)]

theorem recSelCmd_shared (hn : n < 2 ^ 32) (hin : n < s.recd.slots) : s.recSelCmd none (BitVec.ofNat 64 n) =
    some { s with recd := { s.recd with sel := BitVec.ofNat 32 n, snap := s.recd.slot n } } := by
  simp only [State.recSelCmd, toNat_word_of_lt hn, if_pos hin,
    BitVec.setWidth_ofNat_of_le (show 32 ≤ 64 by decide)]

theorem recSelCmd_core (c : CoreId) (hn : n < 2 ^ 32) (hin : n < s.recd.slots) : s.recSelCmd (some c) (BitVec.ofNat 64 n) =
    some (s.setCore c { s.core c with
      win := { (s.core c).win with recSel := BitVec.ofNat 32 n, recSnap := s.recd.slot n } }) := by
  simp only [State.recSelCmd, toNat_word_of_lt hn, if_pos hin,
    BitVec.setWidth_ofNat_of_le (show 32 ≤ 64 by decide)]
  rfl

end

/-- A write of rec_size by hub firmware, while the hub's domain is on. -/
theorem execRecSizeWrite_hub {s : State} (hrun : s.hubRuns = true) (hon : s.domainOn 95 = true) (v : BitVec 8) :
    execRecSizeWrite .hub (v.setWidth 64) s = .next ((s.recSizeCmd (v.setWidth 64)).getD s) := by
  have hword : (v.setWidth 64).toNat = v.toNat := BitVec.toNat_setWidth_of_le (by decide)
  have hreg : EType.u8.ofReg (v.setWidth 64) = some v.toNat := by
    simp only [EType.ofReg, EType.width, hword]
    exact if_pos v.isLt
  have hcmd : s.whileOn 95 (s.recSizeCmd (w64 v.toNat)) = s.recSizeCmd (v.setWidth 64) := by
    rw [State.whileOn, if_pos hon, ← hword, w64, BitVec.ofNat_toNat, BitVec.setWidth_eq]
  rw [execRecSizeWrite, request_hub hrun, dictOut_hub (by decide) rfl rfl rfl rfl hreg, Entry.write_of_not_uncore rfl]
  show Host.Outcome.next ((s.whileOn 95 (s.recSizeCmd (w64 v.toNat))).elim (IoStatus.range, s) fun u => (.ok, u)).2 = _
  rw [hcmd]
  cases s.recSizeCmd (v.setWidth 64) <;> rfl

/-- The ring and the queue are emptied, the queued records' units come back, and a record says the new size. -/
theorem recSizeCmd_whole {s : State} {v : BitVec 8} (hlo : 12 ≤ v.toNat) (hhi : v.toNat ≤ 20)
    (hwhole : (s.ledger 0x70).whole = true) (hwritten : (s.ledger 0x70).wroteOff = false)
    (hqueue : s.recd.queue.length ≤ (s.ledger 0x70).outstanding.val.toNat) : s.recSizeCmd (v.setWidth 64) =
      some (({ s.setLedger 0x70 ((s.ledger 0x70).give s.recd.queue.length) with
        recd := { s.recd with ring := [], queue := [], size := v, next := 0, newest := 0xFFFFFFFF } }).log
          1 0x0D01 0x00010004 (v.setWidth 32) 0 0) := by
  have hword : (v.setWidth 64).toNat = v.toNat := BitVec.toNat_setWidth_of_le (by decide)
  rw [State.recSizeCmd, hword, if_pos ⟨hlo, hhi⟩, State.poolGive_of_whole hwhole hwritten hqueue]
  simp

end Sys2Proof.Machine
end

section
/-!
PROOF. O51: the recorder accepts, writes and shows records.
-/
namespace Sys2Proof.Machine

/-! ### Acceptance -/

section
variable {s : State} {r : Rec} {rs : List Rec}

theorem does_recordAccept_room (hfly : s.recd.inFlight = r :: rs) (hphase : s.rst.phase ≠ .porHeld)
    (hfree : ∀ l, s.recd.lastAccept = some l → l < s.time) (hlen : s.recd.queue.length < 64)
    (htake : (s.ledger 0x70).canTake 1 = true) :
    Does .recordAccept s fun u => u.recd.queue = s.recd.queue ++ [(r, s.time)] ∧ u.recd.inFlight = rs ∧
      u.recd.lastAccept = some s.time ∧ u.recd.ring = s.recd.ring ∧ u.mem = s.mem ∧ u.time = s.time ∧
      (u.ledger 0x70).outstanding.val = (s.ledger 0x70).outstanding.val + 1 ∧
      ∀ c : CoreId, (s.recd.noticeSev ≤ r.sev → s.recd.noticeMask.getLsbD c.val = true → s.coreRuns c = true →
        (u.core c).notice.error = true) ∧ (u.core c).g = (s.core c).g ∧ (u.core c).pcc = (s.core c).pcc := by
  let t : State := { s with recd := { s.recd with inFlight := rs } }
  have hann := (t.queued r).afterAccept_announced r s.time
  refine ⟨(t.queued r).afterAccept r s.time, ?_, ?_⟩
  · rw [← State.acceptRec_room (s := t) r hlen htake]
    exact execRecordAccept_accepts hfly hphase hfree
  · dsimp only
    rw [hann.recd, hann.mem, hann.time, hann.ledger]
    refine ⟨rfl, rfl, rfl, rfl, rfl, rfl, State.queued_outstanding (s := t) r htake,
      fun c => ⟨fun hsev hmask hruns => ?_, ?_, ?_⟩⟩
    · exact State.afterAccept_error s.time hsev hmask hruns
    · exact hann.g c
    · exact hann.pcc c

theorem does_recordAccept_full (hfly : s.recd.inFlight = r :: rs) (hphase : s.rst.phase ≠ .porHeld)
    (hfree : ∀ l, s.recd.lastAccept = some l → l < s.time)
    (hfull : 64 ≤ s.recd.queue.length ∨ (s.ledger 0x70).canTake 1 = false) :
    Does .recordAccept s fun u => u = { s with recd := { s.recd with inFlight := rs, drop := s.recd.drop + 1 } } := by
  refine ⟨_, execRecordAccept_accepts hfly hphase hfree, ?_⟩
  exact State.acceptRec_full (s := { s with recd := { s.recd with inFlight := rs } }) r hfull

end

/-! ### Writing -/

section
variable {s : State} {r : Rec} {t : Nat} {q : List (Rec × Nat)}

theorem does_recordWrite_found (hq : s.recd.queue = (r, t) :: q) (hnew : s.recd.coalesces r = false) {i : Nat}
    (hslot : s.recd.findSlot r.sev = some i) :
    Does .recordWrite s fun u => u.recd.queue = q ∧ u.recd.newest = BitVec.ofNat 32 i ∧
      u.recd.written = s.recd.written + 1 ∧ u.recd.next = (i + 1) % s.recd.slots ∧ u.recd.drop = s.recd.drop ∧
      u.cores = s.cores ∧ u.mem = s.mem ∧
      let w := u.recd.slot i
      w.valid = true ∧ RecSlot.word w 1 = r.source ∧ RecSlot.sev w = r.sev.toNat ∧ RecSlot.word w 4 = r.p0 ∧
        (RecSlot.word w 0).toNat / 65536 = r.code.toNat ∧ (t < 2 ^ 64 → RecSlot.time w = t) := by
  obtain ⟨hcores, hmem, hrecd⟩ := State.writeRec_cons hq
  rw [Recorder.put_found { s.recd with queue := q } r t hnew hslot] at hrecd
  have hring : s.writeRec.recd.ring = (s.recd.setSlot i (recSlot r t 0)).ring := by
    rw [hrecd]
    exact Recorder.setSlot_ring_congr rfl i _
  have hw : s.writeRec.recd.slot i = recSlot r t 0 := by rw [Recorder.slot_congr hring, Recorder.slot_setSlot_self]
  refine ⟨s.writeRec, rfl, ?_⟩
  dsimp only
  rw [hw, hcores, hmem, hrecd]
  exact ⟨rfl, rfl, rfl, rfl, rfl, rfl, rfl, recSlot_valid r t (by decide), recSlot_word_source r t 0, recSlot_sev r t 0,
    recSlot_word_p0 r t 0, recSlot_code r t 0, recSlot_time r 0⟩

theorem does_recordWrite_dropped (hq : s.recd.queue = (r, t) :: q) (hnew : s.recd.coalesces r = false)
    (hslot : s.recd.findSlot r.sev = none) :
    Does .recordWrite s fun u => u.recd.queue = q ∧ u.recd.drop = s.recd.drop + 1 ∧ u.recd.ring = s.recd.ring := by
  obtain ⟨-, -, hrecd⟩ := State.writeRec_cons hq
  rw [Recorder.put_none { s.recd with queue := q } r t hnew hslot] at hrecd
  refine ⟨s.writeRec, rfl, ?_⟩
  dsimp only
  rw [hrecd]
  exact ⟨rfl, rfl, rfl⟩

theorem does_recordWrite_coalesced (hq : s.recd.queue = (r, t) :: q) (hrep : s.recd.coalesces r = true) :
    Does .recordWrite s fun u => u.recd.queue = q ∧ u.recd.written = s.recd.written ∧ u.recd.newest = s.recd.newest ∧
      RecSlot.repeats (u.recd.slot s.recd.newest.toNat) = RecSlot.repeats (s.recd.slot s.recd.newest.toNat) + 1 := by
  obtain ⟨-, -, hrecd⟩ := State.writeRec_cons hq
  rw [Recorder.put_coalesces { s.recd with queue := q } r t hrep] at hrecd
  let w := s.recd.slot s.recd.newest.toNat
  have hring : s.writeRec.recd.ring = (s.recd.setSlot s.recd.newest.toNat (w.set 7 (RecSlot.word w 7 + 1))).ring := by
    rw [hrecd]
    exact Recorder.setSlot_ring_congr rfl _ _
  have hw : s.writeRec.recd.slot s.recd.newest.toNat = w.set 7 (RecSlot.word w 7 + 1) := by
    rw [Recorder.slot_congr hring, Recorder.slot_setSlot_self]
  refine ⟨s.writeRec, rfl, ?_⟩
  dsimp only
  rw [hw, RecSlot.repeats_succ (Recorder.repeats_lt_of_coalesces hrep), hrecd]
  exact ⟨rfl, rfl, rfl, rfl⟩

end

/-! ### Showing and sizing -/

section
variable {s : State} {n : Nat}

theorem exec_recSelWrite_shared (hrun : s.hubRuns = true) (hn : n < 2 ^ 32) (hin : n < s.recd.slots) :
    exec (.recSelWrite .hub none (BitVec.ofNat 64 n)) s =
      .next { s with recd := { s.recd with sel := BitVec.ofNat 32 n, snap := s.recd.slot n } } := by
  have hexec := execRecSelWrite_hub (win := none) hrun (by simp) hn
  rw [recSelCmd_shared hn hin] at hexec
  exact hexec

theorem exec_recSelWrite_core {c : CoreId} (hrun : s.hubRuns = true) (hn : n < 2 ^ 32) (hin : n < s.recd.slots)
    (hc : (s.core c).cond ≠ .absent) : exec (.recSelWrite .hub (some c) (BitVec.ofNat 64 n)) s =
      .next (s.setCore c { s.core c with
        win := { (s.core c).win with recSel := BitVec.ofNat 32 n, recSnap := s.recd.slot n } }) := by
  have hexec := execRecSelWrite_hub (win := some c) hrun (by simpa using hc) hn
  rw [recSelCmd_core c hn hin] at hexec
  exact hexec

theorem exec_recSelWrite_range (hrun : s.hubRuns = true) (hn : n < 2 ^ 32) (hout : s.recd.slots ≤ n) :
    exec (.recSelWrite .hub none (BitVec.ofNat 64 n)) s = .next s ∧
      (s.dictOut hubAccess ⟨0xA001, 1, 0⟩ (BitVec.ofNat 64 n)).1 = .range := by
  have hexec := execRecSelWrite_hub (win := none) hrun (by simp) hn
  have hdict := dictOut_recSel (s := s) (win := none) (by simp) hn
  rw [recSelCmd_outside hn hout] at hexec hdict
  exact ⟨hexec, congrArg Prod.fst hdict⟩

theorem does_recSizeWrite {v : BitVec 8} (hrun : s.hubRuns = true) (hlo : 12 ≤ v.toNat) (hhi : v.toNat ≤ 20)
    (hon : s.domainOn 95 = true) (hwhole : (s.ledger 0x70).whole = true) (hwritten : (s.ledger 0x70).wroteOff = false)
    (hqueue : s.recd.queue.length ≤ (s.ledger 0x70).outstanding.val.toNat) :
    Does (.recSizeWrite .hub (v.setWidth 64)) s fun u => u.recd.ring = [] ∧ u.recd.queue = [] ∧ u.recd.size = v ∧
      u.recd.newest = 0xFFFFFFFF ∧ u.recd.written = s.recd.written ∧ Logs s u 1 0x0D01 0x00010004 (v.setWidth 32) 0 0 ∧
      u.cores = s.cores := by
  have hexec := execRecSizeWrite_hub hrun hon v
  rw [recSizeCmd_whole hlo hhi hwhole hwritten hqueue] at hexec
  exact ⟨_, hexec, rfl, rfl, rfl, rfl, rfl, rfl, rfl⟩

end

/-- Settles O51: acceptance, writing, and the two entries of the recorder, each case by its own lemma. -/
theorem recorderKeepsRecords : Obligations.RecorderKeepsRecords := by
  refine ⟨fun r rs s hfly hphase => ⟨?waits, fun hfree => ⟨?room, ?full⟩⟩,
    fun r t q s hq _ _ => ⟨?found, ?dropped, ?coalesced⟩,
    fun v n c s hrun _ hn => ⟨?shared, ?core, ?range, ?size⟩⟩
  case waits => exact fun l hlast hle => execRecordAccept_waits hfly hlast hle
  case room => exact fun hlen htake => does_recordAccept_room hfly hphase hfree hlen htake
  case full => exact fun hfull => does_recordAccept_full hfly hphase hfree hfull
  case found => exact fun hnew i hslot => does_recordWrite_found hq hnew hslot
  case dropped => exact fun hnew hslot => does_recordWrite_dropped hq hnew hslot
  case coalesced => exact fun hrep => does_recordWrite_coalesced hq hrep
  case shared => exact fun hin => exec_recSelWrite_shared hrun hn hin
  case core => exact fun hin hc => exec_recSelWrite_core hrun hn hin hc
  case range => exact fun hout => exec_recSelWrite_range hrun hn hout
  case size => exact fun hlo hhi hon hwhole hwritten hqueue => does_recSizeWrite hrun hlo hhi hon hwhole hwritten hqueue

end Sys2Proof.Machine
end
